-- ==== Sys2Proof/Word.lean ====
section
/-!
DEFINITION. The word types of the model and their plainest arithmetic: bytes, register words, the
184-bit tile word (R67), and the sparse tables that hold every large array of the part.
-/

namespace Sys2Proof

/-- One byte. -/
abbrev Byte := BitVec 8

/-- One 32-bit register word (R10). -/
abbrev Word32 := BitVec 32

/-- One 64-bit register or field value. -/
abbrev Word64 := BitVec 64

/-- A sparse table: pairs of key and value, keys strictly rising, no value equal to what an unlisted
key reads as. The operations that keep this form stand in Machine/Ops.lean. -/
abbrev Table (α : Type) := List (Nat × α)

/-- The word that tile links, queues and crossings carry (R67): 184 bits, of which bit 167 is zero. -/
structure TWord where
  /-- [159:0] data, a control value or scan bytes. -/
  payload : BitVec 160 := 0
  /-- [163:160] 0 DATA, 1 CTRL, 2 SCAN, 3–15 reserved. -/
  kind : BitVec 4 := 0
  /-- [166:164] input queue at the consuming tile. -/
  queue : BitVec 3 := 0
  /-- [183:168] iteration tag. -/
  tag : BitVec 16 := 0
  deriving DecidableEq, Repr, Inhabited

/-- Register view of an access (R3). -/
inductive View where
  | c  -- security controller
  | o  -- operator
  | t  -- tenant
  deriving DecidableEq, Repr, Inhabited

end Sys2Proof
end

