-- ==== Sys2Proof/Syntax.lean ====
section
/-!
DEFINITION. The commands of the block: one constructor of `Instr` for every row of
spec/opcode_table.json, with the row's operands. Time operands named `off` are offsets in the current
tick in ac (R7); everything the part cannot know by itself (a received frame, a sensor reading, a
random draw of a peer) is an operand.
-/

namespace Sys2Proof

/-- The base address register an access goes through (R324, R326). -/
inductive Bar where
  /-- PF BAR0. -/
  | pf
  /-- The BAR of VFf. -/
  | vf (f : Nat)
  deriving DecidableEq, Repr, Inhabited

/-- How an access reaches a VF BAR (R301). -/
inductive Via where
  | pcie
  | hart (h : Nat)
  deriving DecidableEq, Repr, Inhabited

/-- Who makes a register access, and through which BAR. -/
structure Access where
  view : View := .o
  bar : Bar := .pf
  via : Via := .pcie
  deriving DecidableEq, Repr, Inhabited

/-- Where a command packet comes from (R334, R335): a CMD ring, or a kind 3 frame of the station bus
with its source address. -/
inductive CmdSrc where
  | ring (q : Nat)
  | station (mac : BitVec 48)
  deriving DecidableEq, Repr, Inhabited

/-- The header of a command packet (R331) and the moment the agent takes it. -/
structure CmdHdr where
  src : CmdSrc := .station 0
  opcode : BitVec 16 := 0
  postmark : BitVec 16 := 0
  token : BitVec 64 := 0
  fence : Bool := false
  /-- every reserved bit of the header and every byte outside the listed parameters is zero (R332) -/
  clean : Bool := true
  /-- offset in the current tick at which the agent takes the packet -/
  off : Nat := 0
  deriving DecidableEq, Repr, Inhabited

/-- An Announce message as the best-master selection of R17 reads it. -/
structure Announce where
  domain : Nat := 24
  clockClass : Nat := 6
  accuracy : Nat := 0x21
  variance : Nat := 0
  priority2 : Nat := 128
  localPriority : Nat := 128
  clockId : BitVec 64 := 0
  steps : Nat := 0
  deriving DecidableEq, Repr, Inhabited

/-- A symbol of a carrier: its number, and air(s), the moment at which it begins, in ns (R275). -/
structure AirSymbol where
  n : Nat := 0
  airNs : Nat := 0
  deriving DecidableEq, Repr, Inhabited

/-- The boundary that ends a step: its time in ns, and the draw of each die measured there in mW (R23, R64). -/
structure StepClose where
  ns : Nat := 0
  powerMw : List (Nat × Nat) := []
  deriving DecidableEq, Repr, Inhabited

/-- The commands of the block. -/
inductive Instr where
  -- registers
  | registerWrite (acc : Access) (addr : Nat) (size : Nat) (data : BitVec 64)
  | counterLowWordRead (acc : Access) (addr : Nat)
  -- the slot tick
  | tckCtrlWrite (v : View) (data : BitVec 32)
  | tckPhaseWrite (v : View) (data : BitVec 32)
  | stepEnd (close : StepClose)
  | ptpAnnounce (port sub : Nat) (a : Announce)
  | ptpSync (port sub : Nat) (offsetPs : Int)
  | ptpDelayReq (off : Nat)
  | esmcMessage (port sub : Nat) (ssm : BitVec 4)
  | synceStatusChange (present : Bool)
  | tickBoundary (powerMw : List (Nat × Nat))
  | sliceBoundary (slice : Nat)
  | changeoverEnd (slice : Nat)
  | refreshBeat (pc : Nat) (off : Nat)
  | sigPoll (gapUs : Nat)
  | sigPollGapRead (v : View)
  -- tiles
  | seqWait (die tile : Nat)
  | seqFire (die tile : Nat)
  | seqFireIf (die tile : Nat)
  | seqFold (die tile : Nat)
  | seqLoad (die tile : Nat)
  | seqSelect (die tile : Nat)
  | seqRead (die tile : Nat)
  | rawReadout (die tile : Nat)
  | seqEnd (die tile : Nat)
  | tagFiring (die tile : Nat)
  | exactMerge (die tile : Nat)
  | sfExponential (die tile : Nat)
  | sfLogarithm (die tile : Nat)
  | sfReciprocal (die tile : Nat)
  | sfReciprocalSquareRoot (die tile : Nat)
  | sfSigmoid (die tile : Nat)
  | sfTanh (die tile : Nat)
  | softmaxPass1 (die tile : Nat)
  | softmaxPass2 (die tile : Nat)
  | radix4Butterfly (die tile : Nat)
  | minSumCheckNodeUpdate (die tile : Nat)
  | minSumDemapping (die tile : Nat)
  | memoryTileRead (die tile : Nat)
  | memoryTileWrite (die tile : Nat)
  | coreFiring (die tile : Nat)
  | coreBudgetExpiry (die tile : Nat)
  | coreAlu (die tile : Nat)
  | coreMul (die tile : Nat)
  | coreBranch (die tile : Nat)
  | coreJump (die tile : Nat)
  | coreLoad (die tile : Nat)
  | coreStore (die tile : Nat)
  | rdcycle (die tile : Nat)
  | coreIllegalInstruction (die tile : Nat)
  | sPop (die tile : Nat)
  | sPush (die tile : Nat)
  | sGet (die tile : Nat)
  | sPut (die tile : Nat)
  | sLdw (die tile : Nat)
  | sStw (die tile : Nat)
  | sCtr (die tile : Nat)
  | sTag (die tile : Nat)
  | sSettag (die tile : Nat)
  | sEnd (die tile : Nat)
  -- timetables
  | tickClose (ctx : Nat) (off : Nat)
  | ttbTraceArm (v : View) (part : Nat) (data : BitVec 32)
  | dlbEnWrite (v : View) (ctx : Nat) (data : BitVec 32)
  | hbmSlotRead (ctx desc : Nat)
  | hbmSlotWrite (ctx desc : Nat)
  | requestReady (q : Nat) (off : Nat)
  | entryOffset (ctx : Nat) (off : Nat)
  | exitResult (ctx : Nat) (word : TWord) (off : Nat)
  -- siding and library
  | fillStart (part quad : Nat) (off : Nat)
  | fillComplete (part quad : Nat)
  | scanComplete (part quad : Nat)
  | libInstallDone (entry : Nat)
  -- memory
  | engineAccess (pc : Nat)
  | rekeyStart (pc : Nat)
  | rekeyDone (pc : Nat)
  | pageClearDone (pc page : Nat)
  | epochGrant (hub dom : Nat)
  | hostPoolRead (func : Nat) (ctx : Option Nat) (addr len : Nat)
  | hostPoolWrite (func : Nat) (ctx : Option Nat) (addr : Nat) (bytes : List Byte)
  | stalledWriteResume (pc : Nat)
  -- frames
  | frameSfd (port sub : Nat) (off : Nat)
  | frameHeaderDecision (port sub : Nat) (hdr : List Byte) (off : Nat)
  | requestDescriptorsArrived (port sub : Nat) (body : List Byte) (off : Nat)
  | frameEnd (port sub : Nat) (bytes : List Byte) (off : Nat)
  | verdict (port sub : Nat) (bytes : List Byte) (ended : Bool) (off : Nat)
  | replyHandover (binding hold : Nat) (off : Nat)
  | replySeqGrant (die dom : Nat)
  | txFrame (q : Nat)
  | egressChoice (port sub : Nat) (off : Nat)
  | macLinkChange (port sub : Nat) (up : Bool)
  | macSplitWrite (v : View) (port : Nat) (data : BitVec 32)
  | srtShadowRuleWrite (v : View) (byteOff : Nat) (size : Nat) (data : BitVec 64)
  | egsRingWrite (v : View) (q : Nat) (data : BitVec 64)
  | segRadioWaitRead (v : View) (die : Nat)
  | cipherMessageSubmit (die stream ctx len key : Nat)
  | enginePeriod (die unit : Nat)
  -- station bus
  | stbFrame (bytes : List Byte)
  | stbStatusRequest (src : BitVec 48) (seq : BitVec 16)
  -- radio
  | cplaneSend (carrier : Nat) (symbol : AirSymbol)
  | uplaneSend (carrier : Nat) (symbol : AirSymbol)
  | uplaneReceive (port sub : Nat) (carrier symbol prb : Nat) (iq : List (Int × Int)) (exp : Nat) (timeNs airNs : Nat) (bad : Bool)
  | uplinkDelivery (carrier : Nat) (symbol : AirSymbol)
  | ecpriDelayMeasurement (port sub : Nat) (msg : List Byte) (off : Nat)
  | ldpcDecode (die port : Nat)
  | ldpcEncode (die port : Nat)
  | fecReturn (die port : Nat)
  -- tenancy
  | partCellSWrite (v : View) (byteOff : Nat) (data : Byte)
  | partHartRsvWrite (v : View) (word : Nat) (data : BitVec 32)
  | guestEntry (hart func : Nat)
  | guestExit (hart : Nat) (save : Nat) (regs : List Byte)
  | monitorHartSwitch (hart : Nat)
  | vfQuotaWrite (v : View) (func quota : Nat) (data : BitVec 32)
  | vfTctrlWrite (v : View) (func : Nat) (data : BitVec 32)
  | mbxTSend (func : Nat) (data : BitVec 32)
  | mbxOutAck (v : View) (data : BitVec 32)
  | mbxInPost (v : View) (data : BitVec 32)
  | mbxTInAck (func : Nat) (data : BitVec 32)
  | mbxTNtailWrite (func : Nat) (data : BitVec 32)
  | mbxTimeoutExpiry (func : Nat) (outbound : Bool)
  -- queues and commands
  | queueDoorbell (func slot : Nat) (index : BitVec 32)
  | cmdRingResume (q : Nat)
  | deferredCommandStatus (q : Nat)
  | barrierEntryDeferred (q : Nat)
  | nop (h : CmdHdr)
  | planSwap (h : CmdHdr)
  | radioReserve (h : CmdHdr) (part : Nat) (slices : BitVec 16) (boundary : Nat) (qmask : BitVec 160)
  | partOpen (h : CmdHdr) (part radio func : Nat)
  | partClose (h : CmdHdr) (part : Nat)
  | partReturn (h : CmdHdr) (part : Nat)
  | partIsolate (h : CmdHdr) (part : Nat)
  | ctxCreate (h : CmdHdr) (part slot : Nat) (seed : BitVec 64)
  | ctxRemove (h : CmdHdr) (ctx : Nat)
  | ctxSeed (h : CmdHdr) (ctx : Nat) (seed : BitVec 64)
  | ariSeedWrite (v : View) (data : BitVec 64)
  | ariSeedLowWrite (v : View) (data : BitVec 32)
  | ariSeedHighWrite (v : View) (data : BitVec 32)
  | ariSeedSelWrite (v : View) (data : BitVec 32)
  | ttAdmit (h : CmdHdr) (ctx group run image report imageLen reportLen : Nat)
  | ttWithdraw (h : CmdHdr) (ctx : Nat)
  | ttResume (h : CmdHdr) (ctx : Nat)
  | quotaForce (h : CmdHdr) (func qTick : Nat)
  | sdgFill (h : CmdHdr) (part source quad entry : Nat) (mask : BitVec 64)
  | sdgSwap (h : CmdHdr) (part strict slice boundary : Nat) (qmask : BitVec 160)
  | shuntStart (h : CmdHdr) (part : Nat) (mask : BitVec 16) (qmask : BitVec 160)
  | shuntStop (h : CmdHdr) (part : Nat)
  | libInstall (h : CmdHdr) (part image report imageLen reportLen : Nat)
  | libRemove (h : CmdHdr) (entry : Nat)
  | libtileAssign (h : CmdHdr) (part quad : Nat) (tiles : BitVec 16)
  | libtileRelease (h : CmdHdr) (quad : Nat) (tiles : BitVec 16)
  | scanOut (h : CmdHdr) (part quad dest : Nat)
  | scanDump (h : CmdHdr) (part quad dest : Nat)
  | scanIn (h : CmdHdr) (part quad src len : Nat)
  | pcAssign (h : CmdHdr) (pc owner sealed : Nat)
  | pcFree (h : CmdHdr) (pc : Nat)
  | pageAssign (h : CmdHdr) (pc kind page owner frame : Nat)
  | pageRelease (h : CmdHdr) (pc page : Nat)
  | scrubPass (h : CmdHdr) (spread : Nat) (pcmask : BitVec 256)
  | regionRekey (h : CmdHdr) (pc page : Nat)
  | srtSwap (h : CmdHdr)
  | bind (h : CmdHdr) (entryQ replyRing bulkQ recallQ tenant model fOut bulkEn descN descAddr : Nat)
  | unbind (h : CmdHdr) (entryQ : Nat)
  | macsecSak (h : CmdHdr) (port sub chan an suite src : Nat)
  | queAssign (h : CmdHdr) (q func kind log2 vec dbslot peer base : Nat)
  | queRelease (h : CmdHdr) (q : Nat)
  | queEnable (h : CmdHdr) (q : Nat)
  | queDisable (h : CmdHdr) (q : Nat)
  | carrierCfg (h : CmdHdr) (carrier addr boundary : Nat)
  | carrierRemove (h : CmdHdr) (carrier boundary : Nat)
  | vfAssign (h : CmdHdr) (func tenant : Nat)
  | vfRelease (h : CmdHdr) (func : Nat)
  | keyInstall (h : CmdHdr) (slot addr : Nat)
  | attest (h : CmdHdr) (part dest : Nat) (nonce : BitVec 256)
  | certGet (h : CmdHdr) (which dest : Nat)
  | ctxReset (h : CmdHdr) (ctx : Nat)
  | ctxResetDone (ctx : Nat)
  | partReset (h : CmdHdr) (part : Nat)
  | partResetCollectEnd (part : Nat)
  | partResetDone (part : Nat)
  | resetOvertime (part : Nat)
  | deviceReset (h : CmdHdr)
  | levelDrop (h : CmdHdr) (level : Nat)
  | hbmRetrain (h : CmdHdr) (pc : Nat)
  | hbmCopyDone (pc : Nat)
  | hbmRetrainDone (pc : Nat) (pass : Bool)
  | smUpdate (h : CmdHdr) (image len : Nat)
  | scUpdate (h : CmdHdr) (image len : Nat)
  | serdesRecal (h : CmdHdr) (port : Nat)
  | serdesRecalDone (port : Nat) (linkDown : Bool)
  | dieRetire (h : CmdHdr) (die : Nat)
  | admitRebuild (h : CmdHdr)
  | fabricIdSet (h : CmdHdr) (id : Nat)
  | routeSwap (h : CmdHdr)
  | resetPinMask (h : CmdHdr) (mask : Nat)
  -- trunk
  | trkPortCtrlWrite (v : View) (port : Nat) (data : BitVec 32)
  | trkPortSkewRead (v : View) (port : Nat)
  | trunkTrainingDone (port : Nat) (cause : Nat)
  | trunkIdentify (port : Nat) (peerId peerPort peerLatFix : Nat)
  | trunkAgree (port : Nat) (peerEphemeral : Nat × Nat) (peerGenuine : Bool)
  | trunkMeasure (port : Nat) (roundTrip : Nat)
  | trunkRetry (port : Nat)
  | trunkLinkDown (port : Nat) (cause : Nat)
  | trunkCellSend (port slot : Nat)
  | trunkCellReceive (port : Nat) (cell : BitVec 800) (arrival : Nat) (uncorrectable : Bool)
  | vc0Delivery (port slot : Nat)
  | keyRatchet (port : Nat) (rx : Bool)
  | messageForward (port : Nat)
  | brakeReceived (port : Nat) (job : BitVec 64) (pass cause member : Nat) (off : Nat)
  | readyReceived (job : BitVec 64) (member chips period : Nat) (phase : BitVec 32) (run : Nat)
  | goReceived (job : BitVec 64) (ts : Nat) (off : Nat)
  | barrierTimeout (ctx : Nat)
  -- faults and resets
  | hostTimeout (func addr len : Nat)
  | functionLevelReset (func : Nat)
  | fltEscWrite (v : View) (which : Nat) (data : BitVec 32)
  -- power, boot, pins
  | railPowerGood (group : Nat)
  | railPgTimeout (group : Nat)
  | bootTrain (hbmOk : Bool)
  | bootRestore (storeOk : Bool)
  | bootDone (bootMs : Nat)
  | thermalAlarm (unit : Nat) (temp : Int)
  | thermalAlarmClear (temps : List (Nat × Int))
  | thermalHot (unit : Nat) (temp : Int)
  | thermalTrip (unit : Nat) (temp : Int)
  | vfEnableSet (numVfs : Nat)
  | stationManagerEnrolment (mac : BitVec 48)
  | powerGoodDeassert (group : Nat)
  | escalationWindowExpiry (kind part : Nat)
  | stbTransmitOpportunity (collides : Bool)
  -- the commands of those groups that have no operand
  | lockTimerExpiry
  | lostTimerExpiry
  | announceReceiptTimeout
  | servoUpdateTimeout
  | holdoverExpiry
  | memScrubDue
  | scrubDone
  | srtCopyDone
  | stbCollision
  | stbBackoffExpiry
  | plcaLost
  | resetHeldNotice
  | smMirrorDone
  | smUpdateDone
  | scUpdateDone
  | routeDrainEnd
  | heartbeatWatchdog
  | mgmtWatchdog
  | scWatchdog
  | quarantineReplay
  | vfEnableClear
  | perstNAssert
  | powerOn
  | bootScRom
  | bootScFw
  | bootMgmt
  | powerOff
  | pwrOkFall
  | resetNAssert
  | resetNRelease
  | resetNHeld
  | scHeartbeat
  | sigClkLoss
  | sigClkReturn
  | plcaBeacon
  deriving DecidableEq, Repr

end Sys2Proof
end

