-- ==== Sys2Proof/Decode.lean ====
section
/-!
DEFINITION. Words to commands. No row of spec/opcode_table.json gives bits: a command is an access, an
event or a packet, not an encoded word. Command packets (R331) are operands of their rows.
-/

namespace Sys2Proof

/-- The command that a word spells by the table's bits: the table gives no row any bits. Log 232, DEDUCED. -/
def decodeTableWord (_nbits _w : Nat) : Option Instr := none

end Sys2Proof
end

