-- ==== Sys2Proof/Config.lean ====
section
/-!
DEFINITION. What an implementation fixes and the spec does not state: the free values. None has a body
that a proof could unfold, so every claim holds whatever they are. `n` is always the counter
`State.fresh`, which advances with each use.
-/

namespace Sys2Proof.Config

/-- A key, key pair or random draw that the security controller makes inside itself (R199, R212, R297, R299):
its bytes, by the number of the draw. Log 65, DESIGN CHOICE. -/
opaque keyBytes (n len : Nat) : List Byte

/-- The random backoff of the station bus in slot times, before its bound is applied (R243). Log 181, DESIGN
CHOICE. -/
opaque backoffDraw (n : Nat) : Nat

/-- The filtered time error in ps that the servo's filter forms from a new offset (R435 leaves the filter open),
by the old filtered value and the new offset. Log 74, DESIGN CHOICE. -/
opaque servoFilter (old new : Int) : Int

/-- The part of a BF16 or FP32 special-function result that R129 leaves open within its bound: a signed number
of units of the stated grid. Log 199, DEDUCED. -/
opaque sfError (code : Nat) (arg : Nat) : Int

/-- What a word's SECDED check bits show where it crosses a die boundary (R49): no error, a single-bit error
(some false), or an uncorrectable one (some true). Log 197, DESIGN CHOICE. -/
opaque crossingError (n : Nat) : Option Bool

/-- The twiddle that multiplies sample i of the j-th word of a butterfly's entry, real and imaginary part in Q1.15:
R88 puts them in the table and states no layout; by the table's bytes. Log 198, DESIGN CHOICE. -/
opaque twiddle (table : List Byte) (j i : Nat) : Int × Int

/-- Input interval class of a demapping descriptor (R88): 0 up to 64QAM, 1 at 256QAM, 2 at 1024QAM. Where a
descriptor names its constellation is not stated; by the descriptor's bytes. Log 198, DESIGN CHOICE. -/
opaque demapClass (desc : List Byte) : Nat

/-- The certificates of R312, by which one is asked for. Log 65, DESIGN CHOICE. -/
opaque certificate (which : Nat) : List Byte

/-- A P-384 point or scalar result used by key agreement and signing (R298, R312, R313, R348). Log 65, DESIGN
CHOICE. -/
opaque sharedSecret (domainKey peer : Nat) : List Byte
/-- Log 65, DESIGN CHOICE. -/
opaque signature (key : Nat) (digest : List Byte) : List Byte
/-- Log 65, DESIGN CHOICE. -/
opaque publicKey (key : Nat) : List Byte

/-- A directional link key of a trunk port: HKDF over the agreed secret, whose salt and info R348 does not
state. Log 65, DESIGN CHOICE. Log 183, DESIGN CHOICE. -/
opaque linkKey (secret : List Byte) (dir : Nat) : List Byte

/-- The hub-switch port number of input (dir 0) or output (dir 1) register j of a trunk port; R350 names the
registers and states no number. Log 183, DESIGN CHOICE. -/
opaque trunkRegister (port j dir : Nat) : Nat

/-- What MACsec leaves to key agreement or to the SecY's own settings and R242 gives no register or parameter
for: the 12-byte nonce under an XPN suite by key, secure channel and packet number; the secure channel of a
frame that carries none, and of the part's own; the confidentiality offset of a subport (0, 1 or 2 for 0, 30 or
50 bytes); the receive channel to which a secure channel identifier belongs; and the subport's replay window. Log 145,
DESIGN CHOICE. -/
opaque xpnNonce (key : List Byte) (sci : Nat) (pn : Nat) : List Byte
/-- Log 145, DESIGN CHOICE. -/
opaque impliedSci (port sub : Nat) : BitVec 64
/-- Log 145, DESIGN CHOICE. -/
opaque ownSci (port sub : Nat) : BitVec 64
/-- Log 145, DESIGN CHOICE. -/
opaque confOffset (port sub : Nat) : Nat
/-- Log 145, DESIGN CHOICE. -/
opaque sciChannel (port sub : Nat) (sci : Nat) : Nat
/-- Log 145, DESIGN CHOICE. -/
opaque replayWindow (port sub : Nat) : Nat

/-- What the wire does to a subport while a frame arrives: PCS block errors, corrected and uncorrected codewords
(R249). Log 148, DESIGN CHOICE. -/
opaque lineErrors (n : Nat) : Nat × Nat × Nat

/-- Codewords that the trunk's FEC corrected since the cell before (R366 FEC_CORR). Log 255, DESIGN CHOICE. -/
opaque trunkCorrected (n : Nat) : Nat

/-- Hub-switch port numbers of FEC port p of network die d (dir 0 submit, 1 return): R278 names them and gives no
number, and R434 gives the report no key for them. Log 173, DESIGN CHOICE. -/
opaque fecPort (die port dir : Nat) : Nat

/-- Which of a partition's radio timetables on the hub die serves a carrier (dir 0 uplink, 1 downlink), and which of
its entries a symbol is: the report's offsets are those of its entries and exits, and nothing names carriers or
symbols in it. Log 173, DESIGN CHOICE. -/
opaque carrierPlace (carrier dir : Nat) : Nat
/-- Log 173, DESIGN CHOICE. -/
opaque symbolEntry (carrier symbol : Nat) : Nat

/-- The MAC address from which a subport sends the part's own messages; the spec gives none. -/
opaque portMac (port sub : Nat) : BitVec 48

/-- What the O-RAN specification, and not R273, fixes in a fronthaul message: the timing and section fields by
carrier, symbol, stream and number of the message; the section type of a C-plane message, as an index into 0, 1 and
3; and the beamforming weights of a category B symbol. Log 174, PRESUMED. -/
opaque sectionHeader (carrier symbol stream n : Nat) : List Byte
/-- Log 174, PRESUMED. -/
opaque sectionType (carrier symbol : Nat) : Nat
/-- Log 174, PRESUMED. -/
opaque beamWeights (carrier symbol : Nat) : List Byte

/-- The LDPC base graph entry: the shift of block row i and column j for base graph b and lifting size z, or
none (3GPP TS 38.212, which R279 cites and does not reproduce). Log 171, DESIGN CHOICE. -/
opaque ldpcShift (bg z i j : Nat) : Option Nat

/-- The entry, exit and tick-close queues that an image's queue bindings name. R152 places the bindings at the
end of the image and states no layout; by the bytes after the descriptors. Log 104, DESIGN CHOICE. -/
opaque queueBindings (tail : List Byte) : Option Nat × Option Nat × Option Nat

/-- What a firmware image holds, whose layout R403 does not give: its version, whether its signature verifies
under the fused Terelavo key, and its own bytes within what a command carries; by image, 0 SC firmware, 1
Stationmaster, 2 host monitor. Log 219, DEDUCED. -/
opaque imageVersion (which : Nat) (bytes : List Byte) : BitVec 32
/-- Log 219, DEDUCED. -/
opaque imageSigned (which : Nat) (bytes : List Byte) : Bool
/-- Log 219, DEDUCED. -/
opaque imagePart (which : Nat) (bytes : List Byte) : List Byte

/-- The FEC load of radio work (R282, R289), which no report and no carrier block lists: the sum of K in bits per tick
that an admitted timetable, named by digest, brings to a network die in decode or encode jobs; the most jobs that a
set of timetables makes waiting there in 128 consecutive ac; and the load of a carrier by numerology, PRBs, downlink
and uplink layers. Log 108, DEDUCED. Log 229, DESIGN CHOICE. -/
opaque fecLoad (die : Nat) (encode : Bool) (digest : List Byte) : BitVec 32
/-- Log 108, DEDUCED. Log 229, DESIGN CHOICE. -/
opaque fecPeak (die : Nat) (digests : List (List Byte)) : Nat
/-- Log 178, DEDUCED. Log 229, DESIGN CHOICE. -/
opaque carrierLoad (encode : Bool) (mu nPrb dlLayers ulLayers : Nat) : Nat

/-- A result, or a choice of layout, that the spec does not state for some operands: by the operands alone (R132).
`which` numbers the places. Log 198, DESIGN CHOICE. -/
opaque unstated (which : Nat) (args : List Nat) (w : Nat) : BitVec w

/-- A value the spec says nothing of, of the given number of bits. Log 11, DESIGN CHOICE. -/
opaque freeBits (n w : Nat) : BitVec w

end Sys2Proof.Config
end

