-- ==== Sys2Proof/Machine/State.lean ====
section
/-!
DEFINITION. The state of the part as plain data, its value right after power-on reset, and the closed
types of faults and refusals. Every large array of the part is a `Table` (Word.lean): a key that is
not listed holds its reset value, which is the all-default record unless a docstring says otherwise.
-/

namespace Sys2Proof.Machine

/-! ## The slot tick (01_tick.md) -/

/-- States of the tick generator (R21). -/
inductive TickState where
  | freeRun | acquiring | locked | holdover | expired | stepping
  deriving DecidableEq, Repr, Inhabited

/-- Degraded level (R388, R389). -/
inductive Level where
  | full | radioOnly | beacon
  deriving DecidableEq, Repr, Inhabited

/-- The tick generator and its servo (R16–R23, R435). -/
structure TickGen where
  /-- TCK_STATUS.STATE -/
  state : TickState := .freeRun
  /-- a change of state that takes effect at the next boundary (R32) -/
  next : Option TickState := none
  /-- TCK_STATUS.PTP_OK -/
  ptpOk : Bool := false
  /-- TCK_STATUS.SYNCE_OK -/
  synceOk : Bool := false
  /-- TCK_STATUS.SYNCE_QL -/
  synceQl : BitVec 4 := 0
  /-- TCK_COUNT -/
  count : BitVec 64 := 0
  /-- offset in ac, within the current tick, of the latest event that names one -/
  off : Nat := 0
  /-- index of the slice in progress -/
  slice : Nat := 0
  /-- PTP time in ns of the boundary that opened the current tick (R18) -/
  boundaryNs : Nat := 0
  /-- the period in ns with which the current tick opened: the least it lasts (R23) -/
  openNs : Nat := 500000
  /-- filtered time error in ps (TCK_TE) -/
  te : Int := 0
  /-- the ac is being lengthened or shortened at the slew limit: direction (R435) -/
  slew : Int := 0
  /-- time spent in the current Holdover, in ns (TCK_HOLD_ELAPSED) -/
  holdNs : Nat := 0
  /-- the masters heard on the selected subport (R17) -/
  masters : List Announce := []
  /-- the master that best-master selection chose -/
  selected : Option Announce := none
  deriving DecidableEq, Repr, Inhabited

/-- The signal-bus responder (R37–R39, R43). -/
structure SigBus where
  /-- the answer register -/
  answer : BitVec 4 := 0
  /-- SIG_CLK seen within the last 1 µs -/
  clkPresent : Bool := false
  deriving DecidableEq, Repr, Inhabited

/-! ## Reports and configuration sets (05_timetables.md, 03_tiles.md) -/

/-- One tile slot of a report's TILES (R434). -/
structure TileUse where
  die : Nat := 0
  tile : Nat := 0
  slot : Nat := 0
  pers : Nat := 0
  firing : Nat := 0
  others : List Nat := []
  deriving DecidableEq, Repr, Inhabited

/-- One executed sequencer entry of a report's SCHEDULE (R434). -/
structure SchedStep where
  ac : Nat := 0
  len : Nat := 0
  entry : Nat := 0
  action : Nat := 0
  arg : Nat := 0
  deriving DecidableEq, Repr, Inhabited

/-- The schedule of one tile slot. -/
structure SlotSched where
  die : Nat := 0
  tile : Nat := 0
  slot : Nat := 0
  steps : List SchedStep := []
  deriving DecidableEq, Repr, Inhabited

/-- An end of a crossing: die (DIE_PWR numbering), tile index or hub-switch port, link. -/
structure PortRef where
  die : Nat := 0
  unit : Nat := 0
  link : Nat := 0
  deriving DecidableEq, Repr, Inhabited

/-- One crossing of a report (R48, R434). -/
structure Crossing where
  ac : Nat := 0
  kind : Nat := 1
  snd : PortRef := {}
  rcv : PortRef := {}
  lat : Nat := 0
  deriving DecidableEq, Repr, Inhabited

/-- A tag schedule entry: slot and (tag, completion ac, firing ac). -/
structure TagSched where
  die : Nat := 0
  tile : Nat := 0
  slot : Nat := 0
  tags : List (Nat × Nat × Nat) := []
  deriving DecidableEq, Repr, Inhabited

/-- One trunk word of a report (R143, R434). -/
structure TrunkWordUse where
  port : Nat := 0
  slot : Nat := 0
  word : Nat := 0
  earliest : Nat := 0
  latest : Nat := 0
  peer : Nat := 0
  latFix : Nat := 0
  deriving DecidableEq, Repr, Inhabited

/-- An HBM stream descriptor (R147) with the hub die that holds it. -/
structure HbmDesc where
  hub : Nat := 0
  valid : Bool := false
  write : Bool := false
  pc : Nat := 0
  firstSlot : Nat := 0
  slotStride : Nat := 1
  count : Nat := 0
  lineBase : Nat := 0
  lstride0 : Int := 0
  lcount0 : Nat := 1
  lstride1 : Int := 0
  queue : BitVec 3 := 0
  kind : BitVec 4 := 0
  tagBase : BitVec 16 := 0
  tagStep : BitVec 16 := 0
  port : Nat := 0
  deriving DecidableEq, Repr, Inhabited

/-- Entry or exit port use of a report. -/
structure PortUse where
  hub : Nat := 0
  port : Nat := 0
  e0 : Nat := 0
  ii : Nat := 1
  f : Nat := 0
  d : Nat := 0
  /-- (FIELD_ID, FORMAT, WORDS) -/
  fields : List (Nat × Nat × Nat) := []
  /-- EXIT only: offset of each result word after the entry's first word -/
  offsets : List Nat := []
  deriving DecidableEq, Repr, Inhabited

/-- A timetable report (R151, R434). -/
structure Report where
  kreal : Nat := 0
  digest : List Byte := []
  model : List Byte := []
  radio : Bool := false
  standing : Bool := false
  exactRed : Bool := false
  stateless : Bool := false
  period : Nat := 0
  mapDigest : List Byte := []
  arithId : Nat := 0
  chips : Nat := 1
  member : Nat := 0
  cells : List (Nat × List (Nat × Nat)) := []
  tiles : List TileUse := []
  schedule : List SlotSched := []
  schedTotal : Nat := 0
  /-- (die, tile, slot, counter, maximum) -/
  maxTrips : List (List Nat) := []
  crossings : List Crossing := []
  tagSched : List TagSched := []
  jobId : BitVec 64 := 0
  members : List Nat := []
  brakeLead : Nat := 0
  trunkWords : List TrunkWordUse := []
  descs : List HbmDesc := []
  slotUse : List (Nat × Nat) := []
  entry : PortUse := {}
  exit : PortUse := {}
  fill : List TWord := []
  closeAc : Nat := 0
  activity : List (Nat × Nat × Nat) := []
  deriving DecidableEq, Repr, Inhabited

/-- A tick-close record (R158). -/
structure CloseRec where
  type : Nat := 0
  last : Bool := false
  closeMismatch : Bool := false
  schedMismatch : Bool := false
  faulted : Bool := false
  postmark : BitVec 16 := 0
  ctx : Nat := 0
  radio : Bool := false
  standing : Bool := false
  exactRed : Bool := false
  tick : BitVec 64 := 0
  closeAc : Nat := 0
  flags : BitVec 8 := 0
  schedCount : Nat := 0
  reqIn : Nat := 0
  reqHeld : Nat := 0
  idle : Nat := 0
  hbmRd : Nat := 0
  hbmWr : Nat := 0
  faults : Nat := 0
  digest8 : BitVec 64 := 0
  deriving DecidableEq, Repr, Inhabited

/-- State of a timetable as TTB_CTX_STATE reports it (R163). -/
inductive TtState where
  | none | staged | running | suspended | faulted | withdrawing
  deriving DecidableEq, Repr, Inhabited

/-- State of a job that spans several chips (TRK_JOB, R365). -/
inductive JobState where
  | none | waiting | running | braked
  deriving DecidableEq, Repr, Inhabited

/-- The job of a multi-chip timetable on this member (R360–R363). -/
structure Job where
  state : JobState := .none
  brakeLate : Bool := false
  cause : Nat := 0
  /-- passes counted from 0 at the first pass -/
  pass : Nat := 0
  stopPass : Option Nat := none
  /-- the stop pass has come: the barrier is written -/
  stopped : Bool := false
  /-- READY cells held by member 0: (member, chips, period, phase, run) -/
  ready : List (Nat × Nat × Nat × BitVec 32 × Nat) := []
  readySent : Bool := false
  /-- PTP time of pass 0 once GO is known -/
  startNs : Option Nat := none
  deriving DecidableEq, Repr, Inhabited

/-- A result word of a pass held until the pass may be published (R157, R376). -/
structure HeldExit where
  q : Nat := 0
  word : TWord := {}
  postmark : BitVec 16 := 0
  pass : Nat := 0
  /-- offset of the entry whose result it is -/
  entry : Nat := 0
  deriving DecidableEq, Repr, Inhabited

/-- An entry in the pipeline of a timetable: its offset, and whose results follow. -/
structure Flight where
  off : Nat := 0
  idle : Bool := false
  hold : Option (Nat × Nat) := none
  postmark : BitVec 16 := 0
  /-- result words still to come -/
  left : Nat := 0
  deriving DecidableEq, Repr, Inhabited

/-- The admitted timetable of a context (R136–R164) with the counters of the pass in progress. -/
structure Timetable where
  state : TtState := .none
  report : Report := {}
  image : List Byte := []
  /-- order of admission, for R309 and R389 -/
  seq : Nat := 0
  /-- ticks of run length left; none without limit -/
  run : Option Nat := none
  group : Nat := 0
  member : Nat := 0
  dlbEn : Bool := false
  dlbDenied : Bool := false
  dlbActive : Bool := false
  entryQ : Option Nat := none
  exitQ : Option Nat := none
  closeQ : Option Nat := none
  /-- ran in the current tick -/
  ran : Bool := false
  /-- posted its tick-close in the current tick -/
  closed : Bool := false
  /-- suspended by a forced cut (VF_CUT.SUSPENDED) -/
  cut : Bool := false
  schedCount : Nat := 0
  reqIn : Nat := 0
  reqHeld : Nat := 0
  idle : Nat := 0
  hbmRd : Nat := 0
  hbmWr : Nat := 0
  faults : Nat := 0
  flags : BitVec 8 := 0
  /-- lines moved so far in this pass by each descriptor of the report, by index -/
  lines : Table Nat := []
  /-- first fault of the pass, when one occurred: the barrier of R376 -/
  barrierTick : Option (BitVec 64) := none
  /-- entries of the pass, and those of them with an exit -/
  entered : Nat := 0
  exited : Nat := 0
  /-- tile, slot and last ac of the slots that had ended when their quadrant changed over in this pass (R157) -/
  doneSlots : List (Nat × Nat × Nat) := []
  flight : List Flight := []
  /-- offset of the latest entry of the pass -/
  lastEntry : Option Nat := none
  /-- words that entered in this pass, by entry offset, and those of the overrun pass held for a quarantine
  replay (R373) -/
  entries : Table (List TWord) := []
  replay : Table (List TWord) := []
  last : CloseRec := {}
  /-- records and exit entries of a multi-chip job held until pass k + 2 -/
  heldExits : List HeldExit := []
  heldRecs : List (Nat × CloseRec) := []
  job : Job := {}
  deriving DecidableEq, Repr, Inhabited

/-! ## Tiles (03_tiles.md, 04_arithmetic.md) -/

/-- Configuration sets of one owner in one tile (R73): image bytes, unlisted bytes zero. -/
structure TileSet where
  part : Nat := 0
  /-- which pair of the tile's four sets this is, and which of the pair is the Mainline (R101) -/
  bank : Nat := 0
  flip : Bool := false
  main : Table Byte := []
  side : Table Byte := []
  deriving DecidableEq, Repr, Inhabited

/-- An input of a multiplier slot on its way into the accumulators (R85, R112, R123, R127). -/
structure PipeItem where
  /-- offset of the ac in which it enters -/
  due : Nat := 0
  /-- an exact partial of a merge, and not an input word -/
  merge : Bool := false
  /-- clears the accumulators first (R86) -/
  clr : Bool := false
  payload : BitVec 160 := 0
  /-- second word of a partial -/
  payload2 : BitVec 160 := 0
  /-- accumulator of a partial -/
  acc : Nat := 0
  /-- activation scale code -/
  ascale : Nat := 127
  /-- weight block, four columns of 20 bytes, then four scale codes -/
  block : List Byte := []
  /-- running maximum and sum of a softmax pass 1, which land in column accumulators 0 and 1 (R88) -/
  soft : Option (BitVec 32 × BitVec 32) := none
  deriving DecidableEq, Repr, Inhabited

/-- Dynamic state of one fold slot (R75, R98, R110, R116, R119). -/
structure SlotDyn where
  pos : Nat := 0
  started : Bool := false
  halted : Bool := false
  ctrs : List (BitVec 16) := [0, 0, 0, 0]
  expect : BitVec 16 := 0
  accs : List (BitVec 64) := [0, 0, 0, 0]
  /-- sticky flags: [0] INVALID [1] OVERFLOW [2] SATURATE [3] RANGE -/
  flags : BitVec 4 := 0
  /-- MERGE_MISMATCH raised in the pass (R120 bit 4) -/
  mergeMismatch : Bool := false
  /-- input words popped since the last CLR or restart (R110, R127) -/
  popped : Nat := 0
  /-- roundings performed in this tick, by SR_STREAM and lane or column (R116) -/
  rounds : Table Nat := []
  /-- first half of a partial waiting for its second word (R127) -/
  half : Option (BitVec 160) := none
  /-- tag of the latest firing (R83, R126) -/
  tag : BitVec 16 := 0
  /-- inputs on their way into the accumulators, in order -/
  pipe : List PipeItem := []
  /-- acs of the entry in force that have run -/
  ran : Nat := 0
  /-- inputs that the entry in force has taken -/
  taken : Nat := 0
  /-- bit 0 of the token of the SELECT entry in force (R81) -/
  sel : Option Bool := none
  /-- firings of the slot in this pass, for R34 -/
  firings : Nat := 0
  /-- ac in which the sequencer reached its END entry, and the last ac in which its pipelines act (R157) -/
  endAt : Nat := 0
  lastDue : Nat := 0
  deriving DecidableEq, Repr, Inhabited

/-- An exact-sum accumulator (R121): the 320-bit integer and its five flags. -/
structure ExactAcc where
  a : BitVec 320 := 0
  range : Bool := false
  nan : Bool := false
  pinf : Bool := false
  ninf : Bool := false
  mismatch : Bool := false
  deriving DecidableEq, Repr, Inhabited

/-- A core context (R91, R98): x1–x15, program counter, word buffers and the firing in progress. -/
structure CoreCtx where
  regs : List (BitVec 32) := [0, 0, 0, 0, 0, 0, 0, 0, 0, 0, 0, 0, 0, 0, 0]
  pc : Nat := 0
  wb : List TWord := [{}, {}, {}, {}]
  /-- ac left in the firing in progress; 0 when none runs -/
  left : Nat := 0
  /-- ac spent in the firing -/
  spent : Nat := 0
  /-- s.end has executed -/
  ended : Bool := false
  /-- a firing is in progress -/
  running : Bool := false
  /-- ac left of the instruction in progress -/
  busy : Nat := 0
  deriving DecidableEq, Repr, Inhabited

/-- Position of a memory-tile stream (R93, R99). -/
structure StreamPos where
  inner : Nat := 0
  outer : Nat := 0
  started : Bool := false
  addr : Int := 0
  deriving DecidableEq, Repr, Inhabited

/-- A word on its way into an output: the ac in which it is written, and the slot that started it (R78). -/
structure OutWord where
  due : Nat := 0
  ix : Nat := 0
  word : TWord := {}
  deriving DecidableEq, Repr, Inhabited

/-- The dynamic state of one tile (R69–R99). -/
structure Tile where
  sets : List TileSet := []
  /-- offset in the tick of the next ac this tile acts in -/
  ac : Nat := 0
  active : Nat := 0
  /-- words on their way into input registers N 0, E 1, S 2, W 3, Y 4, each with its arrival ac -/
  inq : Table (List (Nat × TWord)) := []
  /-- input queues 0–7; in a memory tile the write queues WR0 and WR1 -/
  queues : Table (List TWord) := []
  /-- local store or memory-tile array -/
  ls : Table Byte := []
  slots : Table SlotDyn := []
  /-- slot and descriptor of the block in the weight register, and its bytes -/
  weight : Option (Nat × Nat) := none
  weightBytes : List Byte := []
  exact : Table ExactAcc := []
  /-- words on their way into the local output (RD0 in a memory tile) -/
  outs : List OutWord := []
  /-- words on their way into the output of RD1 -/
  outs1 : List OutWord := []
  /-- ac from which the multiplier, and the special-function unit, accept the next input (R85, R88) -/
  mulReady : Nat := 0
  sfReady : Nat := 0
  /-- memory-tile writes on their way: ac of landing, port, address, bytes (R92) -/
  landing : List (Nat × Nat × Nat × List Byte) := []
  streams : Table StreamPos := []
  /-- tag-match buffer: tag and mask of queues holding it -/
  tags : List (BitVec 16 × BitVec 8) := []
  /-- core contexts by fold slot -/
  cores : Table CoreCtx := []
  /-- contexts faulted in this tick, and 2,048 + p for a memory or edge tile of partition p (R96) -/
  faulted : List Nat := []
  /-- TIL_FAULT of the most recent faulting tick -/
  fault : BitVec 64 := 0
  /-- a scan uses the tile -/
  scanning : Bool := false
  deriving DecidableEq, Repr, Inhabited

/-! ## Mainline and Siding (06_mainline_siding.md) -/

/-- Siding states (R166). -/
inductive SidingState where
  | none | stale | filling | ready | armed | failed | shunting | scanning
  deriving DecidableEq, Repr, Inhabited

/-- A fill accepted and not yet complete (R167–R173). -/
structure Fill where
  part : Nat := 0
  quad : Nat := 0
  source : Nat := 0
  entry : Nat := 0
  mask : BitVec 64 := 0
  running : Bool := false
  /-- (tick, offset) at which the fill reaches READY -/
  readyTick : Nat := 0
  readyOff : Nat := 0
  /-- contexts staged by a HOST fill -/
  ctxs : List Nat := []
  seq : Nat := 0
  deriving DecidableEq, Repr, Inhabited

/-- An armed swap group of a partition (R174, R175). -/
structure SwapGroup where
  /-- tick whose opening boundary, or in which the slice boundary, exchanges the sets -/
  tick : Nat := 0
  slice : Nat := 0
  strict : Bool := false
  qmask : BitVec 160 := 0
  /-- contexts whose timetables the incoming set adds -/
  adds : List Nat := []
  /-- armed by TT_ADMIT (R173) -/
  staging : Bool := false
  /-- carried forward since a Siding was not READY, and counted (R175) -/
  deferred : Bool := false
  deriving DecidableEq, Repr, Inhabited

/-- Swap, shunting and scan state of a partition (R174–R190). -/
structure PartSdg where
  groups : List SwapGroup := []
  shunt : BitVec 16 := 0
  shuntOn : Bool := false
  shuntQ : BitVec 160 := 0
  scanSeq : Nat := 0
  /-- by quadrant: number of the library entry that filled the Siding, plus 1 -/
  lib : Table Nat := []
  /-- quadrants whose state a dump scan may still collect (R33, R183) -/
  dumpable : List Nat := []
  deriving DecidableEq, Repr, Inhabited

/-- A library entry (R180). -/
structure LibEntry where
  used : Bool := false
  part : Nat := 0
  report : Report := {}
  /-- quadrant parts: quadrant, tile mask, set bytes -/
  parts : List (Nat × BitVec 64 × List Byte) := []
  image : List Byte := []
  tileRes : Bool := false
  /-- library tiles over which each quadrant part is striped, while the entry has tile residence (R167, R182) -/
  lies : List (Nat × List Nat) := []
  /-- home-copy lines still to be written; the entry is installed when none are left -/
  writing : Bool := false
  home : List (Nat × Nat) := []
  token : BitVec 64 := 0
  src : CmdSrc := .station 0
  index : Nat := 0
  deriving DecidableEq, Repr, Inhabited

/-- Library tiles of a quadrant (R182, SDG_LIBTILE). -/
structure LibTiles where
  tiles : BitVec 12 := 0
  part : Nat := 0
  deriving DecidableEq, Repr, Inhabited

/-- A scan in progress (R183–R188). -/
structure Scan where
  part : Nat := 0
  quad : Nat := 0
  isIn : Bool := false
  /-- bundle KIND: 1 scan-out, 2 dump scan -/
  kind : Nat := 1
  addr : Nat := 0
  len : Nat := 0
  bundleId : Nat := 0
  seq : Nat := 0
  startTick : BitVec 64 := 0
  /-- a scan-in's checked plaintext, and the hole mask of the quadrant it came from -/
  plain : List Byte := []
  hole : Nat := 0
  /-- state of the Siding before the scan, to which a scan-out returns it -/
  before : SidingState := .none
  deriving DecidableEq, Repr, Inhabited

/-! ## Memory (07_memory_sealing.md) -/

/-- Owner kinds of a pseudo-channel (R216). -/
inductive PcOwner where
  | free | partition | hostPool | spare
  deriving DecidableEq, Repr, Inhabited

/-- A position of a stack (R191–R195, R216). -/
structure Pc where
  owner : PcOwner := .free
  part : Nat := 0
  sealed : Bool := false
  freeing : Bool := false
  retraining : Bool := false
  failed : Bool := false
  /-- physical pseudo-channel serving the position, as an offset from its own number modulo 32 -/
  physDelta : Nat := 0
  /-- line copied so far by an HBM retrain (R414) -/
  copy : Option Nat := none
  /-- the copy is complete and the spare takes the position at the next boundary -/
  switching : Bool := false
  deriving DecidableEq, Repr, Inhabited

/-- Page states (R196). -/
inductive PageKind where
  | free | context | shared | function | clearing
  deriving DecidableEq, Repr, Inhabited

/-- A page and its region (R196–R204). -/
structure Page where
  kind : PageKind := .free
  owner : Nat := 0
  /-- its context has been removed: nobody reads or writes the page until it is released (R214) -/
  orphan : Bool := false
  domain : Nat := 0
  blank : Bool := true
  frame : Option Nat := none
  epoch : Nat := 0
  gen : Bool := false
  /-- greatest COUNTER sealed in the region's epoch -/
  hi : Nat := 0
  rekeyWaiting : Bool := false
  rekeying : Bool := false
  rekeyEpoch : Nat := 0
  /-- generation of the key that the rekey seals under -/
  rekeyGen : Bool := false
  rekeyHi : Nat := 0
  rekeyPtr : Nat := 0
  /-- tick in which the rekey started -/
  rekeyTick : Nat := 0
  /-- line the clear has reached while Clearing -/
  clearPtr : Nat := 0
  clearStarted : Bool := false
  /-- state the page takes when an assignment clear ends -/
  next : PageKind := .free
  nextOwner : Nat := 0
  nextFrame : Option Nat := none
  /-- the PAGE_ASSIGN whose status waits -/
  waiting : Option (CmdSrc × BitVec 64 × BitVec 16) := none
  /-- a REGION_REKEY activity holds the region -/
  act : Bool := false
  deriving DecidableEq, Repr, Inhabited

/-- Metadata of a line (R201), and what on-die ECC has found of it. A line that is not listed stands as its clear left
it. -/
structure Line where
  counter : Nat := 0
  /-- TAG as stored; none: as the engine sealed the line under COUNTER 0 -/
  tag : Option (BitVec 40) := none
  poisoned : Bool := false
  /-- TAG bits of a poisoned line: TCK_COUNT[39:0] of the fault -/
  poisonTick : BitVec 40 := 0
  /-- on-die ECC reports the line as uncorrectable -/
  ue : Bool := false
  /-- a corrected on-die error waits for a scrub -/
  ce : Bool := false
  deriving DecidableEq, Repr, Inhabited

/-- Domain states (R218). -/
inductive DomState where
  | empty | active | replacing | erasing
  deriving DecidableEq, Repr, Inhabited

/-- A key domain (R202, R206, R212, R298), or, as number 1,024 of the table, the blank key with its epoch counter
(R199). Keys are named by the free value that generated them. -/
structure Domain where
  state : DomState := .empty
  gen : Bool := false
  epoch : Nat := 0
  memKey : Nat := 0
  oldKey : Option Nat := none
  agreeKey : Nat := 0
  /-- request keys of generations 0 and 1, reply key with SALT, scan key: installed bytes -/
  req0 : List Byte := []
  req1 : List Byte := []
  reply : List Byte := []
  scan : List Byte := []
  scanGen : Nat := 0
  bundleCtr : Nat := 0
  replySeq : Nat := 0
  deriving DecidableEq, Repr, Inhabited

/-- A block of epochs or REPLY_SEQ values granted to a die: next value and how many remain. -/
structure Block where
  next : Nat := 0
  left : Nat := 0
  asked : Bool := false
  /-- the block granted while the first still has values -/
  next2 : Nat := 0
  left2 : Nat := 0
  deriving DecidableEq, Repr, Inhabited

/-- A host-pool write held at COUNTER 0xFF_FFFE (R205). -/
structure Stall where
  pc : Nat := 0
  line : Nat := 0
  func : Nat := 0
  ctx : Option Nat := none
  addr : Nat := 0
  bytes : List Byte := []
  deriving DecidableEq, Repr, Inhabited

/-- A scrub pass in progress (R211). -/
structure Scrub where
  mask : BitVec 256 := 0
  pc : Nat := 0
  line : Nat := 0
  auto : Bool := false
  spread : Nat := 0
  act : Nat := 0
  deriving DecidableEq, Repr, Inhabited

/-! ## Queues, frames and egress (08_frame_path.md, 12_control_plane.md) -/

/-- A request that is ready to enter (R150). -/
structure ReadyReq where
  /-- tick and offset at which it became ready -/
  tick : Nat := 0
  off : Nat := 0
  words : List TWord := []
  /-- postmark its words carry -/
  postmark : BitVec 16 := 0
  /-- binding and hold place of a request frame -/
  hold : Option (Nat × Nat) := none
  deriving DecidableEq, Repr, Inhabited

/-- A hardware queue (R327–R330, R343, R344). -/
structure Queue where
  /-- 0 free; 1 RX, 2 TX, 3 CMD, 4 CPL, 5 ENTRY, 6 EXIT, 7 CLOSE -/
  kind : Nat := 0
  enabled : Bool := false
  func : Nat := 0
  log2 : Nat := 0
  vec : Nat := 0
  peer : Nat := 0
  dbslot : Nat := 0
  base : Nat := 0
  prod : Nat := 0
  cons : Nat := 0
  dbErr : Bool := false
  armed : Bool := false
  stalled : Bool := false
  /-- index up to which written entries have been announced by a vector -/
  announced : Nat := 0
  /-- entries the part has produced or consumed (QUE_ENTRIES) -/
  entries : Nat := 0
  /-- TX: entries taken from the ring whose status is not yet written -/
  inFlight : Nat := 0
  /-- ENTRY queues: requests that are ready, by arrival, with their words in the queue engine -/
  ready : List ReadyReq := []
  /-- a barrier entry waits for a free entry (R377): its bytes -/
  barrier : List (List Byte) := []
  /-- statuses that wait for the ring (R432): status bytes -/
  waitStatus : List (List Byte) := []
  deriving DecidableEq, Repr, Inhabited

/-- A frame in reception on a subport, or received whole and waiting for the sorting office (R222–R228). -/
structure RxFrame where
  /-- offset and tick in which byte 0 stands in the MAC, and the timestamp there -/
  sfdOff : Nat := 0
  sfdTick : Nat := 0
  sfdNs : Nat := 0
  /-- PTP time of the boundary that opened that tick -/
  tickNs : Nat := 0
  /-- bytes of staging memory reserved -/
  reserved : Nat := 0
  /-- the sorting table in force at the SFD, once a swap has replaced it -/
  table : Option (Table (BitVec 1024)) := none
  /-- the office has decided: rule applied, or none for the default, and what follows -/
  decided : Bool := false
  rule : Option Nat := none
  /-- 0 drop, 1 queue, 3 request -/
  action : Nat := 0
  queue : Nat := 0
  dropped : Bool := false
  /-- the whole frame, once it has ended -/
  ended : Option (List Byte) := none
  deriving DecidableEq, Repr, Inhabited

/-- Where the reply of a request stands (R261–R268). -/
inductive ReplyStage where
  | none | produced | handed | onWire | sent | removed
  deriving DecidableEq, Repr, Inhabited

/-- A hold place of a binding: a request in flight (R259–R268, R381). -/
structure Hold where
  used : Bool := false
  /-- 1 decided, 2 entered, 3 reply produced, 4 reply handed over -/
  stage : Nat := 0
  port : Nat := 0
  sub : Nat := 0
  /-- MACsec bytes before the header -/
  lead : Nat := 0
  /-- ac, counted over ticks, at which the request is ready (R260), once its descriptors have matched -/
  readyAc : Nat := 0
  reqId : BitVec 64 := 0
  nonce : BitVec 96 := 0
  /-- request key and reply key with SALT, as in force at the decision -/
  key : List Byte := []
  replyKey : List Byte := []
  noEarly : Bool := false
  header : List Byte := []
  eth : List Byte := []
  hdrOff : Nat := 0
  declared : Nat := 0
  sfdTick : Nat := 0
  sfdOff : Nat := 0
  /-- PTP time of the boundary that opened that tick -/
  tickNs : Nat := 0
  rule : Option Nat := none
  echo : List Byte := []
  body : List Byte := []
  descOk : Bool := false
  ready : Bool := false
  entryTick : Nat := 0
  entryOff : Nat := 0
  results : List TWord := []
  reply : ReplyStage := .none
  replySeq : Nat := 0
  early : Bool := false
  frame : List Byte := []
  /-- ac at which the first FCS byte of the reply leaves -/
  fcsAt : Option Nat := none
  /-- 0 passed, else the failure code, and the ac, counted over ticks, of the verdict -/
  verdict : Option Nat := none
  verdictAt : Nat := 0
  /-- a recall notice is due and not yet handed over -/
  recallDue : Bool := false
  /-- abandoned: no reply is produced (R270) -/
  noReply : Bool := false
  postmark : BitVec 16 := 0
  deriving DecidableEq, Repr, Inhabited

/-- A request binding (R257, R272). -/
structure Binding where
  valid : Bool := false
  holdT : Bool := false
  func : Nat := 0
  tenant : Nat := 0
  model : Nat := 0
  entryQ : Nat := 0
  replyRing : Nat := 0
  bulkQ : Nat := 0
  bulkEn : Bool := false
  recallQ : Nat := 0
  fIn : Nat := 0
  descN : Nat := 0
  fOut : Nat := 0
  d : Nat := 0
  ii : Nat := 1
  ctx : Nat := 0
  descs : List (BitVec 32) := []
  removing : Bool := false
  holds : Table Hold := []
  deriving DecidableEq, Repr, Inhabited

/-- A frame waiting in or leaving through a subport's scheduler. -/
structure TxItem where
  /-- ring it is charged to; 8192 for a PTP message of the part -/
  ring : Nat := 0
  bytes : List Byte := []
  tsReq : Bool := false
  /-- ring entries whose status it settles when it has been sent -/
  entries : Nat := 0
  /-- binding and hold place of a reply or recall notice -/
  reply : Option (Nat × Nat) := none
  isRecall : Bool := false
  stomp : Bool := false
  seg : Bool := false
  /-- bytes of the send's payload up to the end of this segment (R241), and whether it is the first -/
  segEnd : Nat := 0
  segFirst : Bool := false
  deriving DecidableEq, Repr, Inhabited

/-- The egress scheduler of a subport (R236, R237, R241). -/
structure Egress where
  timing : Option TxItem := none
  /-- radio ring served last, for the round robin -/
  rrLast : Nat := 8191
  vtime : BitVec 64 := 0
  current : Option TxItem := none
  /-- ac of the tick at which the current frame started, and the tick -/
  startOff : Nat := 0
  startTick : Nat := 0
  /-- its transmit timestamp -/
  startNs : Nat := 0
  /-- ring whose segmented send the unit holds, the payload it has sent of it, and, while another ring waits
  for the unit, the payload boundary at which it lets go -/
  segRing : Option Nat := none
  segPos : Nat := 0
  segUntil : Option Nat := none
  quiet : Bool := false
  deriving DecidableEq, Repr, Inhabited

/-- A ring's place in the egress scheduler: frames ready to go, and its finish tag. -/
structure TxRing where
  items : List TxItem := []
  finish : BitVec 64 := 0
  deriving DecidableEq, Repr, Inhabited

/-- A cipher message in an engine unit's die (R239, R240). -/
structure Msg where
  id : Nat := 0
  stream : Nat := 0
  ctx : Nat := 2048
  key : Nat := 0
  len : Nat := 0
  done : Nat := 0
  slot : Option Nat := none
  postmark : BitVec 16 := 0
  arrived : Nat := 0
  tenant : Bool := false
  /-- counter block and GHASH accumulator held in the save slot -/
  counter : BitVec 128 := 0
  ghash : BitVec 128 := 0
  deriving DecidableEq, Repr, Inhabited

/-- An LDPC job (R279–R281). -/
structure FecJob where
  port : Nat := 0
  /-- context whose timetable submitted it -/
  ctx : Option Nat := none
  encode : Bool := false
  hdrBad : Bool := false
  /-- JOB of its header -/
  job : Nat := 0
  /-- a decode whose CRC was checked and failed -/
  crcFail : Bool := false
  /-- ac, counted over ticks, at which the last input word stood in the submit port -/
  j : Nat := 0
  /-- no unit has run it yet -/
  waiting : Bool := false
  result : List TWord := []
  deriving DecidableEq, Repr, Inhabited

/-- An engine unit of a network die (R239): the cipher message in progress, and whether this period is a radio
code block's. -/
structure EngUnit where
  msg : Option Msg := none
  radio : Bool := false
  deriving DecidableEq, Repr, Inhabited

/-- The engines of a network die. -/
structure Engines where
  units : Table EngUnit := []
  waiting : List Msg := []
  saved : List Msg := []
  slotsUsed : List Nat := []
  jobs : List FecJob := []
  nextId : Nat := 0
  deriving DecidableEq, Repr, Inhabited

/-- A MACsec secure association (R242). -/
structure Sak where
  suite : Nat := 0
  key : List Byte := []
  used : Bool := false
  nextPn : Nat := 1
  deriving DecidableEq, Repr, Inhabited

/-- The station-bus node (R243, R244, R252). -/
structure Station where
  rxq : List (List Byte) := []
  txq : List (List Byte) := []
  attempts : Nat := 0
  backoff : Option Nat := none
  plcaActive : Bool := false
  beaconSeen : Bool := false
  deriving DecidableEq, Repr, Inhabited

/-! ## Radio (10_radio.md) -/

/-- A PRB received for a symbol of one air time: its three BFP words, until they are delivered. -/
structure RadioPrb where
  symbol : Nat := 0
  airNs : Nat := 0
  prb : Nat := 0
  words : List TWord := []
  deriving DecidableEq, Repr, Inhabited

/-- A carrier (R288). -/
structure Carrier where
  valid : Bool := false
  mu : Nat := 0
  units : Nat := 1
  catB : Bool := false
  port : Nat := 0
  sub : Nat := 0
  part : Nat := 0
  nPrb : Nat := 0
  dlLayers : Nat := 1
  ulLayers : Nat := 1
  iqwDl : Nat := 9
  iqwUl : Nat := 9
  dynHdr : Bool := false
  eaxcWidths : BitVec 16 := 0
  eaxcBase : BitVec 16 := 0
  txAdv : Nat := 0
  cpLead : Nat := 0
  rxMin : Nat := 0
  rxMax : Nat := 0
  ruMac : BitVec 48 := 0
  vid : Nat := 0
  pcp : Nat := 0
  tagged : Bool := false
  /-- PRBs received, those delivered among them until the symbol's next air time -/
  prbs : List RadioPrb := []
  /-- words of downlink symbols that stand complete in the exit ports -/
  dlWords : List (Nat × List TWord) := []
  deriving DecidableEq, Repr, Inhabited

/-! ## Tenancy (11_tenancy.md) -/

/-- Partition states (R290). -/
inductive PartState where
  | free | opened | resetting | outOfService | isolated
  deriving DecidableEq, Repr, Inhabited

/-- A partition (R290, R316, R385, R396). -/
structure Part where
  state : PartState := .free
  radio : Bool := false
  func : Nat := 0
  /-- RST_PART: 0 idle, 1 stop, 2 collect, 3 clear, 4 retrain -/
  stage : Nat := 0
  auto : Bool := false
  /-- ns of the ticks that ended since the tick in which the reset in progress was accepted began -/
  resetNs : Nat := 0
  /-- offset at which the reset in progress was accepted, in ac -/
  resetOff : Nat := 0
  /-- the reset in progress had reached the limit of R387 -/
  escalated : Bool := false
  /-- tick in which the stage's next event falls -/
  stageTick : Nat := 0
  deriving DecidableEq, Repr, Inhabited

/-- Context states (R294). -/
inductive CtxState where
  | free | ready | active | resetting
  deriving DecidableEq, Repr, Inhabited

/-- A context (R294, R317, R383, R396). -/
structure Ctx where
  state : CtxState := .free
  seed : BitVec 64 := 0
  seeded : Bool := false
  postmark : BitVec 16 := 0
  created : BitVec 64 := 0
  /-- RST_CTX_INFO.STAGE: 0 idle, 1 awaiting b1, 2 clearing -/
  stage : Nat := 0
  auto : Bool := false
  /-- the reset belongs to a function-level reset (R384) -/
  flr : Bool := false
  /-- ticks since the context's timetable was admitted (R116) -/
  ticks : Nat := 0
  deriving DecidableEq, Repr, Inhabited

/-- The mailbox page of a function (R303–R305, R322). -/
structure Mailbox where
  out : Table Byte := []
  outLen : Nat := 0
  outSeq : BitVec 16 := 0
  outBusy : Bool := false
  outDone : Bool := false
  outTimeout : Bool := false
  refused : Bool := false
  inb : Table Byte := []
  inLen : Nat := 0
  inSeq : BitVec 16 := 0
  inFull : Bool := false
  inTimeout : Bool := false
  notices : Table (List Byte) := []
  nhead : BitVec 8 := 0
  ntail : BitVec 8 := 0
  nlost : BitVec 32 := 0
  deriving DecidableEq, Repr, Inhabited

/-- A fault record (R371). -/
structure FaultRec where
  code : Nat := 0
  attrib : Nat := 0
  conseq : Bool := false
  radio : Bool := false
  locKind : Nat := 0
  postmark : BitVec 16 := 0
  ctx : Option Nat := none
  part : Option Nat := none
  func : Option Nat := none
  seq : BitVec 64 := 0
  tick : BitVec 64 := 0
  off : Nat := 0
  detail : BitVec 32 := 0
  location : BitVec 128 := 0
  suspectSet : BitVec 16 := 0
  suspects : Nat := 0
  dumpId : BitVec 16 := 0
  digest8 : BitVec 64 := 0
  deriving DecidableEq, Repr, Inhabited

/-- The fault-record window of a function (R372, R397). -/
structure FltWin where
  head : BitVec 16 := 0
  tail : BitVec 16 := 0
  lost : BitVec 32 := 0
  recs : Table FaultRec := []
  deriving DecidableEq, Repr, Inhabited

/-- A function (R296, R297, R306–R309, R318). -/
structure Vf where
  assigned : Bool := false
  pcieT : Bool := false
  tenant : Nat := 0
  /-- settings in effect: [0] DLB_DENIED [1] HOLD_T [2] FRESH_SCAN -/
  ctrlT : BitVec 3 := 0
  /-- settings last written by the tenant (VF_TCTRL) -/
  tctrl : BitVec 3 := 0
  postmark : BitVec 16 := 0
  qTick : BitVec 32 := 0
  qPages : Nat := 0
  qQueues : Nat := 0
  qWeight : BitVec 32 := 0
  cutPending : Bool := false
  cutTick : BitVec 64 := 0
  qsel : Nat := 0
  mbx : Mailbox := {}
  flt : FltWin := {}
  deriving DecidableEq, Repr, Inhabited

/-! ## Control plane (12_control_plane.md) -/

/-- What an accepted command still has to do at a boundary. -/
inductive Effect where
  | planSwap (n : Nat) (starts : List Nat)
  | reserve (part : Nat) (slices : BitVec 16) (qmask : BitVec 160)
  | withdraw (ctx : Nat)
  | resume (ctx : Nat)
  | forcedCut (func : Nat)
  | srtSwap
  | unbind (binding : Nat)
  | installKey (dom slot : Nat) (key : List Byte)
  | attest (part dest : Nat) (nonce : BitVec 256)
  | carrier (c : Nat) (cfg : Carrier)
  | carrierRemove (c : Nat)
  | routeSwap
  | levelFull
  | shuntStart (part : Nat) (mask : BitVec 16) (qmask : BitVec 160)
  | shuntStop (part : Nat)
  /-- an armed swap of a partition (R173, R175) -/
  | swapIn (part tick slice : Nat)
  /-- a fill or a scan of a quadrant, until it completes (R169, R184) -/
  | fill (part quad : Nat)
  | scan (part quad : Nat)
  /-- a context or partition reset, until it completes (R383, R385) -/
  | ctxReset (ctx : Nat)
  | partReset (part : Nat)
  deriving DecidableEq, Repr, Inhabited

/-- An accepted command whose effect is still to come (R335, R379). -/
structure Pending where
  src : CmdSrc := .station 0
  token : BitVec 64 := 0
  opcode : BitVec 16 := 0
  index : Nat := 0
  due : Nat := 0
  effect : Effect := .levelFull
  deriving DecidableEq, Repr, Inhabited

/-- A maintenance activity entry (R338, R339, CMD_ACT). -/
structure Act where
  code : Nat := 0
  valid : Bool := false
  auto : Bool := false
  /-- 0 running, 1 done, 2 aborted -/
  outcome : Nat := 0
  scope : BitVec 24 := 0
  start : BitVec 24 := 0
  deriving DecidableEq, Repr, Inhabited

/-! ## The trunk (13_trunk.md) -/

/-- Trunk port states (R349). -/
inductive PortState where
  | down | training | identify | agree | measure | up | failed | noId
  deriving DecidableEq, Repr, Inhabited

/-- A message on the trunk (R358): header fields and body. -/
structure TrunkMsg where
  dest : Nat := 0
  src : Nat := 0
  hops : Nat := 0
  type : Nat := 0
  epoch : Bool := false
  vc : Nat := 2
  body : List Byte := []
  deriving DecidableEq, Repr, Inhabited

/-- A trunk port (R345–R354, R366). -/
structure TrunkPort where
  state : PortState := .down
  cause : Nat := 0
  peerId : Nat := 0x3FFFF
  peerPort : Nat := 0
  latMeas : Nat := 0
  skew : Int := 0
  skewMax : Nat := 0
  /-- link keys by direction, as the key bytes agreed -/
  txKey : List Byte := []
  rxKey : List Byte := []
  txCount : Nat := 0
  rxCount : Nat := 0
  txGen : Bool := false
  rxGen : Bool := false
  /-- VC0 cells held for delivery: slot and the words that are valid -/
  held : List (Nat × List (Nat × TWord)) := []
  /-- messages waiting to leave, per channel 1–5 -/
  out : List TrunkMsg := []
  /-- cells of the message in progress on each channel, as bytes already received -/
  rx : Table (List Byte) := []
  inbox : List TrunkMsg := []
  /-- credits left towards the peer and credits to return, by channel 2–5 -/
  credits : Table Nat := []
  toReturn : Table Nat := []
  /-- channel served last among VC2–VC5 -/
  rrLast : Nat := 5
  /-- cells already sent of the message in progress, by channel 2–5 -/
  sent : Table Nat := []
  deriving DecidableEq, Repr, Inhabited

/-! ## Faults and resets (14_faults.md) -/

/-- A quarantine (R373). -/
structure Quarantine where
  active : Bool := false
  die : Nat := 0
  tile : Nat := 0
  quad : Nat := 0
  suspects : List Nat := []
  bystanders : List Nat := []
  /-- the timetables have stopped at the boundary after the overrun -/
  stopped : Bool := false
  collected : Bool := false
  /-- index of the suspect under replay -/
  current : Nat := 0
  /-- the suspect's scan-in is made: its replay starts at the next boundary -/
  armed : Bool := false
  replaying : Bool := false
  /-- replay passes left -/
  passes : Nat := 0
  culprits : List Nat := []
  /-- timetables that resume at the next boundary, once the verdicts are given -/
  resumes : List Nat := []
  /-- address and length of the quadrant's dump scan in the dump area, from which it is scanned in -/
  bundle : Nat × Nat := (0, 0)
  deriving DecidableEq, Repr, Inhabited

/-- The public part of a crash dump (R382). -/
structure Dump where
  kind : Nat := 0
  id : BitVec 16 := 0
  incomplete : Bool := false
  sealedPresent : Bool := false
  radio : Bool := false
  tick : BitVec 64 := 0
  part : Nat := 255
  func : Nat := 0
  ctxMask : BitVec 64 := 0
  bundles : List (Nat × Nat × Nat × Nat × Nat × Bool) := []
  /-- (queue, KIND, flags, producer, consumer, postmark) -/
  queues : List (Nat × Nat × Nat × Nat × Nat × BitVec 16) := []
  engines : List (Nat × Nat × Nat × Nat × Nat) := []
  marks : List (Nat × BitVec 16 × BitVec 16) := []
  recs : List FaultRec := []
  versions : List (BitVec 32) := []
  mapDigest : List Byte := []
  deriving DecidableEq, Repr, Inhabited

/-- A dump as it is gathered: the record, and bytes of the area used so far. -/
structure Gathering where
  dump : Dump := {}
  used : Nat := 0
  deriving DecidableEq, Repr, Inhabited

/-! ## Lifecycle (15_lifecycle.md, 16_pins_electrical.md) -/

/-- Boot stages (R402). -/
inductive Stage where
  | ao | rails | scRom | scFw | mgmt | train | restore | done | failed
  deriving DecidableEq, Repr, Inhabited

/-- One firmware image of a flash bank (R403). -/
structure Image where
  version : BitVec 32 := 0
  valid : Bool := true
  signed : Bool := true
  digest : List Byte := []
  deriving DecidableEq, Repr, Inhabited

/-- An update in progress (R410, R411). -/
structure Update where
  active : Bool := false
  image : Image := {}
  image2 : Image := {}
  act : Nat := 0
  mirrored : Bool := false
  handedOver : Bool := false
  deriving DecidableEq, Repr, Inhabited

/-- The power sequencer, the boot and the pins (R399–R409, R418, R420, R426). -/
structure Life where
  stage : Stage := .ao
  fail : Nat := 0
  bootMs : Nat := 0
  /-- the boot in progress follows a power-on and not a device reset -/
  cold : Bool := true
  pwrOk : Bool := false
  /-- enables and power-good inputs: 0 CORE, 1 PHY, 2 HBM, 3 IO -/
  enables : List Bool := [false, false, false, false]
  goods : List Bool := [false, false, false, false]
  poweringOff : Bool := false
  pwrOffDone : Bool := false
  thermN : Bool := true
  /-- SerDes outputs at high impedance -/
  serdesHiZ : Bool := true
  /-- debounced RESET_N level -/
  resetLevel : Bool := false
  resetHolding : Bool := false
  held : Bool := false
  mask : Bool := false
  permit : Bool := false
  auth : BitVec 48 := 0
  alive : Bool := false
  /-- a device reset is in progress -/
  resetting : Bool := false
  /-- it must end at beacon (R387, R426) -/
  endBeacon : Bool := false
  /-- flash banks A and B: SC firmware, Stationmaster, host monitor of each -/
  bankA : List Image := [{}, {}, {}]
  bankB : List Image := [{}, {}, {}]
  /-- bank in use per image; true is B -/
  banks : List Bool := [false, false, false]
  minimums : List (BitVec 32) := [0, 0, 0]
  /-- versions running: SC firmware, Stationmaster, host monitor -/
  versions : List (BitVec 32) := [0, 0, 0]
  measures : List (List Byte) := [[], [], []]
  /-- CMD_SM_STATUS -/
  activeM1 : Bool := false
  standbyReady : Bool := false
  updating : Bool := false
  smUpdate : Update := {}
  scUpdate : Update := {}
  scPaused : Bool := false
  /-- TCK_COUNT at the latest heartbeat of the active management core, and of the SC (R368) -/
  smBeat : BitVec 64 := 0
  scBeat : BitVec 64 := 0
  /-- the standby core takes over at the next boundary -/
  failover : Bool := false
  /-- harts that run the new host monitor image -/
  monHarts : List Nat := []
  monNew : Option (BitVec 32) := none
  monDigest : List Byte := []
  /-- hottest sensor per unit, 0–63 dies and 64–71 stacks, in 1/16 °C, as its comparators last gave it to the
  always-on domain (R426) -/
  temps : Table Int := []
  /-- the same as DIE_TJ and DIE_HBM_T show it: readings since the device reset (R64, R427) -/
  tempRegs : Table Int := []
  /-- NumVFs last set -/
  numVfs : Nat := 0
  vfEnable : Bool := false
  deriving DecidableEq, Repr, Inhabited

/-- What the SC's store keeps over a device reset (R295, R409). -/
structure ScStore where
  parts : Table Part := []
  vfs : Table Vf := []
  hartRsv : BitVec 128 := 0
  retired : BitVec 40 := 0
  stationMac : BitVec 48 := 0
  enrolled : Bool := false
  deriving DecidableEq, Repr, Inhabited

/-! ## What leaves the part -/

/-- Something the part drives outward. -/
inductive Out where
  /-- a frame starts on a subport, at an offset; the bytes include the FCS -/
  | frame (port sub : Nat) (off : Nat) (bytes : List Byte)
  /-- an MSI-X vector of a function -/
  | msix (func vec : Nat)
  /-- the signal-bus answer as a poll samples it -/
  | answer (a : BitVec 4)
  /-- a station-bus frame on the segment -/
  | station (bytes : List Byte)
  /-- a trunk cell -/
  | cell (port : Nat) (c : BitVec 800)
  /-- a kind 4 station status -/
  | status (mac : BitVec 48) (bytes : List Byte)
  /-- refresh issued to a pseudo-channel -/
  | refresh (pc off : Nat)
  /-- data returned by a host-pool read, and whether the completion is poisoned -/
  | readData (func addr : Nat) (bytes : List Byte) (poisoned : Bool)
  /-- result of a register read with a side effect -/
  | regData (data : BitVec 64)
  /-- the transmitter of a subport or trunk port at electrical idle -/
  | quiet (port sub : Nat)
  /-- a PCIe link retrains -/
  | pcieTrain
  /-- a configuration request completes with Configuration Request Retry Status -/
  | configRetry
  /-- a PLCA beacon that the coordinator sends -/
  | plcaBeacon
  deriving DecidableEq, Repr, Inhabited

/-! ## The state -/

/-- The part. Log 235, DEDUCED. -/
structure State where
  /-- commands waiting, first in, first out -/
  pending : List Instr := []
  /-- every register that holds its own value: 32-bit words by word index in PF BAR0 -/
  regs : Table Word32 := []
  /-- the 16-bit read latches of the statistics counters, by reader and counter (R235) -/
  latches : Table (BitVec 16) := []
  level : Level := .full
  tick : TickGen := {}
  sig : SigBus := {}
  /-- disabled tiles, as die × 256 + tile (R58) -/
  disabled : List Nat := []
  /-- retired array dies (DIE_RETIRED) -/
  retired : BitVec 40 := 0
  /-- tiles by die × 256 + tile -/
  tiles : Table Tile := []
  /-- quadrants whose changeover is in progress (R27) -/
  changing : List Nat := []
  /-- partitions whose trace captures the pass in progress (R164) -/
  tracing : List Nat := []
  /-- words standing in, or on their way into, hub-switch port registers: hub × 256 + port -/
  hub : Table (List (Nat × TWord)) := []
  /-- admitted timetables by context -/
  tts : Table Timetable := []
  admitSeq : Nat := 0
  /-- Siding states by partition × 160 + quadrant -/
  siding : Table SidingState := []
  sdg : Table PartSdg := []
  fills : List Fill := []
  lib : Table LibEntry := []
  libTiles : Table LibTiles := []
  scans : List Scan := []
  /-- HBM contents, a sealed line's as its ciphertext opens (R200), by pseudo-channel × 2^30 + 64 × line + byte;
  unlisted bytes are zero -/
  mem : List Host.Cell := []
  pcs : Table Pc := []
  /-- pages by pseudo-channel × 512 + page -/
  pages : Table Page := []
  /-- line metadata by pseudo-channel × 2^24 + line -/
  lines : Table Line := []
  /-- key domains; the operator's domain 0 (R212) and the blank key, number 1,024 (R199), exist from the part's
  first boot on -/
  domains : Table Domain :=
    [(0, { state := .active, memKey := 1, agreeKey := 2, scanGen := 3 }), (1024, { state := .active, memKey := 4 })]
  /-- epoch blocks by hub × 2048 + domain (1024 is the blank key) -/
  blocks : Table Block := []
  stalls : List Stall := []
  scrub : Option Scrub := none
  scrubDue : Bool := false
  /-- spares: physical pseudo-channel at position 31 is ready; retired count, by stack -/
  spareBad : List Nat := []
  retiredPcs : Table Nat := []
  queues : Table Queue := []
  /-- frames in reception by port × 8 + subport, oldest first -/
  rx : Table (List RxFrame) := []
  staging : Table Nat := []
  /-- sorting rules, active and shadow, as 1,024-bit rules -/
  srtA : Table (BitVec 1024) := []
  srtS : Table (BitVec 1024) := []
  srtCopying : Bool := false
  srtPending : Bool := false
  /-- the table that an accepted swap puts in force -/
  srtNext : Table (BitVec 1024) := []
  srtCopy : Bool := false
  binds : Table Binding := []
  /-- REPLY_SEQ blocks by network die × 1024 + domain -/
  seqBlocks : Table Block := []
  egress : Table Egress := []
  txRings : Table TxRing := []
  engines : Table Engines := []
  saks : Table Sak := []
  station : Station := {}
  carriers : Table Carrier := []
  parts : Table Part := []
  cellA : Table Byte := []
  cellS : Table Byte := []
  ctxs : Table Ctx := []
  vfs : Table Vf := []
  harts : Table Nat := []
  inData : Table Byte := []
  effects : List Pending := []
  acts : Table Act := []
  trunk : Table TrunkPort := []
  routeEpoch : Bool := false
  drain : Nat := 0
  fabricId : Nat := 0x3FFFF
  /-- READY cells of jobs that no admitted timetable names yet: job, member, CHIPS, PERIOD, PHASE, run -/
  earlyReady : List (BitVec 64 × Nat × Nat × Nat × BitVec 32 × Nat) := []
  fltSeq : BitVec 64 := 0
  /-- the fault log: newest first, at most 1,024 records -/
  fltLog : List FaultRec := []
  dumps : List Dump := []
  /-- dumps of partition resets whose collection is open, by partition -/
  gathers : Table Gathering := []
  dumpSeq : BitVec 16 := 0
  /-- quarantines in progress, by partition -/
  quarantines : Table Quarantine := []
  /-- low words staged for ARI_SEED: view C, then view O (R134) -/
  seedStage : Word32 × Word32 := (0, 0)
  suspectSeq : BitVec 16 := 0
  life : Life := {}
  store : ScStore := {}
  /-- everything driven outward, newest first -/
  wire : List Out := []
  /-- the model's own counter that indexes free values -/
  fresh : Nat := 5
  deriving DecidableEq, Repr

/-- The part right after power-on reset (R12, R401): every register at its Reset value, nothing powered but the
always-on domain, no command waiting. Log 3, DESIGN CHOICE. Log 5, DESIGN CHOICE. Log 9, DEDUCED. Log 233,
DESIGN CHOICE. Log 234, DEDUCED. Log 235, DEDUCED. -/
def State.reset : State := {}

/-- Why a step stops with a fault. Log 7, DESIGN CHOICE. -/
inductive Fault where
  /-- A tile, core or sequencer step names a die above 39 or a tile above 255, where no tile exists
  (R13, R51). Raised by the commands of Tiles.lean, TileCore.lean and Special.lean. Safe: nothing is
  claimed about a tile that does not exist. -/
  | noSuchTile (die tile : Nat)
  deriving DecidableEq, Repr

/-- Why a command is refused by the model. -/
inductive Refusal where
  /-- The command has no meaning in this model yet. Raised by arms of Dispatch.lean only. Safe. -/
  | notModelled (mnemonic : String)
  deriving DecidableEq, Repr

end Sys2Proof.Machine
end

