-- ==== Sys2Proof/Machine/RegMap.lean ====
section
/-!
DEFINITION. The register map: every register that holds its own value, with its address in PF BAR0 (R324),
the bits software may write, the bits that writing 1 clears, its reset value and whether it lies in the
always-on domain (R12). Registers that only show typed state (queues, contexts, functions, bindings …)
have no row here; Machine/Read.lean computes them. A VF's MSI-X table and PBA stand above the BAR, at
`vfBase f` plus their offset in the VF BAR.
-/

namespace Sys2Proof.Machine

/-- A row of the register map: words at base + i·stride + j·mstride for i < n, j < m. -/
structure RegRow where
  base : Nat
  n : Nat := 1
  stride : Nat := 4
  m : Nat := 1
  mstride : Nat := 0x10000000
  /-- bits writable in views C and O -/
  rw : Nat := 0
  /-- bits cleared by writing 1 -/
  w1c : Nat := 0
  /-- bits writable in view C only -/
  wC : Nat := 0
  reset : Nat := 0
  ao : Bool := false
  deriving DecidableEq, Repr, Inhabited

def allOnes32 : Nat := 0xFFFFFFFF

/-! Block bases (R324). -/
def bTck : Nat := 0x100000
def bDie : Nat := 0x200000
def bTil : Nat := 0x300000
def bAri : Nat := 0x301000
def bSdg : Nat := 0x302000
def bPart : Nat := 0x304000
def bCtx : Nat := 0x310000
def bVf : Nat := 0x320000
def bMbx : Nat := 0x330000
def bTtb : Nat := 0x400000
def bMem : Nat := 0x600000
def bSeal : Nat := 0x608000
def bMac : Nat := 0x800000
def bSrt : Nat := 0x900000
def bSeg : Nat := 0x940000
def bCnt : Nat := 0x980000
def bEgs : Nat := 0xA00000
def bCut : Nat := 0xB00000
def bRad : Nat := 0xC00000
def bFec : Nat := 0xC80000
def bTrk : Nat := 0xD00000
def bFlt : Nat := 0xE00000
def bRst : Nat := 0xE80000
def bCmd : Nat := 0xF00000
def bQue : Nat := 0x1000000
def bStb : Nat := 0x2000000
def bSig : Nat := 0x2010000
/-- Words of a VF's own BAR that hold a value: the MSI-X table and PBA (R326). -/
def vfBase (f : Nat) : Nat := 0x100000000 + f * 0x10000

/-! The slot tick, signal bus and dies (R40–R43, R64, R65, R427). -/
def rowsTick : List RegRow := [
  { base := bTck, rw := 0x0FFFFFF7, reset := 0x00181001, ao := true },
  { base := bTck + 0x0C, rw := 0xFFFFF, ao := true },
  { base := bTck + 0x1C, rw := 0xFF, reset := 0xA, ao := true },
  { base := bTck + 0x20, rw := allOnes32, reset := 0x00FA0064, ao := true },
  { base := bTck + 0x24, rw := allOnes32, reset := 0xE10, ao := true },
  { base := bTck + 0x28, rw := allOnes32, reset := 0x78, ao := true },
  { base := bTck + 0x30, w1c := 0x7F, ao := true },
  { base := bTck + 0x34, rw := 0x7F, reset := 0x3F, ao := true },
  { base := bTck + 0x38 },
  { base := bTck + 0x40, rw := 0x1F00, reset := 0x101 },
  { base := bTck + 0x100, n := 16 },
  { base := bTck + 0x140 },
  { base := bTck + 0x144, n := 15, rw := 0x1FFFFF },
  { base := bSig + 0x4, n := 3, ao := true },
  { base := bDie + 0x10, n := 2 },
  { base := bDie + 0x18, w1c := 0x7 },
  { base := bDie + 0x1C, rw := 0x7, reset := 0x7 },
  { base := bDie + 0xA00, n := 64 },
  { base := bDie + 0xC00, reset := 0x2EE0 },
  { base := bDie + 0xC04, reset := 0x2328 },
  { base := bDie + 0xC08, reset := 0x1F40 },
  { base := bDie + 0xC0C, reset := 0x3E80 },
  { base := bDie + 0xD20, ao := true },
  { base := bDie + 0xD24, w1c := 0x3, ao := true },
  { base := bDie + 0xD28, rw := 0x3, reset := 0x3, ao := true } ]

/-! Tiles, arithmetic, Siding, partitions, mailboxes (R100, R134, R189, R315, R319). -/
def rowsArray : List RegRow := [
  { base := bTil, rw := 0xFF3F },
  { base := bTil + 0x100, wC := 0xFF3F },
  { base := bTil + 0x200 },
  { base := bTil + 0x204, w1c := 0x1 },
  { base := bTil + 0x208, rw := 0x1, reset := 0x1 },
  { base := bTil + 0x20C },
  { base := bAri, reset := 0x000303FF },
  { base := bAri + 0x4, rw := 0x7FF },
  { base := bAri + 0x10, n := 2 },
  { base := bAri + 0x18, w1c := 0x1F },
  { base := bAri + 0x1C, rw := 0x1F, reset := 0x1F },
  { base := bAri + 0x20, reset := 0x00010000 },
  { base := bSdg, rw := 0x1F },
  { base := bSdg + 0x18, n := 3 },
  { base := bSdg + 0x24, w1c := 0x7F },
  { base := bSdg + 0x28, rw := 0x7F, reset := 0x7F },
  { base := bSdg + 0x700 },
  { base := bPart, reset := 0x00400020 },
  { base := bPart + 0x4, w1c := 0x3 },
  { base := bPart + 0x8, rw := 0x3, reset := 0x3 },
  { base := bMbx, n := 32 },
  { base := bMbx + 0x100, rw := 0x3FF, reset := 0x1 },
  { base := bMbx + 0x114, rw := 0x3FF, reset := 0xA },
  { base := bMbx + 0x118, w1c := 0xF },
  { base := bMbx + 0x11C, rw := 0xF, reset := 0xF },
  { base := bMbx + 0x120 } ]

/-! Timetable windows, memory and sealing (R162, R215, R217). -/
def rowsMem : List RegRow := [
  { base := bTtb + 0x4, n := 32, stride := 0x10000, w1c := 0x3F },
  { base := bTtb + 0x8, n := 32, stride := 0x10000, rw := 0x3F, reset := 0x3F },
  { base := bTtb + 0xC, n := 32, stride := 0x10000 },
  { base := bTtb + 0x10, n := 32, stride := 0x10000 },
  { base := bTtb + 0x20, n := 32, stride := 0x10000, rw := 0x7FF3F },
  { base := bTtb + 0x24, n := 32, stride := 0x10000, rw := 0x1FFFFF },
  { base := bTtb + 0x28, n := 32, stride := 0x10000 },
  { base := bTtb + 0x100, n := 64, m := 32, mstride := 0x10000 },
  { base := bMem, reset := 0x018000F8 },
  { base := bMem + 0x10, rw := 0xFF },
  { base := bMem + 0x20, rw := 0x1FFFF },
  { base := bMem + 0x50, rw := 0xFFFFF, reset := 0x00015180 },
  { base := bMem + 0x54 },
  { base := bMem + 0x58, n := 4 },
  { base := bMem + 0x68, w1c := 0xF },
  { base := bMem + 0x6C, rw := 0xF, reset := 0xF },
  { base := bSeal, reset := 0x18280400 },
  { base := bSeal + 0x4, rw := 0x3FF },
  { base := bSeal + 0x10 },
  { base := bSeal + 0x18, n := 4 },
  { base := bSeal + 0x28, w1c := 0x1F },
  { base := bSeal + 0x2C, rw := 0x1F, reset := 0x1F } ]

/-! Ports, sorting, segmentation, counters, egress, station bus (R245–R252). -/
def rowsNet : List RegRow := [
  { base := bMac, n := 16, stride := 0x10000, rw := 0x1F, reset := 0x1 },
  { base := bMac + 0x4, n := 16, stride := 0x10000 },
  { base := bMac + 0x8, n := 16, stride := 0x10000, rw := 0x3FFF, reset := 0x2400 },
  { base := bMac + 0xC, n := 16, stride := 0x10000, rw := allOnes32 },
  { base := bMac + 0x10, n := 16, stride := 0x10000, w1c := 0xF },
  { base := bMac + 0x14, n := 16, stride := 0x10000, rw := 0xF, reset := 0xF },
  { base := bSrt + 0x4, rw := 0xFFFF, reset := 0x88B5 },
  { base := bSrt + 0x8, rw := 0xFFFF },
  { base := bSrt + 0xC, w1c := 0xF },
  { base := bSrt + 0x10, rw := 0xF, reset := 0xF },
  { base := bSrt + 0x40, n := 16, rw := 0x1FFF0001 },
  { base := bSrt + 0x100, n := 2, rw := 0xFFF },
  { base := bSrt + 0x20000, n := 8192 },
  { base := bSeg, reset := 0x000C0200 },
  { base := bSeg + 0x40, n := 16 },
  { base := bSeg + 0x80, w1c := 0x3 },
  { base := bSeg + 0x84, rw := 0x3, reset := 0x3 },
  { base := bCnt, n := 124, m := 128, mstride := 0x200 },
  { base := bCnt + 0x1F0, n := 2, m := 128, mstride := 0x200, w1c := allOnes32 },
  { base := bCnt + 0x1F8, n := 2, m := 128, mstride := 0x200, rw := allOnes32, reset := allOnes32 },
  { base := bCnt + 0x20000, n := 16384 },
  { base := bCnt + 0x30000, n := 256, w1c := allOnes32 },
  { base := bEgs, n := 16, rw := 0x7F, reset := 0x14 },
  { base := bEgs + 0x40, w1c := 0x1 },
  { base := bEgs + 0x44, rw := 0x1, reset := 0x1 },
  { base := bEgs + 0x10000, n := 8192, stride := 8 },
  { base := bStb, rw := 0xFFF1F, reset := 0x00082010, ao := true },
  { base := bStb + 0x8, rw := 0xFFFF, reset := 0x88B6, ao := true },
  { base := bStb + 0x18, w1c := 0x7, ao := true },
  { base := bStb + 0x1C, rw := 0x7, reset := 0x7, ao := true },
  { base := bStb + 0x100, n := 16, ao := true } ]

/-! Cut-through, radio, forward error correction, trunk (R271, R287, R289, R365–R367). -/
def rowsPath : List RegRow := [
  { base := bCut, reset := 0x00400100 },
  { base := bCut + 0x4, w1c := 0x1F },
  { base := bCut + 0x8, rw := 0x1F, reset := 0x1F },
  { base := bCut + 0x100, n := 24 },
  { base := bCut + 0x1F0, n := 2, w1c := allOnes32 },
  { base := bRad, reset := 0x00300180 },
  { base := bRad + 0xC, w1c := 0x1F },
  { base := bRad + 0x10, rw := 0x1F, reset := 0x1F },
  { base := bRad + 0x10000, n := 12, m := 384, mstride := 0x40 },
  { base := bRad + 0x10038, m := 384, mstride := 0x40, w1c := allOnes32 },
  { base := bFec, reset := 0x01400A0C },
  { base := bFec + 0x80, n := 48 },
  { base := bFec + 0x140, n := 2, w1c := allOnes32 },
  { base := bFec + 0x148, w1c := 0x7 },
  { base := bFec + 0x14C, rw := 0x7, reset := 0x7 },
  { base := bTrk, reset := 0x00060028 },
  { base := bTrk + 0x4, rw := 0xFF1F3F01, reset := 0x08100000 },
  { base := bTrk + 0xC, w1c := 0x7F },
  { base := bTrk + 0x10, rw := 0x7F, reset := 0x7F },
  { base := bTrk + 0x20, n := 8 },
  { base := bTrk + 0x40, n := 2, w1c := allOnes32 },
  { base := bTrk + 0x1000, n := 40, stride := 0x100, rw := 0x1FFF0001, reset := 0x02000001 },
  { base := bTrk + 0x1020, n := 12, m := 40, mstride := 0x100 },
  { base := bTrk + 0x1058, n := 2, m := 40, mstride := 0x100, w1c := allOnes32 },
  { base := bTrk + 0x10000, n := 4096 },
  { base := bTrk + 0x20000, n := 4096, rw := 0xBF },
  { base := bTrk + 0x30000, n := 64 },
  { base := bTrk + 0x30100, n := 64, rw := 0xBF } ]

/-! Faults, resets, commands, identity, MSI-X tables (R325, R330, R341, R394–R396, R417). -/
def rowsCtl : List RegRow := [
  { base := bFlt, rw := 0x001F03FF, reset := 0x00050064, ao := true },
  { base := bFlt + 0x4, rw := 0x3FF, reset := 0x64, ao := true },
  { base := bFlt + 0x10, rw := 0x3FF, ao := true },
  { base := bFlt + 0x14, w1c := 0x3FF },
  { base := bFlt + 0x18, rw := 0x3FF, reset := 0x3FF },
  { base := bFlt + 0x1C },
  { base := bFlt + 0x20, n := 2, rw := allOnes32, ao := true },
  { base := bFlt + 0x28, rw := 0xFFF, ao := true },
  { base := bFlt + 0x2C, rw := 0xF, ao := true },
  { base := bFlt + 0x40, rw := 0x3FFF3, reset := 0x3C3, ao := true },
  { base := bFlt + 0x44, rw := 0x3FFFF, reset := 0x2588, ao := true },
  { base := bFlt + 0x48, rw := 0x3FFF3, reset := 0xE102, ao := true },
  { base := bFlt + 0x50, n := 2, ao := true },
  { base := bFlt + 0x80, n := 32, ao := true },
  { base := bRst, n := 3, ao := true },
  { base := bRst + 0x10, n := 2 },
  { base := bRst + 0x100, rw := 0x7FF },
  { base := bCmd, reset := 0x00200200 },
  { base := bCmd + 0xC, w1c := 0x1F },
  { base := bCmd + 0x10, rw := 0x1F, reset := 0x1F },
  { base := bCmd + 0x14, n := 2 },
  { base := 0x0, reset := 0x01000064, ao := true },
  { base := 0x80000, n := 3, m := 2048, mstride := 16, rw := allOnes32 },
  { base := 0x8000C, n := 2048, stride := 16, rw := 0x1 },
  { base := 0x90000, n := 64 },
  { base := vfBase 0 + 0x2000, n := 64, stride := 16, m := 1024, mstride := 0x10000, rw := allOnes32 },
  { base := vfBase 0 + 0x2004, n := 64, stride := 16, m := 1024, mstride := 0x10000, rw := allOnes32 },
  { base := vfBase 0 + 0x2008, n := 64, stride := 16, m := 1024, mstride := 0x10000, rw := allOnes32 },
  { base := vfBase 0 + 0x200C, n := 64, stride := 16, m := 1024, mstride := 0x10000, rw := 0x1 },
  { base := vfBase 0 + 0x2800, n := 2, m := 1024, mstride := 0x10000 } ]

def regRows : List RegRow :=
  rowsTick ++ rowsArray ++ rowsMem ++ rowsNet ++ rowsPath ++ rowsCtl

/-- The word index of address `a` lies in the row. -/
def RegRow.hits (r : RegRow) (a : Nat) : Bool :=
  let d := a - r.base
  decide (r.base ≤ a) && decide (d / r.mstride < r.m) &&
    decide (d % r.mstride % r.stride = 0) && decide (d % r.mstride / r.stride < r.n)

def rowOf (a : Nat) : Option RegRow := regRows.find? (·.hits a)

/-- The value a register word holds after reset (R12). -/
def resetOf (a : Nat) : Nat :=
  match rowOf a with
  | some r => r.reset
  | none => 0

/-- The word keeps its value through a device reset (R12). -/
def isAlwaysOn (a : Nat) : Bool :=
  match rowOf a with
  | some r => r.ao
  | none => false

/-- A status word, its mask word and its bit of DEV_INT_SUMMARY (R325). -/
structure StatusRow where
  bit : Nat
  status : Nat
  /-- none: no mask register exists -/
  mask : Option Nat
  n : Nat := 1
  stride : Nat := 4
  deriving DecidableEq, Repr, Inhabited

/-- Log 231, DEDUCED. -/
def statusRows : List StatusRow := [
  { bit := 0, status := bTck + 0x30, mask := some (bTck + 0x34) },
  { bit := 1, status := bDie + 0x18, mask := some (bDie + 0x1C) },
  { bit := 1, status := bDie + 0xD24, mask := some (bDie + 0xD28) },
  { bit := 2, status := bTil + 0x204, mask := some (bTil + 0x208) },
  { bit := 3, status := bAri + 0x18, mask := some (bAri + 0x1C) },
  { bit := 4, status := bSdg + 0x24, mask := some (bSdg + 0x28) },
  { bit := 5, status := bPart + 0x4, mask := some (bPart + 0x8) },
  { bit := 6, status := bMbx + 0x118, mask := some (bMbx + 0x11C) },
  { bit := 7, status := bTtb + 0x4, mask := some (bTtb + 0x8), n := 32, stride := 0x10000 },
  { bit := 8, status := bMem + 0x68, mask := some (bMem + 0x6C) },
  { bit := 9, status := bSeal + 0x28, mask := some (bSeal + 0x2C) },
  { bit := 10, status := bMac + 0x10, mask := some (bMac + 0x14), n := 16, stride := 0x10000 },
  { bit := 11, status := bSrt + 0xC, mask := some (bSrt + 0x10) },
  { bit := 12, status := bSeg + 0x80, mask := some (bSeg + 0x84) },
  { bit := 13, status := bCnt + 0x1F0, mask := some (bCnt + 0x1F8), n := 128, stride := 0x200 },
  { bit := 13, status := bCnt + 0x1F4, mask := some (bCnt + 0x1FC), n := 128, stride := 0x200 },
  { bit := 13, status := bCnt + 0x30000, mask := none, n := 256 },
  { bit := 14, status := bEgs + 0x40, mask := some (bEgs + 0x44) },
  { bit := 15, status := bCut + 0x4, mask := some (bCut + 0x8) },
  { bit := 16, status := bRad + 0xC, mask := some (bRad + 0x10) },
  { bit := 17, status := bFec + 0x148, mask := some (bFec + 0x14C) },
  { bit := 18, status := bTrk + 0xC, mask := some (bTrk + 0x10) },
  { bit := 19, status := bFlt + 0x14, mask := some (bFlt + 0x18) },
  { bit := 20, status := bCmd + 0xC, mask := some (bCmd + 0x10) },
  { bit := 21, status := bStb + 0x18, mask := some (bStb + 0x1C) } ]

/-- Where the half-range bit of a statistics counter is gathered (R235): the half-range word and bit,
and the interrupt status word and bit that announce it, when there is one. -/
structure HalfRow where
  base : Nat
  /-- counters in a group -/
  n : Nat
  groups : Nat := 1
  gstride : Nat := 0x10000000
  half : Nat
  hstride : Nat := 0x10000000
  /-- bit of counter 0 of the group -/
  bit0 : Nat := 0
  int : Option (Nat × Nat) := none
  deriving DecidableEq, Repr, Inhabited

def halfRows : List HalfRow := [
  { base := bSrt + 0x20000, n := 4096, half := 0, int := some (bSrt + 0xC, 3) },
  { base := bCnt, n := 62, groups := 128, gstride := 0x200, half := bCnt + 0x1F0, hstride := 0x200 },
  { base := bCnt + 0x20000, n := 64, groups := 128, gstride := 0x200, half := bCnt + 0x30000,
    hstride := 8 },
  { base := bStb + 0x100, n := 8, half := 0, int := some (bStb + 0x18, 0) },
  { base := bCut + 0x100, n := 12, half := bCut + 0x1F0, int := some (bCut + 0x4, 4) },
  { base := bRad + 0x10000, n := 6, groups := 384, gstride := 0x40, half := bRad + 0x10038,
    hstride := 0x40, int := some (bRad + 0xC, 4) },
  { base := bFec + 0x80, n := 24, half := bFec + 0x140, int := some (bFec + 0x148, 0) },
  { base := bTrk + 0x20, n := 4, half := bTrk + 0x40, int := some (bTrk + 0xC, 6) },
  { base := bTrk + 0x1020, n := 7, groups := 40, gstride := 0x100, half := bTrk + 0x1058,
    hstride := 0x100, int := some (bTrk + 0xC, 6) } ]

end Sys2Proof.Machine
end

