-- ==== Sys2Proof/Machine/Ops.lean ====
section
/-!
DEFINITION. The named operations every command is built from: sparse tables, bit fields and byte order,
register words, statistics counters (R235), the interrupt summary and vectors (R325, R330), and mailbox
notices (R305).
-/

namespace Sys2Proof.Machine

/-! ## Sparse tables -/

/-- The value at a key: an unlisted key holds the default. Log 2, DESIGN CHOICE. -/
def look {α : Type} [Inhabited α] : Table α → Nat → α
  | [], _ => default
  | (k', v) :: t, k => if k' = k then v else look t k

/-- The value at a key, or none where the key is not listed. -/
def look? {α : Type} : Table α → Nat → Option α
  | [], _ => none
  | (k', v) :: t, k => if k' = k then some v else look? t k

/-- Insert a value at its place in the rising order of keys, replacing what the key held. -/
def insert {α : Type} : Table α → Nat → α → Table α
  | [], k, v => [(k, v)]
  | (k', v') :: t, k, v =>
    if k = k' then (k, v) :: t
    else if k < k' then (k, v) :: (k', v') :: t
    else (k', v') :: insert t k v

/-- Remove a key, wherever it is listed. -/
def erase {α : Type} : Table α → Nat → Table α
  | [], _ => []
  | (k', v') :: t, k => if k = k' then erase t k else (k', v') :: erase t k

/-- Write a value; the default is not listed, so that equal tables are equal data. -/
def put {α : Type} [Inhabited α] [DecidableEq α] (t : Table α) (k : Nat) (v : α) : Table α :=
  if v = default then erase t k else insert t k v

/-- Change the value at a key. -/
def upd {α : Type} [Inhabited α] [DecidableEq α] (t : Table α) (k : Nat) (f : α → α) : Table α :=
  put t k (f (look t k))

/-- Change every listed value, dropping those that become the default; of a key listed twice the first
counts, as in a read. -/
def mapT {α : Type} [Inhabited α] [DecidableEq α] : Table α → (Nat → α → α) → Table α
  | [], _ => []
  | (k, v) :: t, f =>
    let r := erase (mapT t f) k
    if f k v = default then r else (k, f k v) :: r

/-- Insert before the first element that does not come before it. -/
def sortInsert {α : Type} (le : α → α → Bool) (x : α) : List α → List α
  | [] => [x]
  | y :: l => if le x y then x :: y :: l else y :: sortInsert le x l

/-- A list in rising order, equal elements in the order they had. -/
def sortBy {α : Type} (le : α → α → Bool) (l : List α) : List α := l.foldr (sortInsert le) []

/-- Keys strictly rise. -/
def rising {α : Type} : Table α → Bool
  | [] => true
  | [_] => true
  | (k, _) :: (k', v') :: t => decide (k < k') && rising ((k', v') :: t)

/-- The canonical form of a table: keys strictly rising and no default listed. -/
def canonical {α : Type} [Inhabited α] [DecidableEq α] (t : Table α) : Bool :=
  rising t && t.all fun kv => decide (kv.2 ≠ default)

/-! ## Bit fields and byte order (R10) -/

/-- Bits [hi:lo] of a number. -/
def bits (v hi lo : Nat) : Nat := v / 2 ^ lo % 2 ^ (hi + 1 - lo)

def bitOf (v i : Nat) : Bool := decide (v / 2 ^ i % 2 = 1)

def ofBool (b : Bool) : Nat := if b then 1 else 0

/-- A signed value of w bits. -/
def signedOf (w v : Nat) : Int := if v % 2 ^ w < 2 ^ (w - 1) then (v % 2 ^ w : Nat) else (v % 2 ^ w : Nat) - (2 ^ w : Nat)

/-- The w-bit two's complement of an integer. -/
def wrapInt (w : Nat) (i : Int) : Nat := (i % (2 ^ w : Nat)).toNat

/-- Least significant byte first. Log 12, DEDUCED. -/
def leBytes : Nat → Nat → List Byte
  | 0, _ => []
  | n + 1, v => BitVec.ofNat 8 v :: leBytes n (v / 256)

/-- Most significant byte first. Log 12, DEDUCED. -/
def beBytes (n v : Nat) : List Byte := (leBytes n v).reverse

def ofLe : List Byte → Nat
  | [] => 0
  | b :: t => b.toNat + 256 * ofLe t

def ofBe (l : List Byte) : Nat := ofLe l.reverse

/-- n bytes of a list from an offset, zeros beyond its end. -/
def slice (l : List Byte) (off n : Nat) : List Byte :=
  let t := (l.drop off).take n
  t ++ List.replicate (n - t.length) 0

/-- Log 12, DEDUCED. -/
def leAt (l : List Byte) (off n : Nat) : Nat := ofLe (slice l off n)

/-- Log 12, DEDUCED. -/
def beAt (l : List Byte) (off n : Nat) : Nat := ofBe (slice l off n)

/-- Indices of the bits set in a number, below n. -/
def setBitsOf (n v : Nat) : List Nat := (List.range n).filter (bitOf v ·)

/-- Keep a list whose length is at most n. -/
def capped {α : Type} (n : Nat) (l : List α) : List α := l.take n

/-! ## Register words -/

/-- The register table with one word written; a word at its reset value is not listed. -/
def regsPut (t : Table Word32) (a v : Nat) : Table Word32 :=
  if v % 2 ^ 32 = resetOf a then erase t (a / 4) else insert t (a / 4) (BitVec.ofNat 32 v)

/-- The 32-bit register word at byte address `a` of PF BAR0. -/
def regOf (t : Table Word32) (a : Nat) : Nat :=
  match look? t (a / 4) with
  | some v => v.toNat
  | none => resetOf a

def reg (s : State) (a : Nat) : Nat := regOf s.regs a

def setReg (s : State) (a v : Nat) : State := { s with regs := regsPut s.regs a v }

/-- Set bits of a word, as an event sets status bits. -/
def orReg (s : State) (a m : Nat) : State := { s with regs := regsPut s.regs a (regOf s.regs a ||| m) }

/-- Clear bits of a word. -/
def clrReg (s : State) (a m : Nat) : State :=
  { s with regs := regsPut s.regs a (regOf s.regs a - (regOf s.regs a &&& m)) }

/-- Add to a 32-bit counter that wraps to 0. -/
def incReg (s : State) (a n : Nat) : State := { s with regs := regsPut s.regs a (regOf s.regs a + n) }

/-- A 64-bit register as two words, low word first. -/
def reg64 (s : State) (a : Nat) : Nat := reg s a + 2 ^ 32 * reg s (a + 4)

def setReg64 (s : State) (a v : Nat) : State :=
  { s with regs := regsPut (regsPut s.regs a (v % 2 ^ 32)) (a + 4) (v / 2 ^ 32 % 2 ^ 32) }

/-! ## Statistics counters (R235) -/

def HalfRow.hits (h : HalfRow) (a : Nat) : Bool :=
  let d := a - h.base
  decide (h.base ≤ a) && decide (d / h.gstride < h.groups) && decide (d % h.gstride < 8 * h.n)

/-- The words in which a counter's half-range bit stands: (address, mask) pairs. -/
def halfTargets (a : Nat) : List (Nat × Nat) :=
  match halfRows.find? (·.hits a) with
  | none => []
  | some h =>
    let g := (a - h.base) / h.gstride
    let i := h.bit0 + (a - h.base) % h.gstride / 8
    let w := h.half + g * h.hstride
    (if h.half = 0 then [] else [(w + 4 * (i / 32), 2 ^ (i % 32))]) ++
      (match h.int with | some (r, b) => [(r, 2 ^ b)] | none => [])

def orAll (t : Table Word32) : List (Nat × Nat) → Table Word32
  | [] => t
  | (a, m) :: l => orAll (regsPut t a (regOf t a ||| m)) l

/-- Add n to the 48-bit counter at `a`; when bit 47 goes from 0 to 1 its half-range bit sets. -/
def bumpRegs (t : Table Word32) (a n : Nat) : Table Word32 :=
  let v := regOf t a + 2 ^ 32 * regOf t (a + 4)
  let v' := (v + n) % 2 ^ 48
  let t' := regsPut (regsPut t a (v' % 2 ^ 32)) (a + 4) (v' / 2 ^ 32)
  if bitOf v 47 = false ∧ bitOf v' 47 = true then orAll t' (halfTargets a) else t'

def bump (s : State) (a n : Nat) : State := { s with regs := bumpRegs s.regs a n }

/-- CNT_DEAD of a queue (R250). -/
def deadAddr (q : Nat) : Nat := bCnt + 0x20000 + 8 * q

def countDead (s : State) (q n : Nat) : State := bump s (deadAddr q) n

/-! ## Interrupts (R325, R330) -/

/-- The status row of a word, with the address of its mask word. -/
def StatusRow.maskAt (r : StatusRow) (a : Nat) : Option (Option Nat) :=
  let d := a - r.status
  if r.status ≤ a ∧ d % r.stride = 0 ∧ d / r.stride < r.n then some (r.mask.map (· + d)) else none

/-- The bit of DEV_INT_SUMMARY that one listed word sets. Log 13, DESIGN CHOICE. -/
def summaryOf (t : Table Word32) (a v : Nat) : Nat :=
  statusRows.foldl (fun acc r =>
    match r.maskAt a with
    | none => acc
    | some none => if v = 0 then acc else acc ||| 2 ^ r.bit
    | some (some m) => if v &&& regOf t m = v then acc else acc ||| 2 ^ r.bit) 0

/-- DEV_INT_SUMMARY (R325): status words reset to 0, so only listed words count. Log 231, DEDUCED. -/
def intSummary (s : State) : Nat :=
  s.regs.foldl (fun acc kv => acc ||| summaryOf s.regs (4 * kv.1) kv.2.toNat) 0

/-- Address of the MSI-X entry of a vector, and of its pending word. -/
def msixEntry (f v : Nat) : Nat := if f = 0 then 0x80000 + 16 * v else vfBase f + 0x2000 + 16 * v
/-- Log 14, DEDUCED. -/
def pbaWord (f v : Nat) : Nat := (if f = 0 then 0x90000 else vfBase f + 0x2800) + 4 * (v / 32)

/-- A vector whose mask bit is 1 is held in the pending-bit array. Log 14, DEDUCED. -/
def vecMasked (s : State) (f v : Nat) : Bool := bitOf (reg s (msixEntry f v + 12)) 0

/-- Send a vector of a function. Log 13, DESIGN CHOICE. Log 14, DEDUCED. -/
def sendVec (s : State) (f v : Nat) : State :=
  { s with
    regs := if vecMasked s f v then
        regsPut s.regs (pbaWord f v) (regOf s.regs (pbaWord f v) ||| 2 ^ (v % 32))
      else s.regs
    wire := if vecMasked s f v then s.wire else .msix f v :: s.wire }

/-- Vector 0 of PF fires when a bit of DEV_INT_SUMMARY goes from 0 to 1 between two states. Log 13, DESIGN
CHOICE. -/
def irq (s t : State) : State :=
  if intSummary t &&& intSummary s = intSummary t then t else sendVec t 0 0

/-- Record something driven outward. Log 15, DESIGN CHOICE. -/
def emit (s : State) (o : Out) : State := { s with wire := o :: s.wire }

/-! ## The tick -/

/-- Tick length in ac by PERIOD code (R19). -/
def periodAc (code : Nat) : Nat :=
  if code = 0 then 1500000 else if code = 1 then 750000 else if code = 2 then 375000
  else if code = 3 then 187500 else 93750

/-- Tick period in ns. -/
def periodNs (code : Nat) : Nat :=
  if code = 0 then 1000000 else if code = 1 then 500000 else if code = 2 then 250000
  else if code = 3 then 125000 else 62500

def periodCode (s : State) : Nat := bits (reg s bTck) 2 0
/-- L, the tick length in ac (TCK_LEN). -/
def tickLen (s : State) : Nat := periodAc (periodCode s)
def tickCount (s : State) : Nat := s.tick.count.toNat

/-- ns to ac, a tie going to the later ac (R7). -/
def nsToAc (ns : Nat) : Nat := (3 * ns + 1) / 2
/-- ac to whole ns, rounded down (R7). -/
def acToNs (ac : Nat) : Nat := 2 * ac / 3
/-- ac to whole ns, rounded up: RECALL_BY alone (R7, R265). -/
def acToNsUp (ac : Nat) : Nat := (2 * ac + 2) / 3

/-! ## Functions, contexts and partitions -/

def part (s : State) (p : Nat) : Part := look s.parts p
def ctxOf (s : State) (c : Nat) : Ctx := look s.ctxs c
def vfOf (s : State) (f : Nat) : Vf := look s.vfs f
def ttOf (s : State) (c : Nat) : Timetable := look s.tts c
def queueOf (s : State) (q : Nat) : Queue := look s.queues q
/-- The partition of a context (R294). -/
def partOfCtx (c : Nat) : Nat := c / 64
/-- The function bound to a partition: PF for class radio (R290). -/
def funcOfPart (s : State) (p : Nat) : Nat := if (part s p).radio then 0 else (part s p).func
def funcOfCtx (s : State) (c : Nat) : Nat := funcOfPart s (partOfCtx c)
/-- The key domain of a partition (R290, R212). -/
def domOfPart (s : State) (p : Nat) : Nat := funcOfPart s p
/-- Contexts of a partition that are not FREE, by rising context ID. -/
def ctxsOfPart (s : State) (p : Nat) : List Nat :=
  (s.ctxs.filter fun kv => decide (kv.1 / 64 = p) && decide (kv.2.state ≠ .free)).map (·.1)
/-- Partitions bound to a function. -/
def partsOfFunc (s : State) (f : Nat) : List Nat :=
  (s.parts.filter fun kv => decide (kv.2.state ≠ .free) && decide (funcOfPart s kv.1 = f)).map (·.1)
def partStateCode : PartState → Nat
  | .free => 0 | .opened => 1 | .resetting => 2 | .outOfService => 3 | .isolated => 4
def levelCode : Level → Nat
  | .full => 0 | .radioOnly => 1 | .beacon => 2

/-! ## Mailbox notices (R305) -/

/-- A notice: kind, partition or 0xFF, context or 0xFFFF, 16 bytes of detail. -/
structure Notice where
  kind : Nat
  part : Nat := 0xFF
  ctx : Nat := 0xFFFF
  detail : List Byte := []
  deriving DecidableEq, Repr, Inhabited

def noticeBytes (n : Notice) (postmark : Nat) (tick : Nat) : List Byte :=
  leBytes 1 n.kind ++ leBytes 1 n.part ++ leBytes 2 n.ctx ++ leBytes 2 postmark ++ leBytes 2 0 ++
    leBytes 8 tick ++ slice n.detail 0 16

/-- The mailbox page after one more notice: a full ring loses its oldest. -/
def pushNotice (m : Mailbox) (b : List Byte) : Mailbox :=
  let full := (m.nhead - m.ntail).toNat = 8
  { m with
    notices := insert m.notices (m.nhead.toNat % 8) b
    nhead := m.nhead + 1
    ntail := if full then m.ntail + 1 else m.ntail
    nlost := if full then m.nlost + 1 else m.nlost }

def vfNotice (v : Vf) (n : Notice) (tick : Nat) : Vf :=
  { v with mbx := pushNotice v.mbx (noticeBytes n v.postmark.toNat tick) }

/-- Write a notice to a function and send its vector 0. PF has no mailbox. -/
def notice (s : State) (f : Nat) (n : Notice) : State :=
  if f = 0 then s
  else sendVec { s with vfs := upd s.vfs f (vfNotice · n (tickCount s)) } f 0

/-- A notice to each assigned function. -/
def noticeAll (s : State) (n : Notice) : State :=
  (s.vfs.filter (·.2.assigned)).foldl (fun s kv => notice s kv.1 n) s

end Sys2Proof.Machine
end

