-- ==== Sys2Proof/Machine/Crypto.lean ====
section
/-!
DEFINITION. The published algorithms the spec names by their standards, on bytes: CRC-32 and CRC-32C,
AES and AES-GCM, key unwrap with padding (RFC 5649), SHA-256, SHA-384, HMAC and HKDF, and Philox-4x32-10
(R116). PRESUMED from those standards, since the spec cites them and does not reproduce them.
-/

namespace Sys2Proof.Machine

/-! ## CRC -/

def crcBit (poly c : BitVec 32) : BitVec 32 := if c.getLsbD 0 then (c >>> 1) ^^^ poly else c >>> 1

def crcByte (poly c : BitVec 32) (b : Byte) : BitVec 32 :=
  let step := crcBit poly
  step (step (step (step (step (step (step (step (c ^^^ b.setWidth 32))))))))

/-- Ethernet FCS value of a frame's bytes; it is sent least significant byte first. Log 64, PRESUMED. -/
def crc32 (l : List Byte) : BitVec 32 := l.foldl (crcByte 0xEDB88320) 0xFFFFFFFF ^^^ 0xFFFFFFFF

/-- CRC-32C, initial value and final XOR 0xFFFF_FFFF (R227). Log 64, PRESUMED. -/
def crc32c (l : List Byte) : BitVec 32 := l.foldl (crcByte 0x82F63B78) 0xFFFFFFFF ^^^ 0xFFFFFFFF

def fcsBytes (l : List Byte) : List Byte := leBytes 4 (crc32 l).toNat

/-- The last four bytes of a frame are the FCS of the rest. -/
def fcsOk (l : List Byte) : Bool :=
  decide (4 ≤ l.length) && decide (fcsBytes (l.take (l.length - 4)) = l.drop (l.length - 4))

/-! ## AES (FIPS 197) -/

def xtime (b : Byte) : Byte := (b <<< 1) ^^^ (if b.getLsbD 7 then 0x1B else 0)

def gfMul (a b : Byte) : Byte :=
  ((List.range 8).foldl (fun (acc : Byte × Byte) i =>
    (if b.getLsbD i then acc.1 ^^^ acc.2 else acc.1, xtime acc.2)) (0, a)).1

/-- a^254, the inverse in GF(2^8), with 0 to 0. -/
def gfInv (a : Byte) : Byte :=
  let a2 := gfMul a a
  let a4 := gfMul a2 a2
  let a8 := gfMul a4 a4
  let a16 := gfMul a8 a8
  let a32 := gfMul a16 a16
  let a64 := gfMul a32 a32
  let a128 := gfMul a64 a64
  gfMul (gfMul (gfMul a2 a4) (gfMul a8 a16)) (gfMul (gfMul a32 a64) a128)

def subByte (b : Byte) : Byte :=
  let i := gfInv b
  i ^^^ i.rotateLeft 1 ^^^ i.rotateLeft 2 ^^^ i.rotateLeft 3 ^^^ i.rotateLeft 4 ^^^ 0x63

def invSubByte (b : Byte) : Byte :=
  gfInv (b.rotateLeft 1 ^^^ b.rotateLeft 3 ^^^ b.rotateLeft 6 ^^^ 0x05)

def xorBytes (a b : List Byte) : List Byte := List.zipWith (· ^^^ ·) a b

/-- Key schedule: words of 4 bytes, newest first while it grows; nk words of key, n words in all. -/
def expandKey (key : List Byte) (rounds : Nat) : List (List Byte) :=
  let nk := key.length / 4
  let w0 := (List.range nk).map fun i => slice key (4 * i) 4
  let step := fun (acc : List (List Byte) × Byte) i =>
    let w := acc.1
    let prev := w.getD (i - 1) []
    let back := w.getD (i - nk) []
    let t := if i % nk = 0 then xorBytes ((prev.drop 1 ++ prev.take 1).map subByte) [acc.2, 0, 0, 0]
      else if 6 < nk ∧ i % nk = 4 then prev.map subByte
      else prev
    (w ++ [xorBytes back t], if i % nk = 0 then xtime acc.2 else acc.2)
  ((List.range (4 * (rounds + 1) - nk)).foldl (fun acc j => step acc (nk + j)) (w0, 1)).1

def roundKey (w : List (List Byte)) (r : Nat) : List Byte :=
  w.getD (4 * r) [] ++ w.getD (4 * r + 1) [] ++ w.getD (4 * r + 2) [] ++ w.getD (4 * r + 3) []

def shiftRows (b : List Byte) : List Byte := (List.range 16).map fun i => b.getD ((i + 4 * (i % 4)) % 16) 0
def invShiftRows (b : List Byte) : List Byte := (List.range 16).map fun i => b.getD ((i + 12 * (i % 4)) % 16) 0

def mixWith (m : List Byte) (b : List Byte) : List Byte :=
  (List.range 16).map fun i =>
    (List.range 4).foldl (fun acc k => acc ^^^ gfMul (m.getD ((k + 4 - i % 4) % 4) 0) (b.getD (i / 4 * 4 + k) 0)) 0

def aesRounds (key : List Byte) : Nat := key.length / 4 + 6

/-- Log 64, PRESUMED. -/
def aesEncrypt (key block : List Byte) : List Byte :=
  let n := aesRounds key
  let w := expandKey key n
  let b := (List.range (n - 1)).foldl (fun b r =>
    xorBytes (mixWith [2, 3, 1, 1] (shiftRows (b.map subByte))) (roundKey w (r + 1))) (xorBytes block (roundKey w 0))
  xorBytes (shiftRows (b.map subByte)) (roundKey w n)

def aesDecrypt (key block : List Byte) : List Byte :=
  let n := aesRounds key
  let w := expandKey key n
  let b := (List.range (n - 1)).foldl (fun b r =>
    mixWith [14, 11, 13, 9] (xorBytes ((invShiftRows b).map invSubByte) (roundKey w (n - 1 - r))))
    (xorBytes block (roundKey w n))
  xorBytes ((invShiftRows b).map invSubByte) (roundKey w 0)

/-! ## GCM (NIST SP 800-38D), 96-bit nonces -/

/-- One step of the product in GF(2^128), bit 127 of the number being the block's first bit. -/
def ghashMul (x h : BitVec 128) : BitVec 128 :=
  ((List.range 128).foldl (fun (acc : BitVec 128 × BitVec 128) i =>
    (if x.getLsbD (127 - i) then acc.1 ^^^ acc.2 else acc.1,
     if acc.2.getLsbD 0 then (acc.2 >>> 1) ^^^ (0xE1#128 <<< 120) else acc.2 >>> 1)) (0, h)).1

def toBlock (b : List Byte) : BitVec 128 := BitVec.ofNat 128 (ofBe (slice b 0 16))

def ghash (h : BitVec 128) (data : List Byte) : BitVec 128 :=
  (List.range ((data.length + 15) / 16)).foldl (fun y i => ghashMul (y ^^^ toBlock (data.drop (16 * i))) h) 0

def padded16 (l : List Byte) : List Byte := l ++ List.replicate ((16 - l.length % 16) % 16) 0

def gcmStream (key nonce : List Byte) (n : Nat) : List Byte :=
  ((List.range ((n + 15) / 16)).flatMap fun i => aesEncrypt key (nonce ++ beBytes 4 (i + 2))).take n

def gcmTag (key nonce aad ct : List Byte) : List Byte :=
  let h := toBlock (aesEncrypt key (List.replicate 16 0))
  let g := ghash h (padded16 aad ++ padded16 ct ++ beBytes 8 (8 * aad.length) ++ beBytes 8 (8 * ct.length))
  xorBytes (beBytes 16 g.toNat) (aesEncrypt key (nonce ++ beBytes 4 1))

/-- Ciphertext and 16-byte tag. Log 64, PRESUMED. -/
def gcmSeal (key nonce aad pt : List Byte) : List Byte × List Byte :=
  let ct := xorBytes pt (gcmStream key nonce pt.length)
  (ct, gcmTag key nonce aad ct)

/-- Plaintext, where the tag holds. Log 64, PRESUMED. -/
def gcmOpen (key nonce aad ct tag : List Byte) : Option (List Byte) :=
  if gcmTag key nonce aad ct = tag then some (xorBytes ct (gcmStream key nonce ct.length)) else none

/-! ## Key unwrap with padding (RFC 5649) -/

/-- The six rounds of unwrapping n semiblocks. -/
def unwrapRounds (kek : List Byte) (n : Nat) (c : List Byte) : List Byte :=
  let step := fun (acc : List Byte × List (List Byte)) (jt : Nat) =>
    let t := 6 * n - jt
    let i := (t - 1) % n
    let b := aesDecrypt kek (xorBytes acc.1 (beBytes 8 t) ++ acc.2.getD i [])
    (b.take 8, acc.2.set i (b.drop 8))
  let r0 := (List.range n).map fun i => slice c (8 * (i + 1)) 8
  let r := (List.range (6 * n)).foldl step (c.take 8, r0)
  r.1 ++ r.2.flatten

/-- The key bytes, where the integrity check holds. Log 64, PRESUMED. -/
def unwrapKey (kek c : List Byte) : Option (List Byte) :=
  if c.length % 8 ≠ 0 ∨ c.length < 16 then none
  else
    let n := c.length / 8 - 1
    let p := if n = 1 then aesDecrypt kek c else unwrapRounds kek n c
    let len := beAt p 4 4
    let body := p.drop 8
    if p.take 4 = [0xA6, 0x59, 0x59, 0xA6] ∧ 8 * (n - 1) < len ∧ len ≤ 8 * n ∧
        (body.drop len).all (· = 0) then some (body.take len) else none

/-! ## SHA-2 (FIPS 180-4) -/

/-- The first n of the primes below 410, by trial division. -/
def primes (n : Nat) : List Nat :=
  ((List.range 410).filter fun p => decide (2 ≤ p) && (List.range' 2 19).all fun d => decide (p ≤ d) || decide (p % d ≠ 0)).take n

/-- The first w bits of the fraction of the k-th root of a prime, bit by bit from the top. -/
def rootBits (k w p : Nat) : Nat :=
  (List.range (w + 5)).foldr (fun i r => if (r + 2 ^ i) ^ k ≤ p * 2 ^ (k * w) then r + 2 ^ i else r) 0 % 2 ^ w

/-- Round constants: fractions of the cube roots of the primes. -/
def roundConstants (n w : Nat) : List (BitVec w) := (primes n).map fun p => BitVec.ofNat w (rootBits 3 w p)

/-- Initial hash words: fractions of the square roots of eight primes. -/
def initialWords (skip w : Nat) : List (BitVec w) :=
  ((primes (skip + 8)).drop skip).map fun p => BitVec.ofNat w (rootBits 2 w p)

def shaPad (block lenBytes : Nat) (l : List Byte) : List Byte :=
  let z := (block - (l.length + 1 + lenBytes) % block) % block
  l ++ [0x80] ++ List.replicate z 0 ++ beBytes lenBytes (8 * l.length)

/-- The message schedule, oldest first. -/
def sched256 (b : List Byte) : List (BitVec 32) :=
  let w0 := (List.range 16).map fun i => BitVec.ofNat 32 (beAt b (4 * i) 4)
  (List.range 48).foldl (fun w j =>
    let t := j + 16
    let a := w.getD (t - 15) 0
    let e := w.getD (t - 2) 0
    let s0 := a.rotateRight 7 ^^^ a.rotateRight 18 ^^^ (a >>> 3)
    let s1 := e.rotateRight 17 ^^^ e.rotateRight 19 ^^^ (e >>> 10)
    w ++ [w.getD (t - 16) 0 + s0 + w.getD (t - 7) 0 + s1]) w0

def comp256 (h : List (BitVec 32)) (b : List Byte) : List (BitVec 32) :=
  let w := sched256 b
  let k := roundConstants 64 32
  let v := (List.range 64).foldl (fun v i =>
    let g := fun j => v.getD j 0
    let s1 := (g 4).rotateRight 6 ^^^ (g 4).rotateRight 11 ^^^ (g 4).rotateRight 25
    let ch := (g 4 &&& g 5) ^^^ (~~~(g 4) &&& g 6)
    let t1 := g 7 + s1 + ch + k.getD i 0 + w.getD i 0
    let s0 := (g 0).rotateRight 2 ^^^ (g 0).rotateRight 13 ^^^ (g 0).rotateRight 22
    let mj := (g 0 &&& g 1) ^^^ (g 0 &&& g 2) ^^^ (g 1 &&& g 2)
    [t1 + s0 + mj, g 0, g 1, g 2, g 3 + t1, g 4, g 5, g 6]) h
  List.zipWith (· + ·) h v

/-- Log 64, PRESUMED. -/
def sha256 (l : List Byte) : List Byte :=
  let m := shaPad 64 8 l
  ((List.range (m.length / 64)).foldl (fun h i => comp256 h (m.drop (64 * i))) (initialWords 0 32)).flatMap
    fun v => beBytes 4 v.toNat

def sched512 (b : List Byte) : List (BitVec 64) :=
  let w0 := (List.range 16).map fun i => BitVec.ofNat 64 (beAt b (8 * i) 8)
  (List.range 64).foldl (fun w j =>
    let t := j + 16
    let a := w.getD (t - 15) 0
    let e := w.getD (t - 2) 0
    let s0 := a.rotateRight 1 ^^^ a.rotateRight 8 ^^^ (a >>> 7)
    let s1 := e.rotateRight 19 ^^^ e.rotateRight 61 ^^^ (e >>> 6)
    w ++ [w.getD (t - 16) 0 + s0 + w.getD (t - 7) 0 + s1]) w0

def comp512 (h : List (BitVec 64)) (b : List Byte) : List (BitVec 64) :=
  let w := sched512 b
  let k := roundConstants 80 64
  let v := (List.range 80).foldl (fun v i =>
    let g := fun j => v.getD j 0
    let s1 := (g 4).rotateRight 14 ^^^ (g 4).rotateRight 18 ^^^ (g 4).rotateRight 41
    let ch := (g 4 &&& g 5) ^^^ (~~~(g 4) &&& g 6)
    let t1 := g 7 + s1 + ch + k.getD i 0 + w.getD i 0
    let s0 := (g 0).rotateRight 28 ^^^ (g 0).rotateRight 34 ^^^ (g 0).rotateRight 39
    let mj := (g 0 &&& g 1) ^^^ (g 0 &&& g 2) ^^^ (g 1 &&& g 2)
    [t1 + s0 + mj, g 0, g 1, g 2, g 3 + t1, g 4, g 5, g 6]) h
  List.zipWith (· + ·) h v

/-- Log 64, PRESUMED. -/
def sha384 (l : List Byte) : List Byte :=
  let m := shaPad 128 16 l
  (((List.range (m.length / 128)).foldl (fun h i => comp512 h (m.drop (128 * i))) (initialWords 8 64)).flatMap
    fun v => beBytes 8 v.toNat).take 48

/-! ## HMAC and HKDF with SHA-384 (RFC 2104, RFC 5869) -/

/-- Log 64, PRESUMED. -/
def hmac384 (key msg : List Byte) : List Byte :=
  let k := slice (if 128 < key.length then sha384 key else key) 0 128
  sha384 (k.map (· ^^^ 0x5C) ++ sha384 (k.map (· ^^^ 0x36) ++ msg))

/-- HKDF for outputs of at most 48 bytes. Log 64, PRESUMED. -/
def hkdf384 (salt ikm info : List Byte) (n : Nat) : List Byte :=
  let prk := hmac384 (if salt = [] then List.replicate 48 0 else salt) ikm
  (hmac384 prk (info ++ [1])).take n

/-! ## Philox-4x32-10 (R116) -/

def philoxRound (c : List (BitVec 32)) (k0 k1 : BitVec 32) : List (BitVec 32) :=
  let p0 : BitVec 64 := (c.getD 0 0).setWidth 64 * 0xD2511F53
  let p1 : BitVec 64 := (c.getD 2 0).setWidth 64 * 0xCD9E8D57
  [(p1 >>> 32).setWidth 32 ^^^ c.getD 1 0 ^^^ k0, p1.setWidth 32,
   (p0 >>> 32).setWidth 32 ^^^ c.getD 3 0 ^^^ k1, p0.setWidth 32]

/-- Output word 0 of the generator for a counter and a 64-bit key, bits [31:0] in key word 0. Log 64, PRESUMED.
-/
def philox (seed : BitVec 64) (c : List (BitVec 32)) : BitVec 32 :=
  ((List.range 10).foldl (fun c i =>
    philoxRound c (seed.setWidth 32 + BitVec.ofNat 32 i * 0x9E3779B9)
      ((seed >>> 32).setWidth 32 + BitVec.ofNat 32 i * 0xBB67AE85)) c).getD 0 0

end Sys2Proof.Machine
end

