-- ==== Sys2Proof/Machine/FaultOps.lean ====
section
/-!
DEFINITION. Taking a fault, as one shared operation: the record and where it is copied (R371, R372), the
response the part makes (R370), and what those responses are built from: a drop of level (R388), a brake
(R363), and the acceptance of a context reset (R383) and of a partition reset (R385, R387).
-/

namespace Sys2Proof.Machine

/-! ## Trunk messages the part sends itself (R356, R358, R360) -/

/-- The port that the active tables name for a device, or, for the old epoch, the tables that the swap put into
the shadow. Log 185, DEDUCED. -/
def routePort (s : State) (old : Bool) (dest : Nat) : Option Nat :=
  let e := if dest / 64 ≠ s.fabricId / 64 then reg s (bTrk + (if old then 0x20000 else 0x10000) + 4 * (dest / 64))
    else reg s (bTrk + (if old then 0x30100 else 0x30000) + 4 * (dest % 64))
  if bitOf e 7 ∧ bits e 5 0 < 40 then some (bits e 5 0) else none

/-- Channel of a message: ALARM on VC1, else the class base on the global leg and one more on the local
leg (R356). -/
def legVc (s : State) (m : TrunkMsg) : Nat :=
  if m.vc = 1 then 1
  else (if m.vc < 4 then 2 else 4) + (if m.dest / 64 ≠ s.fabricId / 64 then 0 else 1)

/-- Forward a message by the tables of its epoch, or drop and count it (R356, R357). A message for this part is
delivered to the inbox of port 0, from which the Stationmaster or the SC takes it. Log 185, DEDUCED. -/
def forward (s : State) (m : TrunkMsg) : State :=
  if m.dest = s.fabricId then s
  else if m.epoch ≠ s.routeEpoch ∧ s.drain = 0 then
    orReg (bump s (bTrk + 0x28) 1) (bTrk + 0xC) 0x20
  else
    match routePort s (decide (m.epoch ≠ s.routeEpoch)) m.dest with
    | none => orReg (bump s (bTrk + 0x28) 1) (bTrk + 0xC) 0x20
    | some p =>
      if (look s.trunk p).state ≠ .up then orReg (bump s (bTrk + 0x28) 1) (bTrk + 0xC) 0x20
      else if m.hops = 0 then orReg (bump s (bTrk + 0x30) 1) (bTrk + 0xC) 0x20
      else { s with trunk := upd s.trunk p fun tp =>
          { tp with out := tp.out ++ [{ m with hops := m.hops - 1, vc := legVc s m }] } }

/-- Body of an ALARM cell, bytes 16 to 91 (R360). No rule gives the byte order of its fields of several bytes: the model
writes them least significant byte first. Log 252, DESIGN CHOICE. -/
def alarmBody (s : State) (job : BitVec 64) (value member chips cause : Nat) : List Byte :=
  leBytes 8 job.toNat ++ leBytes 8 value ++ leBytes 1 member ++ leBytes 1 chips ++ leBytes 1 cause ++
    leBytes 1 (periodCode s) ++ leBytes 4 (reg s (bTck + 0xC)) ++ leBytes 4 s.tick.off ++
    List.replicate 48 0

def alarm (s : State) (dest type : Nat) (body : List Byte) : TrunkMsg :=
  { dest := dest, src := s.fabricId, hops := bits (reg s (bTrk + 0x4)) 20 16, type := type,
    epoch := s.routeEpoch, vc := 1, body := body }

/-- Send an ALARM message to each listed member of a job. -/
def sendAlarms (s : State) (dests : List Nat) (type : Nat) (body : List Byte) : State :=
  dests.foldl (fun s d => forward s (alarm s d type body)) s

/-! ## Brakes (R362, R363) -/

/-- The stop pass of a brake raised now (R363). -/
def stopPassNow (s : State) (t : Timetable) : Nat :=
  if t.job.state = .waiting then 0
  else if s.tick.off + t.report.brakeLead ≤ tickLen s - 1 then t.job.pass + 1 else t.job.pass + 2

/-- A brake reaches the member's job: the earliest stop pass takes effect, the first cause is recorded. -/
def jobBraked (j : Job) (p cause : Nat) : Job :=
  { j with
    state := .braked
    cause := if j.state = .braked then j.cause else cause
    stopPass := some (match j.stopPass with | some q => min p q | none => p) }

/-- Braking a job of context c: its state, TRK_INT_STATUS.BRAKE and the KIND 13 notice (R393). -/
def brakeHere (s : State) (c p cause : Nat) : State :=
  let s := { s with tts := upd s.tts c fun t => { t with job := jobBraked t.job p cause } }
  notice (orReg s (bTrk + 0xC) 0x2) (funcOfCtx s c)
    { kind := 13, part := partOfCtx c, ctx := c, detail := leBytes 8 cause ++ leBytes 8 p }

/-- Members of a job other than the listed indices. -/
def otherMembers (t : Timetable) (skip : List Nat) : List Nat :=
  (List.range t.report.members.length).filterMap fun i =>
    if i ∈ skip then none else t.report.members[i]?

/-- Raise a brake on the job of context c, unless it is braked already or there is none. -/
def raiseBrake (s : State) (c cause : Nat) : State :=
  let t := ttOf s c
  if t.report.chips ≤ 1 ∨ t.job.state = .none ∨ t.job.state = .braked then s
  else
    let p := stopPassNow s t
    let s := brakeHere (bump s (bTrk + 0x38) 1) c p cause
    sendAlarms s (otherMembers t [t.report.member]) 1
      (alarmBody s t.report.jobId p t.report.member t.report.chips cause)

/-! ## Swaps withheld (R178) -/

/-- The pending effect of an armed swap group of p. -/
def isSwapIn (p : Nat) (gone : SwapGroup → Bool) (gs : List SwapGroup) : Effect → Bool
  | .swapIn q tick slice => decide (q = p) && gs.any fun g => gone g && decide (g.tick = tick ∧ g.slice = slice)
  | _ => false

/-- Quadrants of the groups that a test picks. -/
def groupQuads (gone : SwapGroup → Bool) (gs : List SwapGroup) : BitVec 160 :=
  gs.foldl (fun m g => if gone g then m ||| g.qmask else m) 0

/-- Take armed swap groups of a partition back: their Sidings return to READY. Log 83, DEDUCED. Log 119,
DEDUCED. Log 120, DEDUCED. Log 121, DEDUCED. -/
def withhold (s : State) (p : Nat) (gone : SwapGroup → Bool) : State :=
  let gs := (look s.sdg p).groups
  if gs.any gone = false then s
  else
    { s with
      effects := s.effects.filter fun e => !isSwapIn p gone gs e.effect
      sdg := upd s.sdg p fun d => { d with groups := d.groups.filter fun g => !gone g }
      siding := mapT s.siding fun k v =>
        if k / 160 = p ∧ v = .armed ∧ (groupQuads gone gs).getLsbD (k % 160) then .ready else v
      regs := regsPut s.regs (bSdg + 0x24) (regOf s.regs (bSdg + 0x24) ||| 0x4) }

/-- Take every armed swap of a partition back. Log 119, DEDUCED. -/
def withholdAll (s : State) (p : Nat) : State := withhold s p fun _ => true

/-- Partitions of class tenant that are not FREE. -/
def tenantParts (s : State) : List Nat :=
  (s.parts.filter fun kv => decide (kv.2.state ≠ .free) && !kv.2.radio).map (·.1)

/-! ## Requests in flight (R270) -/

/-- Abandon the requests of binding b that fail a test; a reply not yet handed over is discarded. -/
def dropHolds (b : Binding) (gone : Hold → Bool) : Binding :=
  { b with holds := mapT b.holds fun _ h =>
      if h.used && gone h && h.verdict.isSome && !h.recallDue then {}
      else if h.used && gone h then
        { h with
          noReply := true
          ready := false
          reply := if h.reply = .none ∨ h.reply = .produced then .removed else h.reply }
      else h }

/-- A ready request that waits for its entry belongs to a binding of context c. -/
def readyFor (s : State) (c : Nat) (r : ReadyReq) : Bool :=
  match r.hold with
  | some (i, _) => decide ((look s.binds i).ctx = c)
  | none => false

/-- The results of context c are lost: none of its requests that has no results yet gets a reply, and their reservations
are released; verdict, bulk delivery and records go on (R270). -/
def dropReplies (s : State) (c : Nat) : State :=
  { s with
    binds := mapT s.binds fun _ b => if b.ctx = c then dropHolds b fun h => h.reply = .none else b
    queues := mapT s.queues fun _ q => if q.kind = 5 then { q with ready := q.ready.filter fun r => !readyFor s c r } else q }

/-! ## Level (R388, R389) -/

/-- Subports that carry a valid carrier (RAD_FH_SUBS). Log 157, DEDUCED. -/
def fronthaulSubs (s : State) : List (Nat × Nat) :=
  ((s.carriers.filter (·.2.valid)).map fun kv => (kv.2.port, kv.2.sub)).eraseDups

/-- Fronthaul goes quiet: those subports send nothing more (R286). Log 157, DEDUCED. -/
def goQuiet (s : State) : State :=
  let l := fronthaulSubs s
  { s with
    egress := l.foldl (fun e ps => upd e (ps.1 * 8 + ps.2) fun x => { x with quiet := true, current := none }) s.egress
    wire := (l.map fun ps => Out.quiet ps.1 ps.2) ++ s.wire
    regs := if l = [] then s.regs else regsPut s.regs (bRad + 0xC) (regOf s.regs (bRad + 0xC) ||| 0x8) }

/-- Contexts with an admitted timetable, by rising context ID, that satisfy a test. -/
def ctxsWhere (s : State) (f : Timetable → Bool) : List Nat :=
  (s.tts.filter fun kv => decide (kv.2.state ≠ .none) && f kv.2).map (·.1)

/-- A request decided and not yet entered. -/
def notEntered (h : Hold) : Bool := h.used && decide (h.stage ≤ 1) && !h.noReply

/-- A binding's requests as a drop of level leaves them: those not entered are gone with all that is theirs, and
replies not yet handed over are discarded (R270). -/
def levelDrops (b : Binding) : Binding :=
  let b := { b with holds := mapT b.holds fun _ h => if notEntered h then {} else h }
  let b := dropHolds b fun h => h.reply = .none ∨ h.reply = .produced
  if b.valid = false ∧ b.holds = [] then {} else b

/-- Requests decided and not entered are dropped into CNT_DEAD of their entry queue, and replies not yet handed over
are discarded (R270). -/
def dropUnentered (s : State) : State :=
  let lost := s.binds.foldl (fun acc kv =>
    acc ++ ((kv.2.holds.filter fun h => notEntered h.2).map fun _ => kv.2.entryQ)) []
  let s := lost.foldl (fun s q => countDead s q 1) s
  { s with
    binds := mapT s.binds fun _ b => levelDrops b
    queues := mapT s.queues fun _ q => if q.kind = 5 then { q with ready := q.ready.filter (·.hold.isNone) } else q }

/-- Drop to a lower level: the value, its KIND 5 notices, and what the drop does at once (R178, R270,
R286, R362, R389). What waits for the next boundary happens there. -/
def dropLevel (s : State) (lv : Level) : State :=
  if levelCode lv ≤ levelCode s.level then s
  else
    let s := noticeAll { s with level := lv } { kind := 5, detail := leBytes 1 (levelCode lv) }
    let s := (if lv = .beacon then s.sdg.map (·.1) else tenantParts s).foldl withholdAll s
    let s := (ctxsWhere s fun t => decide (t.report.chips > 1)).foldl (fun s c => raiseBrake s c 6) s
    let s := dropUnentered s
    if lv = .beacon then goQuiet s else s

/-! ## Accepting resets -/

/-- Accepted effects that a test cancels leave the queue of effects; each raises a KIND 15 notice to the
function that posted it, and for PF a fault-log entry naming the TOKEN (R379). Log 212, DEDUCED. -/
def addLog (s : State) (r : FaultRec) : State :=
  { s with
    fltSeq := s.fltSeq + 1
    fltLog := ({ r with seq := s.fltSeq + 1, tick := s.tick.count, off := s.tick.off } :: s.fltLog).take 1024
    regs := regsPut s.regs (bFlt + 0x14) (regOf s.regs (bFlt + 0x14) ||| 0x1) }

def srcFunc (s : State) : CmdSrc → Nat
  | .ring q => (queueOf s q).func
  | .station _ => 0

/-- Log 42, DEDUCED. -/
def cancelEffects (s : State) (gone : Pending → Bool) : State :=
  let out := s.effects.filter gone
  let s := { s with effects := s.effects.filter fun e => !gone e }
  out.foldl (fun s e =>
    if srcFunc s e.src = 0 then
      addLog s { code := 0, attrib := 3, func := some 0, locKind := 8, location := e.token.setWidth 128 }
    else notice s (srcFunc s e.src) { kind := 15, detail := leBytes 8 e.token.toNat }) s

/-- A context reset is accepted (R383, "Acceptance"): a withdrawal of its timetable, and a swap that adds it,
are cancelled (R178, R379). Log 97, DEDUCED. -/
def acceptCtxReset (s : State) (c : Nat) (auto : Bool) : State :=
  if (ctxOf s c).state = .resetting ∨ (ctxOf s c).state = .free then s
  else
    let s := raiseBrake s c 6
    let s := { s with
      ctxs := upd s.ctxs c fun x => { x with state := .resetting, stage := 1, auto := auto } }
    let s := incReg s (bRst + 0x14) 1
    let p := partOfCtx c
    let adds := fun (g : SwapGroup) => decide (c ∈ g.adds)
    withhold (cancelEffects s fun e =>
      decide (e.effect = .withdraw c) || isSwapIn p adds (look s.sdg p).groups e.effect) p adds

/-- Effects whose object is partition p and that its reset, or isolation, cancels (R431). -/
def effectOfPart (p : Nat) : Effect → Bool
  | .reserve q _ _ => decide (q = p)
  | .shuntStart q _ _ => decide (q = p)
  | .shuntStop q => decide (q = p)
  | .withdraw c => decide (c / 64 = p)
  | .resume c => decide (c / 64 = p)
  | .swapIn q _ _ => decide (q = p)
  | .fill q _ => decide (q = p)
  | .scan q _ => decide (q = p)
  | _ => false

/-- Fills, scans, swaps and shunting plans of a partition are aborted (R166). Log 121, DEDUCED. -/
def abortSdg (s : State) (p : Nat) : State :=
  { s with
    fills := s.fills.filter (·.part ≠ p)
    scans := s.scans.filter (·.part ≠ p)
    sdg := upd s.sdg p fun d => { ({} : PartSdg) with scanSeq := d.scanSeq }
    siding := mapT s.siding fun k v => if k / 160 = p ∧ v ≠ .none then .stale else v
    regs := if s.scans.any (·.part = p) then regsPut s.regs (bSdg + 0x24) (regOf s.regs (bSdg + 0x24) ||| 0x40)
      else s.regs }

/-- A partition's new state, its KIND 4 notice and PART_INT_STATUS.STATE_CHANGE. -/
def setPartState (s : State) (p : Nat) (st : PartState) : State :=
  let s := { s with parts := upd s.parts p fun x => { x with state := st } }
  notice (orReg s (bPart + 0x4) 0x2) (funcOfPart s p)
    { kind := 4, part := p, detail := leBytes 1 (partStateCode st) }

/-- Count an automatic partition reset (R387). -/
def escalatePart (s : State) (p : Nat) : State :=
  let s := incReg (incReg s (bFlt + 0x80 + 4 * p) 1) (bFlt + 0x50) 1
  let s := if bits (reg s (bFlt + 0x40)) 1 0 ≤ reg s (bFlt + 0x80 + 4 * p) then
      orReg { s with parts := upd s.parts p fun x => { x with escalated := true } } (bFlt + 0x14) 0x80
    else s
  if bits (reg s (bFlt + 0x44)) 3 0 ≤ reg s (bFlt + 0x50) then
    dropLevel (orReg s (bFlt + 0x14) 0x80) .radioOnly
  else s

/-- A partition reset is accepted (R385, stage Stop). -/
def acceptPartReset (s : State) (p : Nat) (auto : Bool) : State :=
  if (part s p).state = .resetting ∨ (part s p).state = .free then s
  else
    let s := (ctxsOfPart s p).foldl (fun s c => raiseBrake s c 6) s
    let s := cancelEffects s fun e => effectOfPart p e.effect
    let s := abortSdg s p
    let s := { s with
      parts := upd s.parts p fun x =>
        { x with stage := 1, auto := auto, stageTick := s.tick.count.toNat, resetNs := 0, resetOff := s.tick.off, escalated := false }
      quarantines := erase s.quarantines p }
    let s := setPartState s p .resetting
    let s := notice (incReg s (bRst + 0x10) 1) (funcOfPart s p)
      { kind := 9, part := p, detail := leBytes 1 (ofBool auto) }
    if auto then escalatePart s p else s

/-! ## Raising a fault -/

/-- To what a fault is attributed (R369). -/
inductive Named where
  | context (c : Nat)
  /-- suspects of a tile: partition, die, tile and their contexts -/
  | suspects (p die tile : Nat) (cs : List Nat)
  | partition (p : Nat)
  | function (f : Nat)
  | device
  deriving DecidableEq, Repr, Inhabited

/-- A fault to be raised. -/
structure FaultReq where
  code : Nat
  named : Named
  locKind : Nat := 0
  location : Nat := 0
  detail : Nat := 0
  off : Nat := 0
  deriving DecidableEq, Repr

/-- A context that has been braked, reset, isolated or stopped (R369). Log 120, DEDUCED. Log 130, DEDUCED. -/
def ctxStopped (s : State) (c : Nat) : Bool :=
  let t := ttOf s c
  decide ((ctxOf s c).state = .resetting) || decide (t.job.state = .braked) ||
    decide (t.state = .suspended) || decide (t.state = .faulted) ||
    decide ((part s (partOfCtx c)).state ≠ .opened)

/-- The fault is consequential (R369): recorded, with no action. -/
def isConseq (s : State) (code : Nat) : Named → Bool
  | .context c => decide (code = 45) || ctxStopped s c
  | .suspects p _ _ cs => decide ((part s p).state ≠ .opened) || cs.all (ctxStopped s ·)
  | .partition p => decide ((part s p).state ≠ .opened)
  | .function _ => false
  | .device => s.life.resetting

def isRadioNamed (s : State) : Named → Bool
  | .context c => (part s (partOfCtx c)).radio
  | .suspects p _ _ _ => (part s p).radio
  | .partition p => (part s p).radio
  | _ => false

/-- Log 212, DEDUCED. -/
def attribCode : Named → Nat
  | .context _ => 0 | .suspects _ _ _ _ => 1 | .partition _ => 2 | .function _ => 3 | .device => 3

/-- First 8 bytes of a timetable's digest, as a little-endian number. -/
def digest8 (t : Timetable) : BitVec 64 := BitVec.ofNat 64 (leAt t.report.digest 0 8)

/-- The record of R371 for context c of a fault. Log 212, DEDUCED. -/
def recCtx (s : State) (r : FaultRec) (c : Nat) : FaultRec :=
  { r with ctx := some c, part := some (partOfCtx c), func := some (funcOfCtx s c),
           postmark := (ctxOf s c).postmark, digest8 := digest8 (ttOf s c) }

/-- The identifier of the next suspect set, never 0 (R371). -/
def nextSuspectSet (s : State) : BitVec 16 := if s.suspectSeq + 1 = 0 then 1 else s.suspectSeq + 1

/-- The record of a fault as it enters the log. Log 212, DEDUCED. -/
def faultRec (s : State) (q : FaultReq) : FaultRec :=
  let r : FaultRec :=
    { code := q.code, attrib := attribCode q.named, conseq := isConseq s q.code q.named,
      radio := isRadioNamed s q.named, locKind := q.locKind, seq := s.fltSeq + 1, tick := s.tick.count,
      off := q.off, detail := BitVec.ofNat 32 q.detail, location := BitVec.ofNat 128 q.location }
  match q.named with
  | .context c => recCtx s r c
  | .suspects p _ _ cs =>
    { r with part := some p, func := some (funcOfPart s p), postmark := (vfOf s (funcOfPart s p)).postmark,
             suspectSet := nextSuspectSet s, suspects := min 8 cs.length }
  | .partition p =>
    { r with part := some p, func := some (funcOfPart s p), postmark := (vfOf s (funcOfPart s p)).postmark }
  | .function f => { r with func := some f, postmark := (vfOf s f).postmark }
  | .device => r

/-- Copy a record into a function's window (R372, R397), with the KIND 7 notice and vector 1. -/
def copyRec (s : State) (f : Nat) (r : FaultRec) : State :=
  if f = 0 then s
  else
    let s := { s with vfs := upd s.vfs f fun v =>
      { v with flt := { v.flt with
          recs := insert v.flt.recs (v.flt.head.toNat % 32) r
          head := v.flt.head + 1
          lost := if 32 ≤ (v.flt.head - v.flt.tail).toNat then v.flt.lost + 1 else v.flt.lost } } }
    let n : Notice :=
      { kind := 7, part := r.part.getD 0xFF, ctx := r.ctx.getD 0xFFFF,
        detail := leBytes 8 r.code ++ leBytes 8 r.seq.toNat }
    sendVec (notice s f n) f 1

/-- The functions whose windows receive a record, each with its copy. -/
def recCopies (s : State) (q : FaultReq) (r : FaultRec) : List (Nat × FaultRec) :=
  match q.named with
  | .suspects p _ _ cs => cs.map fun c => (funcOfPart s p, recCtx s r c)
  | .device => (s.vfs.filter (·.2.assigned)).map fun kv => (kv.1, r)
  | _ => match r.func with
    | some f => [(f, r)]
    | none => []

/-- A fault of a context counts in its record, and its first fault of the pass is its barrier (R158, R376). -/
def notedFault (s : State) (n : Named) : Table Timetable :=
  match n with
  | .context c =>
    if (ttOf s c).state = .none then s.tts
    else upd s.tts c fun t =>
      { t with faults := t.faults + 1, barrierTick := if t.barrierTick.isSome then t.barrierTick else some s.tick.count }
  | _ => s.tts

/-- Enter a record in the log and in the windows it names. -/
def recordFault (s : State) (q : FaultReq) : State :=
  let r := faultRec s q
  let s1 := { s with
    tts := notedFault s q.named
    fltSeq := s.fltSeq + 1
    fltLog := (r :: s.fltLog).take 1024
    suspectSeq := match q.named with | .suspects _ _ _ _ => nextSuspectSet s | _ => s.suspectSeq
    regs := regsPut s.regs (bFlt + 0x14) (regOf s.regs (bFlt + 0x14) ||| 0x1) }
  (recCopies s q r).foldl (fun s fr => copyRec s fr.1 fr.2) s1

/-- A quarantine opens for the suspects of a tile (R373); members of a job of several chips are reset. Log 89,
DEDUCED. Log 92, DEDUCED. -/
def openQuarantine (s : State) (p die tile : Nat) (cs : List Nat) : State :=
  let jobs := cs.filter fun c => decide ((ttOf s c).report.chips > 1)
  let s := jobs.foldl (fun s c => acceptCtxReset s c true) s
  let rest := cs.filter fun c => decide ((ttOf s c).report.chips ≤ 1)
  if rest = [] ∨ (look s.quarantines p).active then s
  else
    let q : Quarantine :=
      { active := true, die := die, tile := tile,
        quad := 4 * die + (tile / 128 * 2 + tile % 16 / 8), suspects := rest }
    { s with quarantines := put s.quarantines p q }

/-- The response to a fault that is not consequential (R370). Log 120, DEDUCED. -/
def respond (s : State) : Named → State
  | .context c =>
    let s := raiseBrake s c 1
    if (part s (partOfCtx c)).radio then withholdAll s (partOfCtx c) else acceptCtxReset s c true
  | .suspects p die tile cs => if (part s p).radio then withholdAll s p else openQuarantine s p die tile cs
  | .partition p => if (part s p).radio then withholdAll s p else acceptPartReset s p true
  | .function _ => s
  | .device => s

/-- Take a fault: the record, then the response unless it is consequential. -/
def raiseFault (s : State) (q : FaultReq) : State :=
  if isConseq s q.code q.named then recordFault s q else respond (recordFault s q) q.named

def raiseFaults (s : State) (l : List FaultReq) : State := l.foldl raiseFault s

end Sys2Proof.Machine
end

