-- ==== Sys2Proof/Machine/MemOps.lean ====
section
/-!
DEFINITION. The memory operations: lines and their sealing state (R193, R200–R208), the check of a
host-pool access against every byte it touches (R54, R56, R198, R209), and host-pool reads and writes. An
access to a sealed line takes its metadata with it in the same access (R194). Contents
stand as they open, with the TAG that the sealing of each line gave; no view ever sees a ciphertext (R196, R212).
-/

namespace Sys2Proof.Machine

/-- The canonical form of HBM contents: addresses strictly rising, and no byte that equals what an unlisted
address reads as, which is zero (R199, R405). Log 2, DESIGN CHOICE. Log 21, DEDUCED. -/
def Memory.wf (m : List Host.Cell) : Bool := canonical m

/-! ## Addresses -/

def lineKey (pc line : Nat) : Nat := pc * 2 ^ 24 + line
def byteKey (pc line b : Nat) : Nat := pc * 2 ^ 30 + 64 * line + b
def pageKey (pc page : Nat) : Nat := pc * 512 + page
/-- The page of a data line (R196). -/
def pageOfLine (line : Nat) : Nat := line / 32768
def pcOf (s : State) (pc : Nat) : Pc := look s.pcs pc
def pageAt (s : State) (pc page : Nat) : Page := look s.pages (pageKey pc page)
def lineAt (s : State) (pc line : Nat) : Line := look s.lines (lineKey pc line)
/-- Data lines of a pseudo-channel by mode (R193). -/
def dataLines (sealed : Bool) : Nat := if sealed then 11010048 else 12582912
def dataPages (sealed : Bool) : Nat := if sealed then 336 else 384
/-- Allocatable positions (R191). -/
def allocatable (pc : Nat) : Bool := decide (pc < 256) && decide (pc % 32 ≠ 31)

/-- The nonce of a line (R200). -/
def sealNonce (epoch pc line counter : Nat) : BitVec 96 :=
  BitVec.ofNat 96 (epoch * 2 ^ 64 + pc * 2 ^ 56 + line * 2 ^ 24 + counter)

/-- The metadata line and byte of a data line's entry (R193). -/
def metaPlace (line : Nat) : Nat × Nat := (11010048 + line / 8, 8 * (line % 8))
/-- First line of a sealed pseudo-channel's journals, which are not addressable: metadata ends before it (R193). -/
def journalLine : Nat := 12386304
/-- Data lines whose entries lie in a metadata line. -/
def entriesOf (n : Nat) : List Nat := (List.range 8).map (8 * (n - 11010048) + ·)

/-! ## Bytes of a line -/

/-- n bytes from a key. -/
def readBytes (m : List Host.Cell) (k : Nat) : Nat → List Byte
  | 0 => []
  | n + 1 => look m k :: readBytes m (k + 1) n

/-- Write bytes from a key on. -/
def writeBytes (m : List Host.Cell) (k : Nat) : List Byte → List Host.Cell
  | [] => m
  | b :: l => writeBytes (put m k b) (k + 1) l

def lineBytes (s : State) (pc line : Nat) : List Byte := readBytes s.mem (byteKey pc line 0) 64

/-! ## Sealing a line (R200, R201) -/

/-- The blank key's place among the domains; it belongs to none (R199). -/
def blankDom : Nat := 1024

/-- Domain whose key seals a page. -/
def sealDom (pg : Page) : Nat := if pg.blank then blankDom else pg.domain

/-- Key and epoch that a page's lines are sealed under: its own, or those of the rekey in progress. A page that still
shows the old generation is under the old key (R206). -/
def sealKey (s : State) (pg : Page) (rekeyed : Bool) : List Byte × Nat :=
  let d := look s.domains (sealDom pg)
  let gen := if rekeyed then pg.rekeyGen else pg.gen
  (Config.keyBytes (if gen = d.gen then d.memKey else d.oldKey.getD d.memKey) 32,
    if rekeyed then pg.rekeyEpoch else pg.epoch)

/-- A line sealed under a counter: its ciphertext, and TAG, bits [127:88] of the GCM tag (R200). Log 250, DEDUCED. -/
def sealLine (s : State) (pg : Page) (rekeyed : Bool) (pc line counter : Nat) (bytes : List Byte) :
    List Byte × BitVec 40 :=
  let k := sealKey s pg rekeyed
  let c := gcmSeal k.1 (beBytes 12 (sealNonce k.2 pc line counter).toNat) (leBytes 2 (sealDom pg % 1024)) bytes
  (c.1, BitVec.ofNat 40 (ofBe (c.2.take 5)))

/-! ## Sealing state -/

/-- The region uses its new epoch for a line below the rekey pointer (R204). -/
def belowPointer (pg : Page) (line : Nat) : Bool := pg.rekeying && decide (line % 32768 < pg.rekeyPtr)

/-- A line is sealed under a counter: the region's highest counter follows (R202), and a counter that
reaches the rekey mark puts the region in the queue (R204). -/
def notedCounter (pg : Page) (line c : Nat) : Page :=
  let pg := if belowPointer pg line then { pg with rekeyHi := max pg.rekeyHi c }
    else { pg with hi := max pg.hi c }
  if 0x800000 ≤ c ∧ pg.rekeying = false then { pg with rekeyWaiting := true } else pg

/-- The counter a full write takes (R201, R208): one more than the line's, or, where it clears poison, one
more than the region's highest counter of the epoch in use. -/
def nextCounter (pg : Page) (ln : Line) (line : Nat) : Nat :=
  if ln.poisoned then (if belowPointer pg line then pg.rekeyHi else pg.hi) + 1 else ln.counter + 1

/-- Poison a line (R201, R207). -/
def poison (s : State) (pc line : Nat) : State :=
  if (lineAt s pc line).poisoned then s
  else
    { s with
      lines := upd s.lines (lineKey pc line) fun l =>
        { l with poisoned := true, poisonTick := s.tick.count.setWidth 40, tag := none, ue := false }
      regs := regsPut (regsPut s.regs (bSeal + 0x20) (regOf s.regs (bSeal + 0x20) + 1)) (bSeal + 0x28)
        (regOf s.regs (bSeal + 0x28) ||| 0x2) }

/-- A memory fault (R210): MEM_ERR_LOG, the counters of its code, then the fault itself. Log 27, DEDUCED. -/
def memFault (s : State) (code : Nat) (who : Named) (pc line : Nat) : State :=
  let s := setReg64 s (bMem + 0x60)
    (code + pc % 256 * 2 ^ 8 + line % 2 ^ 24 * 2 ^ 16 + s.tick.count.toNat % 2 ^ 24 * 2 ^ 40)
  let s := if code = 32 then orReg (incReg s (bSeal + 0x1C) 1) (bSeal + 0x28) 0x1
    else if code = 35 then orReg (incReg s (bSeal + 0x24) 1) (bSeal + 0x28) 0x4
    else s
  raiseFault s { code := code, named := who, locKind := 2, location := pc % 256 + line % 2 ^ 24 * 2 ^ 8,
                 off := s.tick.off }

/-- An uncorrectable HBM error is counted (R215). -/
def countUe (s : State) : State := orReg (incReg s (bMem + 0x5C) 1) (bMem + 0x68) 0x1

/-- What a read of a line finds. -/
inductive LineRead where
  | good | poisoned | tagBad | plainUe
  deriving DecidableEq, Repr

/-- Stored TAG and the tag of the line as it opens agree (R200). -/
def tagHolds (s : State) (pc line : Nat) : Bool :=
  let l := lineAt s pc line
  match l.tag with
  | none => true
  | some t =>
    let pg := pageAt s pc (pageOfLine line)
    decide (t = (sealLine s pg (belowPointer pg line) pc line l.counter (lineBytes s pc line)).2)

/-- On-die ECC reports the line, or the metadata line of its entry, as uncorrectable. -/
def lineUe (s : State) (pc line : Nat) : Bool :=
  (lineAt s pc line).ue || ((pcOf s pc).sealed && (lineAt s pc (metaPlace line).1).ue)

def lineRead (s : State) (pc line : Nat) : LineRead :=
  let l := lineAt s pc line
  if (pcOf s pc).sealed then
    if l.poisoned then .poisoned else if lineUe s pc line || !tagHolds s pc line then .tagBad else .good
  else if l.ue then .plainUe else .good

/-- The metadata entry of a line: TAG in [63:24], COUNTER in [23:0], 0xFF_FFFF where it is poisoned (R201). -/
def metaEntry (s : State) (pc line : Nat) : BitVec 64 :=
  let l := lineAt s pc line
  let pg := pageAt s pc (pageOfLine line)
  if l.poisoned then BitVec.ofNat 64 (l.poisonTick.toNat * 2 ^ 24 + 0xFFFFFF)
  else BitVec.ofNat 64 ((l.tag.getD (sealLine s pg (belowPointer pg line) pc line l.counter (lineBytes s pc line)).2).toNat *
    2 ^ 24 + l.counter)

/-- What the stack holds of a line (R193): a plain line's bytes, a sealed line's ciphertext, a metadata line's eight
entries. -/
def storedLine (s : State) (pc n : Nat) : List Byte :=
  if (pcOf s pc).sealed = false then lineBytes s pc n
  else if n < 11010048 then
    let pg := pageAt s pc (pageOfLine n)
    (sealLine s pg (belowPointer pg n) pc n (lineAt s pc n).counter (lineBytes s pc n)).1
  else (entriesOf n).flatMap fun l => leBytes 8 (metaEntry s pc l).toNat

/-- A read of one line (R207, R210): its bytes, zeros after a fault, and whether it faulted. Log 21, DEDUCED. -/
def readLine (s : State) (who : Named) (pc line : Nat) : State × List Byte × Bool :=
  let zeros := List.replicate 64 (0 : Byte)
  match lineRead s pc line with
  | .good => (s, lineBytes s pc line, false)
  | .poisoned => (memFault s 33 who pc line, zeros, true)
  | .tagBad =>
    let s := if lineUe s pc line then countUe s else s
    (memFault (poison s pc line) 32 who pc line, zeros, true)
  | .plainUe => (memFault (countUe s) 37 who pc line, zeros, true)

/-- A full-line write: the line is sealed under its next counter (R200, R201, R204, R208). Log 21, DEDUCED. -/
def writeLine (s : State) (pc line : Nat) (bytes : List Byte) : State :=
  let pg := pageAt s pc (pageOfLine line)
  let c := nextCounter pg (lineAt s pc line) line
  { s with
    mem := writeBytes s.mem (byteKey pc line 0) (slice bytes 0 64)
    lines := if (pcOf s pc).sealed then put s.lines (lineKey pc line)
        { counter := c, tag := some (sealLine s pg (belowPointer pg line) pc line c (slice bytes 0 64)).2 }
      else put s.lines (lineKey pc line) {}
    pages := if (pcOf s pc).sealed then
        put s.pages (pageKey pc (pageOfLine line)) (notedCounter pg line c)
      else s.pages }

/-- A partial write of `bytes` from byte `b` of a line (R208). -/
def writePart (s : State) (who : Named) (pc line b : Nat) (bytes : List Byte) : State :=
  match lineRead s pc line with
  | .good =>
    let old := lineBytes s pc line
    let s' := { s with mem := writeBytes s.mem (byteKey pc line b) bytes }
    if (pcOf s pc).sealed then
      writeLine s pc line (old.take b ++ bytes ++ old.drop (b + bytes.length))
    else s'
  | .poisoned => memFault s 34 who pc line
  | .tagBad => memFault (poison (if lineUe s pc line then countUe s else s) pc line) 34 who pc line
  | .plainUe => memFault (countUe s) 37 who pc line

/-! ## Host-pool accesses (R198, R209) -/

def frameBytes : Nat := 2097152

/-- The pseudo-channel and page of a frame, where the page is in the Function state for f. -/
def framePage (s : State) (f frame : Nat) : Option (Nat × Nat) :=
  (s.pages.find? fun kv => decide (kv.2.kind = .function) && decide (kv.2.frame = some frame) &&
    decide (kv.2.owner = f)).map fun kv => (kv.1 / 512, kv.1 % 512)

/-- Frames an access touches. -/
def framesOf (addr len : Nat) : List Nat :=
  if len = 0 then []
  else (List.range ((addr + len - 1) / frameBytes - addr / frameBytes + 1)).map (· + addr / frameBytes)

/-- Every byte of the access lies in a page that function f may access (R209). Log 19, DEDUCED. Log 20, DEDUCED.
Log 38, DEDUCED. -/
def hostOk (s : State) (f addr len : Nat) : Bool := (framesOf addr len).all fun fr => (framePage s f fr).isSome

/-- Fault code of a rejected access: 36 within one page, 35 otherwise (R209). Log 20, DEDUCED. -/
def hostCode (addr len : Nat) : Nat := if (framesOf addr len).length ≤ 1 then 36 else 35

/-- Who an access of a function is named by: its context where one applies (R209). -/
def hostWho (f : Nat) : Option Nat → Named
  | some c => .context c
  | none => .function f

/-- Pseudo-channel, data line and byte of a host-pool address of f. -/
def hostPlace (s : State) (f addr : Nat) : Option (Nat × Nat × Nat) :=
  (framePage s f (addr / frameBytes)).map fun pp =>
    (pp.1, 32768 * pp.2 + addr % frameBytes / 64, addr % 64)

/-- The first byte of an access in a page that function f may not access. Log 20, DEDUCED. -/
def refusedByte (s : State) (f addr len : Nat) : Nat :=
  match (framesOf addr len).find? fun fr => (framePage s f fr).isNone with
  | some fr => max addr (frameBytes * fr)
  | none => addr

/-- The pseudo-channel and data line of a host-pool address, whoever owns its page: none where no page has its
frame. Log 20, DEDUCED. -/
def anyPlace (s : State) (a : Nat) : Nat × Nat :=
  match s.pages.find? fun kv => decide (kv.2.frame = some (a / frameBytes)) with
  | some kv => (kv.1 / 512, 32768 * (kv.1 % 512) + a % frameBytes / 64)
  | none => (0, 0)

/-- Reject an access whole (R209). Log 20, DEDUCED. -/
def rejectHost (s : State) (who : Named) (f addr len : Nat) : State :=
  let a := anyPlace s (refusedByte s f addr len)
  memFault s (hostCode addr len) who a.1 a.2

/-- Pieces of an access, one per line: (address, number of bytes). -/
def linePieces (addr len : Nat) : List (Nat × Nat) :=
  if len = 0 then []
  else (List.range ((addr + len - 1) / 64 - addr / 64 + 1)).map fun i =>
    let a := if i = 0 then addr else 64 * (addr / 64 + i)
    (a, min (addr + len) (64 * (addr / 64 + i + 1)) - a)

/-- Read a checked access piece by piece: the bytes, and whether any line faulted. -/
def readPieces (s : State) (who : Named) (f : Nat) : List (Nat × Nat) → State × List Byte × Bool
  | [] => (s, [], false)
  | (a, n) :: l =>
    match hostPlace s f a with
    | none => (s, [], true)
    | some (pc, line, b) =>
      let (s, bs, bad) := readLine s who pc line
      let (s, rest, bad') := readPieces s who f l
      (s, slice bs b n ++ rest, bad || bad')

/-- A host-pool read by function f (R209, R207): none where it is rejected whole. Log 19, DEDUCED. -/
def hostRead (s : State) (who : Named) (f addr len : Nat) : State × Option (List Byte × Bool) :=
  if hostOk s f addr len then
    let (s, bs, bad) := readPieces s who f (linePieces addr len)
    (s, some (bs, bad))
  else (rejectHost s who f addr len, none)

/-- Bytes as a read would find them, changing nothing: used where the part looks at PARAM data. -/
def peek (s : State) (f addr len : Nat) : List Byte :=
  (linePieces addr len).flatMap fun (a, n) =>
    match hostPlace s f a with
    | none => List.replicate n 0
    | some (pc, line, b) =>
      if lineRead s pc line = .good then slice (lineBytes s pc line) b n else List.replicate n 0

def writePieces (s : State) (who : Named) (f : Nat) : List (Nat × Nat) → List Byte → State
  | [], _ => s
  | (a, n) :: l, bytes =>
    match hostPlace s f a with
    | none => s
    | some (pc, line, b) =>
      let s := if n = 64 then writeLine s pc line (bytes.take 64) else writePart s who pc line b (bytes.take n)
      writePieces s who f l (bytes.drop n)

/-- A write to this line would take its counter from 0xFF_FFFE to the poison value, and the rekey pointer has
not passed it (R205). Log 23, DEDUCED. -/
def wouldStall (s : State) (pc line : Nat) : Bool :=
  (pcOf s pc).sealed && !(lineAt s pc line).poisoned &&
    decide (0xFFFFFE ≤ (lineAt s pc line).counter) &&
    !belowPointer (pageAt s pc (pageOfLine line)) line

def stallOf (s : State) (f : Nat) (l : List (Nat × Nat)) : Option (Nat × Nat) :=
  l.findSome? fun (a, _) =>
    match hostPlace s f a with
    | some (pc, line, _) => if wouldStall s pc line then some (pc, line) else none
    | none => none

/-- A host-pool write by function f (R209): performed, held under R205, or rejected whole. Log 19, DEDUCED. Log
23, DEDUCED. -/
def hostWrite (s : State) (f : Nat) (ctx : Option Nat) (addr : Nat) (bytes : List Byte) : State :=
  let who := hostWho f ctx
  if hostOk s f addr bytes.length then
    let ps := linePieces addr bytes.length
    match stallOf s f ps with
    | some (pc, line) =>
      orReg (incReg { s with stalls := s.stalls ++
          [{ pc := pc, line := line, func := f, ctx := ctx, addr := addr, bytes := bytes }] }
        (bSeal + 0x18) 1) (bSeal + 0x28) 0x8
    | none => writePieces s who f ps bytes
  else rejectHost s who f addr bytes.length

end Sys2Proof.Machine
end

