-- ==== Sys2Proof/Machine/QueueOps.lean ====
section
/-!
DEFINITION. Ring queues as the part drives them (R327–R330, R432): indices, lap parity, writing an entry,
vectors, statuses of commands (R333, R334), exit entries, tick-close records (R158) and barrier entries
(R377, R378).
-/

namespace Sys2Proof.Machine

/-! ## Indices -/

/-- Bytes of an entry by KIND (R327). -/
def entrySize (kind : Nat) : Nat := if kind = 3 ∨ kind = 7 then 64 else 32

/-- Entries of the ring. -/
def ringLen (q : Queue) : Nat := 2 ^ q.log2

/-- Producer minus consumer, modulo 2 × 2^n. -/
def occupancy (q : Queue) : Nat := (q.prod + 2 * ringLen q - q.cons) % (2 * ringLen q)

def nextIndex (q : Queue) (i : Nat) : Nat := (i + 1) % (2 * ringLen q)

/-- Host-pool address of the entry at an index. -/
def entryAddr (q : Queue) (i : Nat) : Nat := q.base + entrySize q.kind * (i % ringLen q)

/-- PHASE the part writes at an index: 1 on its first lap (R327). -/
def phaseOf (q : Queue) (i : Nat) : Nat := if i / ringLen q % 2 = 0 then 1 else 0

/-- The ring takes no further entry of the part's; a CPL ring keeps one for a barrier (R329). -/
def ringFull (q : Queue) : Bool :=
  decide ((if q.kind = 4 then ringLen q - 1 else ringLen q) ≤ occupancy q)

/-- Kinds whose entries the part announces by a vector (R330). -/
def announces (kind : Nat) : Bool := decide (kind ∈ [1, 2, 4, 6, 7])

/-! ## Writing entries -/

/-- A length that BUF_LEN may have. Log 141, DEDUCED. -/
def bufLenOk (n : Nat) : Bool := decide (n % 256 = 0) && decide (256 ≤ n) && decide (n ≤ 16384)

/-- Send the queue's vector if it is armed, and disarm it (R330). -/
def ringVector (s : State) (q : Nat) : State :=
  let x := queueOf s q
  if x.armed ∧ announces x.kind then
    sendVec { s with queues := upd s.queues q fun y =>
      { y with armed := false, announced := if y.kind = 1 ∨ y.kind = 2 then y.cons else y.prod } } x.func x.vec
  else s

/-- Write a whole entry at the producer index of a CPL, EXIT or CLOSE ring. -/
def writeProd (s : State) (q : Nat) (bytes : List Byte) : State :=
  let x := queueOf s q
  let s := hostWrite s x.func none (entryAddr x x.prod) bytes
  ringVector { s with queues := upd s.queues q fun y =>
    { y with prod := nextIndex y y.prod, entries := y.entries + 1 } } q

/-- Write a descriptor or status at the consumer index of an RX or TX ring. -/
def writeCons (s : State) (q : Nat) (bytes : List Byte) : State :=
  let x := queueOf s q
  let s := hostWrite s x.func none (entryAddr x x.cons) bytes
  ringVector { s with queues := upd s.queues q fun y =>
    { y with cons := nextIndex y y.cons, entries := y.entries + 1 } } q

/-- A result for a disabled or full ring is dropped whole and counted in CNT_DEAD (R432). -/
def offer (s : State) (q : Nat) (bytes : Queue → List Byte) : State :=
  let x := queueOf s q
  if x.enabled = false ∨ ringFull x ∨ x.barrier ≠ [] then countDead s q 1
  else writeProd s q (bytes x)

/-- The next transmit entry of a ring takes its status (R232): STATUS 0 sent, 1 malformed, 2 stale, 3 discarded
at a barrier; with the timestamp over its BUF_ADDR where one is due. -/
def txEntryDone (s : State) (q st : Nat) (stamp : Option Nat) : State :=
  let x := queueOf s q
  let b := peek s x.func (entryAddr x x.cons) 32
  let head := match stamp with
    | some t => leBytes 8 t ++ slice b 8 20
    | none => slice b 0 28
  writeCons s q (head ++ leBytes 1 (phaseOf x x.cons + 2 * st) ++ slice b 29 3)

/-! ## Entries -/

/-- An ENTRY or EXIT entry: payload, KIND, postmark, PHASE (R327). -/
def wordEntry (w : TWord) (kind : Nat) (postmark phase : Nat) : List Byte :=
  leBytes 20 w.payload.toNat ++ leBytes 4 kind ++ leBytes 4 postmark ++ leBytes 4 phase

/-- The word an ENTRY entry holds. -/
def entryWord (b : List Byte) : TWord :=
  { payload := BitVec.ofNat 160 (leAt b 0 20), kind := BitVec.ofNat 4 (leAt b 0x14 1) }

def exitEntry (s : State) (q : Nat) (w : TWord) (postmark : Nat) : State :=
  offer s q fun x => wordEntry w w.kind.toNat postmark (phaseOf x x.prod)

/-- A tick-close record (R158). -/
def recBytes (r : CloseRec) : List Byte :=
  leBytes 2 (r.type + 16 + ofBool r.last * 2 ^ 8 + ofBool r.closeMismatch * 2 ^ 9 + ofBool r.schedMismatch * 2 ^ 10
      + ofBool r.faulted * 2 ^ 11) ++
    leBytes 2 r.postmark.toNat ++
    leBytes 4 (r.ctx + r.ctx / 64 * 2 ^ 11 + ofBool r.radio * 2 ^ 16 + ofBool r.standing * 2 ^ 17
      + ofBool r.exactRed * 2 ^ 18) ++
    leBytes 8 r.tick.toNat ++ leBytes 4 r.closeAc ++ leBytes 4 r.flags.toNat ++ leBytes 8 r.schedCount ++
    leBytes 4 r.reqIn ++ leBytes 4 r.reqHeld ++ leBytes 4 r.idle ++ leBytes 4 r.hbmRd ++ leBytes 4 r.hbmWr ++
    leBytes 4 r.faults ++ leBytes 8 r.digest8.toNat

/-- Write a tick-close record to TTB_CTX_LAST and, where it can take it, to the tick-close queue (R157,
R432). -/
def writeRec (s : State) (c : Nat) (r : CloseRec) : State :=
  let s := { s with tts := upd s.tts c fun t => { t with last := r } }
  match (ttOf s c).closeQ with
  | some q => offer s q fun _ => recBytes r
  | none => s

/-- A barrier entry of an exit queue (R377): cause 1 context reset, 2 partition reset, 3 brake, 4
function-level reset. -/
def barrierEntry (tick enteredLost queuedLost c cause postmark phase : Nat) : List Byte :=
  wordEntry { payload := BitVec.ofNat 160 (ofLe (leBytes 8 tick ++ leBytes 4 enteredLost ++
    leBytes 4 queuedLost ++ leBytes 2 c ++ leBytes 2 cause)) } 15 postmark phase

/-- Write a barrier entry, or let it wait for the first free entry, behind those that wait already (R377, R379). -/
def writeBarrier (s : State) (q : Nat) (tick enteredLost queuedLost c cause postmark : Nat) : State :=
  let x := queueOf s q
  let b := barrierEntry tick enteredLost queuedLost c cause postmark (phaseOf x x.prod)
  if x.enabled = false ∨ ringFull x ∨ x.barrier ≠ [] then
    { s with queues := upd s.queues q fun y => { y with barrier := y.barrier ++ [b] } }
  else writeProd s q b

/-! ## Statuses of commands (R333, R334, R432) -/

/-- A status reply, its PHASE still open. -/
structure Status where
  opcode : Nat := 0
  status : Nat := 0
  postmark : Nat := 0
  agent : Nat := 0
  token : BitVec 64 := 0
  result0 : Nat := 0
  result1 : Nat := 0
  index : Nat := 0
  deriving DecidableEq, Repr, Inhabited

def statusBytes (t : Status) (phase : Nat) : List Byte :=
  leBytes 2 t.opcode ++ leBytes 2 t.status ++ leBytes 2 t.postmark ++ leBytes 1 t.agent ++ leBytes 1 0 ++
    leBytes 8 t.token.toNat ++ leBytes 8 t.result0 ++ leBytes 4 t.result1 ++
    leBytes 4 (phase + t.index % 2 ^ 16 * 2 ^ 16)

/-- The PHASE bit set in status bytes whose PHASE is open. -/
def withPhase (b : List Byte) (phase : Nat) : List Byte :=
  b.take 28 ++ [b.getD 28 0 ||| BitVec.ofNat 8 phase] ++ b.drop 29

/-! ## Station-bus frames (R244) -/

/-- The node address: fused, and not given by the spec. Log 50, DEDUCED. -/
def stationMac : Nat := 0

def stationEtype (s : State) : Nat := bits (reg s (bStb + 0x8)) 15 0

/-- A station-bus frame with its padding and FCS. Log 50, DEDUCED. -/
def stationFrame (s : State) (dest : Nat) (payload : List Byte) : List Byte :=
  let b := beBytes 6 dest ++ beBytes 6 stationMac ++ beBytes 2 (stationEtype s) ++ payload
  let b := b ++ List.replicate (60 - b.length) 0
  b ++ fcsBytes b

/-- Queue a frame of the part for the segment. -/
def stationQueue (s : State) (dest : Nat) (payload : List Byte) : State :=
  { s with station := { s.station with txq := s.station.txq ++ [stationFrame s dest payload] } }

/-- Write a status where the command came from: its completion ring, a kind 4 frame, or, while the ring is
disabled or full, the statuses that wait for it (R432). Log 50, DEDUCED. Log 51, DEDUCED. -/
def writeStatus (s : State) (src : CmdSrc) (t : Status) : State :=
  match src with
  | .station mac => stationQueue s mac.toNat ([4, 0, 0, 0] ++ statusBytes t 0)
  | .ring q =>
    let p := (queueOf s q).peer
    let x := queueOf s p
    if x.enabled = false ∨ ringFull x ∨ (queueOf s q).waitStatus ≠ [] then
      { s with queues := upd s.queues q fun y => { y with waitStatus := y.waitStatus ++ [statusBytes t 0] } }
    else writeProd s p (statusBytes t (phaseOf x x.prod))

end Sys2Proof.Machine
end

