-- ==== Sys2Proof/Machine/Parse.lean ====
section
/-!
DEFINITION. Frames as bytes: what the sorting office parses and matches (R225, R227, R228), checksums and
segmentation (R232, R234), and MACsec protection (R242).
-/

namespace Sys2Proof.Machine

/-! ## Parsing (R225) -/

/-- A 16-bit field in network order, where the frame contains it. -/
def be16? (b : List Byte) (off : Nat) : Option Nat := if off + 2 ≤ b.length then some (beAt b off 2) else none

def isTpid (v : Nat) : Bool := decide (v = 0x8100) || decide (v = 0x88A8)

/-- Tag control words of up to two VLAN tags, outer first. -/
def vlanTags (b : List Byte) : List Nat :=
  if isTpid (beAt b 12 2) && decide (18 ≤ b.length) then
    if isTpid (beAt b 16 2) && decide (22 ≤ b.length) then [beAt b 14 2, beAt b 18 2] else [beAt b 14 2]
  else []

/-- The network layer: 0 IPv4 or 1 IPv6, protocol, addresses and, where ports can follow, the offset of the
transport header. -/
structure Net where
  ver : Nat := 0
  proto : Nat := 0
  src : List Byte := []
  dst : List Byte := []
  l4 : Option Nat := none
  deriving DecidableEq, Repr, Inhabited

/-- TCP and UDP are read for ports, each where the frame contains it. -/
def hasPorts (proto : Nat) : Bool := decide (proto = 6) || decide (proto = 17)

/-- Bytes of an IPv4 header, options included. -/
def ipHdrLen (b : List Byte) (l3 : Nat) : Nat := 4 * (beAt b l3 1 % 16)

/-- The IPv4 header is whole: only then does a transport header follow it. -/
def ipHdrWhole (b : List Byte) (o : Nat) : Bool := decide (20 ≤ ipHdrLen b o) && decide (o + ipHdrLen b o ≤ b.length)

def parseV4 (b : List Byte) (o : Nat) : Option Net :=
  if b.length < o + 20 ∨ beAt b o 1 / 16 ≠ 4 then none
  else
    let proto := beAt b (o + 9) 1
    some { ver := 0, proto := proto, src := slice b (o + 12) 4, dst := slice b (o + 16) 4,
           l4 := if beAt b (o + 6) 2 % 8192 = 0 ∧ hasPorts proto ∧ ipHdrWhole b o then some (o + ipHdrLen b o) else none }

def parseV6 (b : List Byte) (o : Nat) : Option Net :=
  if b.length < o + 40 ∨ beAt b o 1 / 16 ≠ 6 then none
  else
    let proto := beAt b (o + 6) 1
    some { ver := 1, proto := proto, src := slice b (o + 8) 16, dst := slice b (o + 24) 16,
           l4 := if hasPorts proto then some (o + 40) else none }

/-- A parsed frame. -/
structure Parsed where
  tags : List Nat := []
  etype : Option Nat := none
  /-- offset after the EtherType -/
  l3 : Nat := 14
  net : Option Net := none
  sport : Option Nat := none
  dport : Option Nat := none
  /-- offset of the request header of a request frame -/
  req : Option Nat := none
  tenant : Option Nat := none
  model : Option Nat := none
  deriving DecidableEq, Repr, Inhabited

/-- The request header's place, if the frame is a request frame. -/
def reqPlace (reqEtype reqUdp etype l3 : Nat) (net : Option Net) (dport : Option Nat) : Option Nat :=
  if etype = reqEtype then some l3
  else match net with
    | some n => if reqUdp ≠ 0 ∧ n.proto = 17 ∧ dport = some reqUdp then n.l4.map (· + 8) else none
    | none => none

/-- Parse a frame, or as much of it as has arrived. -/
def parseFrame (reqEtype reqUdp : Nat) (b : List Byte) : Parsed :=
  let tags := vlanTags b
  let eo := 12 + 4 * tags.length
  match be16? b eo with
  | none => { tags := tags }
  | some et =>
    let net := if et = 0x0800 then parseV4 b (eo + 2) else if et = 0x86DD then parseV6 b (eo + 2) else none
    let l4 := net.bind (·.l4)
    let dport := l4.bind fun o => be16? b (o + 2)
    let req := reqPlace reqEtype reqUdp et (eo + 2) net dport
    { tags := tags, etype := some et, l3 := eo + 2, net := net, sport := l4.bind (be16? b ·), dport := dport,
      req := req, tenant := req.bind fun o => be16? b (o + 2), model := req.bind fun o => be16? b (o + 4) }

def parseIn (s : State) (b : List Byte) : Parsed :=
  parseFrame (bits (reg s (bSrt + 0x4)) 15 0) (bits (reg s (bSrt + 0x8)) 15 0) b

/-! ## Rules (R227, R228) -/

/-- Bits of a rule: [hi:lo] of the field that starts at a byte. -/
def ruleBits (r : BitVec 1024) (byte hi lo : Nat) : Nat := bits r.toNat (8 * byte + hi) (8 * byte + lo)

/-- Bytes of a rule. -/
def ruleBytes (r : BitVec 1024) (byte n : Nat) : List Byte := leBytes n (r.toNat / 2 ^ (8 * byte))

def ruleValid (r : BitVec 1024) : Bool := r.getLsbD 0
def ruleAction (r : BitVec 1024) : Nat := ruleBits r 0 3 1
def ruleG (r : BitVec 1024) : Nat := ruleBits r 0 6 4
def rulePorts (r : BitVec 1024) : Nat := ruleBits r 0 31 16
def ruleQueue (r : BitVec 1024) : Nat := ruleBits r 4 12 0
def ruleFunc (r : BitVec 1024) : Nat := ruleBits r 4 25 16
def ruleEn (r : BitVec 1024) (i : Nat) : Bool := r.getLsbD (64 + i)

/-- An enabled field matches; an absent one does not. -/
def fieldIs (en : Bool) (v : Option Nat) (ok : Nat → Bool) : Bool :=
  !en || match v with
    | some x => ok x
    | none => false

/-- An address lies in a prefix held in the first bytes of 16. -/
def prefixOk (plen : Nat) (want addr : List Byte) : Bool :=
  let n := 8 * addr.length
  decide (plen ≤ n) && decide (ofBe (want.take addr.length) / 2 ^ (n - plen) = ofBe addr / 2 ^ (n - plen))

/-- Bits of a rule that hold a field. -/
def ruleMask : BitVec 1024 :=
  BitVec.ofNat 1024 (0xFFFF007F + 0x03FF1FFF * 2 ^ 32 + 0x1FFF * 2 ^ 64 + 0x07FFFFFF * 2 ^ 96 +
    (2 ^ 48 - 1) * 2 ^ 128 + 0xFF01FFFF * 2 ^ 192 + 0xFFFF * 2 ^ 224 + (2 ^ 256 - 1) * 2 ^ 256 +
    (2 ^ 96 - 1) * 2 ^ 512 + 0xFFFF0000 * 2 ^ 608)

/-- The keys of the link layer: destination, tags, priority, EtherType. -/
def matchL2 (r : BitVec 1024) (p : Parsed) (b : List Byte) : Bool :=
  fieldIs (ruleEn r 0) (some 0) (fun _ => decide (ruleBytes r 0x10 6 = slice b 0 6)) &&
  fieldIs (ruleEn r 1) (p.tags[0]?) (fun t => decide (t % 4096 = ruleBits r 0xC 11 0)) &&
  fieldIs (ruleEn r 2) (p.tags[1]?) (fun t => decide (t % 4096 = ruleBits r 0xC 23 12)) &&
  fieldIs (ruleEn r 3) (p.tags[0]?) (fun t => decide (t / 8192 = ruleBits r 0xC 26 24)) &&
  fieldIs (ruleEn r 4) p.etype (fun e => decide (e = ruleBits r 0x18 15 0))

/-- The keys of the network and transport layers. -/
def matchL3 (r : BitVec 1024) (p : Parsed) : Bool :=
  let addr (f : Net → List Byte) (plen byte : Nat) : Bool :=
    match p.net with
    | some n => prefixOk plen (ruleBytes r byte 16) (f n)
    | none => false
  fieldIs (ruleEn r 5) (p.net.map (·.ver)) (fun v => decide (v = ruleBits r 0x18 16 16)) &&
  fieldIs (ruleEn r 6) (p.net.map (·.proto)) (fun v => decide (v = ruleBits r 0x18 31 24)) &&
  (!ruleEn r 7 || addr (·.dst) (ruleBits r 0x1C 7 0) 0x20) &&
  (!ruleEn r 8 || addr (·.src) (ruleBits r 0x1C 15 8) 0x30) &&
  fieldIs (ruleEn r 9) p.dport (fun v => decide (ruleBits r 0x40 15 0 ≤ v ∧ v ≤ ruleBits r 0x40 31 16)) &&
  fieldIs (ruleEn r 10) p.sport (fun v => decide (ruleBits r 0x44 15 0 ≤ v ∧ v ≤ ruleBits r 0x44 31 16))

/-- The request header's keys. -/
def matchReq (r : BitVec 1024) (p : Parsed) : Bool :=
  fieldIs (ruleEn r 11) p.tenant (fun v => decide (v = ruleBits r 0x48 15 0)) &&
  fieldIs (ruleEn r 12) p.model (fun v =>
    decide ((v ^^^ ruleBits r 0x48 31 16) &&& ruleBits r 0x4C 31 16 = 0))

def ruleMatches (r : BitVec 1024) (port : Nat) (p : Parsed) (b : List Byte) : Bool :=
  ruleValid r && bitOf (rulePorts r) port && matchL2 r p b && matchL3 r p && matchReq r p

/-- The valid rule of lowest index that matches. -/
def findRule (t : Table (BitVec 1024)) (port : Nat) (p : Parsed) (b : List Byte) : Option (Nat × BitVec 1024) :=
  t.find? fun kv => ruleMatches kv.2 port p b

def portBytes : Option Nat → List Byte
  | some v => beBytes 2 v
  | none => []

/-- FLOW_HASH (R228). -/
def flowHash (p : Parsed) (b : List Byte) : BitVec 32 :=
  match p.net with
  | some n => crc32c (n.src ++ n.dst ++ leBytes 1 n.proto ++ portBytes p.sport ++ portBytes p.dport)
  | none => crc32c (slice b 0 6 ++ slice b 6 6)

/-! ## Checksums -/

/-- Sum of 16-bit words in network order, an odd last byte padded with zero. -/
def wordSum : List Byte → Nat
  | [] => 0
  | [a] => 256 * a.toNat
  | a :: b :: l => 256 * a.toNat + b.toNat + wordSum l

/-- The ones' complement of the ones' complement sum. -/
def onesSum (n : Nat) : Nat := if n = 0 then 0 else (n - 1) % 65535 + 1
def checksum (b : List Byte) : Nat := 65535 - onesSum (wordSum b)

/-- Replace bytes at an offset. -/
def patch (b : List Byte) (off : Nat) (v : List Byte) : List Byte := b.take off ++ v ++ b.drop (off + v.length)

/-- Bytes of the transport segment, by the length that the IP header states. -/
def l4Len (b : List Byte) (l3 : Nat) (n : Net) (l4 : Nat) : Nat :=
  if n.ver = 0 then l3 + beAt b (l3 + 2) 2 - l4 else beAt b (l3 + 4) 2

def pseudo (n : Net) (len : Nat) : List Byte :=
  n.src ++ n.dst ++ (if n.ver = 0 then [0] ++ leBytes 1 n.proto ++ beBytes 2 len
    else beBytes 4 len ++ [0, 0, 0] ++ leBytes 1 n.proto)

/-- Offset of the checksum in a transport header. -/
def l4Sum (proto : Nat) : Nat := if proto = 6 then 16 else 6

/-- The frame contains the checksum of its transport header. -/
def hasL4Sum (b : List Byte) (n : Net) (l4 : Nat) : Bool := decide (l4 + l4Sum n.proto + 2 ≤ b.length)

/-- The IPv4 header checksum filled in. -/
def fillIp (b : List Byte) (p : Parsed) : List Byte :=
  match p.net with
  | some n =>
    if n.ver = 0 ∧ ipHdrWhole b p.l3 then
      let z := patch b (p.l3 + 10) [0, 0]
      patch z (p.l3 + 10) (beBytes 2 (checksum (slice z p.l3 (ipHdrLen b p.l3))))
    else b
  | none => b

/-- The transport checksum filled in; a UDP sum of zero is sent as ones. -/
def fillL4 (b : List Byte) (p : Parsed) : List Byte :=
  match p.net, p.net.bind (·.l4) with
  | some n, some l4 =>
    if hasL4Sum b n l4 then
      let z := patch b (l4 + l4Sum n.proto) [0, 0]
      let len := l4Len b p.l3 n l4
      let c := checksum (pseudo n len ++ slice z l4 len)
      patch z (l4 + l4Sum n.proto) (beBytes 2 (if n.proto = 17 ∧ c = 0 then 65535 else c))
    else b
  | _, _ => b

/-- IPv4, TCP and UDP checksums filled in. -/
def fillSums (b : List Byte) : List Byte :=
  let p := parseFrame 0x10000 0 b
  fillL4 (fillIp b p) p

/-- The IPv4 header checksum verifies; IPv6 has none. Log 139, DEDUCED. -/
def l3Ok (b : List Byte) (p : Parsed) : Bool :=
  match p.net with
  | some n => decide (n.ver = 1) || (ipHdrWhole b p.l3 && decide (checksum (slice b p.l3 (ipHdrLen b p.l3)) = 0))
  | none => false

/-- The transport checksum verifies, or UDP over IPv4 carries none. Log 139, DEDUCED. -/
def l4Ok (b : List Byte) (p : Parsed) : Bool :=
  match p.net, p.net.bind (·.l4) with
  | some n, some l4 =>
    let len := l4Len b p.l3 n l4
    hasL4Sum b n l4 && ((decide (n.ver = 0) && decide (n.proto = 17) && decide (beAt b (l4 + 6) 2 = 0)) ||
      decide (checksum (pseudo n len ++ slice b l4 len) = 0))
  | _, _ => false

/-! ## Segmentation (R234) -/

/-- Length of a transport header. -/
def l4HdrLen (b : List Byte) (n : Net) (l4 : Nat) : Nat := if n.proto = 6 then 4 * (beAt b (l4 + 12) 1 / 16) else 8

/-- The template is Ethernet, IP and a whole TCP or UDP header, and nothing more. Log 153, DEDUCED. -/
def templateOk (tpl : List Byte) : Bool :=
  let p := parseFrame 0x10000 0 tpl
  match p.net, p.net.bind (·.l4) with
  | some n, some l4 =>
    decide (l4 + l4HdrLen tpl n l4 = tpl.length) && decide ((if n.proto = 6 then 20 else 8) ≤ l4HdrLen tpl n l4)
  | _, _ => false

/-- A TCP flags byte in segment i of k. -/
def segFlags (f i k : Nat) : Nat :=
  let f := if i + 1 = k then f else f - (f &&& 0x09)
  if i = 0 then f else f - (f &&& 0x80)

/-- Segment i of k: the template with its fields fixed up, and its payload. Log 153, DEDUCED. -/
def segment (tpl payload : List Byte) (mss i k : Nat) : List Byte :=
  let p := parseFrame 0x10000 0 tpl
  match p.net, p.net.bind (·.l4) with
  | some n, some l4 =>
    let len := tpl.length + payload.length
    let b := tpl ++ payload
    let b := if n.ver = 0 then
        patch (patch b (p.l3 + 2) (beBytes 2 (len - p.l3))) (p.l3 + 4) (beBytes 2 ((beAt tpl (p.l3 + 4) 2 + i) % 65536))
      else patch b (p.l3 + 4) (beBytes 2 (len - (p.l3 + 40)))
    let b := if n.proto = 6 then
        patch (patch b (l4 + 4) (beBytes 4 ((beAt tpl (l4 + 4) 4 + i * mss) % 2 ^ 32))) (l4 + 13)
          (leBytes 1 (segFlags (beAt tpl (l4 + 13) 1) i k))
      else patch b (l4 + 4) (beBytes 2 (len - l4))
    fillSums b
  | _, _ => tpl ++ payload

/-- The segments of a send, with the payload up to the end of each. Log 153, DEDUCED. -/
def segments (send : List Byte) (hdrLen mss : Nat) : List (Nat × List Byte) :=
  let body := send.drop hdrLen
  let k := (body.length + mss - 1) / mss
  (List.range k).map fun i =>
    (min body.length (mss * (i + 1)), segment (send.take hdrLen) ((body.drop (mss * i)).take mss) mss i k)

/-- Pad to 60 bytes and append the FCS (R233). -/
def framed (b : List Byte) : List Byte :=
  let b := b ++ List.replicate (60 - b.length) 0
  b ++ fcsBytes b

/-! ## MACsec (R242), as IEEE 802.1AE lays it out -/

/-- A secure association's place: channels 0 to 31 receive, 32 transmits. -/
def sakKey (port sub chan an : Nat) : Nat := ((8 * port + sub) * 33 + chan) * 4 + an

/-- The frame carries a SecTAG. Log 147, UNVERIFIED. -/
def isSecured (b : List Byte) : Bool := decide (beAt b 12 2 = 0x88E5)

/-- Bytes of the SecTAG with its EtherType. Log 144, PRESUMED. -/
def secTagLen (b : List Byte) : Nat := if bitOf (beAt b 14 1) 5 then 16 else 8

/-- Log 145, DESIGN CHOICE. -/
def secSci (port sub : Nat) (b : List Byte) : Nat :=
  if bitOf (beAt b 14 1) 5 then beAt b 20 8 else (Config.impliedSci port sub).toNat

/-- Suites 0 and 1 are GCM-AES-128 and -256, 2 and 3 their XPN forms. Log 145, DESIGN CHOICE. -/
def secNonce (k : Sak) (sci pn : Nat) : List Byte :=
  if k.suite < 2 then beBytes 8 sci ++ beBytes 4 pn else slice (Config.xpnNonce k.key sci pn) 0 12

/-- Bytes of user data sent in clear. Log 145, DESIGN CHOICE. -/
def confBytes (port sub : Nat) : Nat :=
  if Config.confOffset port sub % 3 = 0 then 0 else if Config.confOffset port sub % 3 = 1 then 30 else 50

/-- Additional authenticated data and ciphertext of a secured frame of n tag bytes, under its E bit. Log 144,
PRESUMED. -/
def secParts (port sub : Nat) (b : List Byte) : List Byte × List Byte :=
  let n := 12 + secTagLen b
  let clear := if bitOf (beAt b 14 1) 3 then n + confBytes port sub else b.length
  (b.take clear, b.drop clear)

/-- Place of the receive association that a secured frame names by its channel and association number. -/
def rxSakKey (port sub : Nat) (b : List Byte) : Nat :=
  sakKey port sub (Config.sciChannel port sub (secSci port sub b) % 32) (beAt b 14 1 % 4)

def rxSak (s : State) (port sub : Nat) (b : List Byte) : Option Sak := look? s.saks (rxSakKey port sub b)

/-- Packet number of a secured frame under an association: the SecTAG's, and under an XPN suite the number with those
low 32 bits that lies nearest the one expected next. Log 144, PRESUMED. -/
def secPn (k : Sak) (b : List Byte) : Nat :=
  let lo := beAt b 16 4
  let near := k.nextPn / 2 ^ 32 * 2 ^ 32 + lo
  if k.suite < 2 then lo
  else if near + 2 ^ 31 ≤ k.nextPn then near + 2 ^ 32
  else if k.nextPn + 2 ^ 31 < near ∧ 2 ^ 32 ≤ near then near - 2 ^ 32
  else near

/-- A packet number below the replay window, which reaches back from the number expected next. Log 144, PRESUMED. -/
def secLate (port sub : Nat) (k : Sak) (b : List Byte) : Bool :=
  decide (secPn k b + Config.replayWindow port sub % (2 ^ 30 + 1) < k.nextPn)

/-- Plaintext of a secured frame, without its SecTAG. -/
def secPlain (port sub : Nat) (b : List Byte) (k : Sak) : List Byte :=
  let pt := (gcmSeal k.key (secNonce k (secSci port sub b) (secPn k b)) (secParts port sub b).1 (secParts port sub b).2).1
  let all := (secParts port sub b).1 ++ pt
  all.take 12 ++ all.drop (12 + secTagLen b)

/-- Plaintext of a secured frame (without FCS) that passes its integrity check. Log 144, PRESUMED. -/
def secOpen (s : State) (port sub : Nat) (b : List Byte) : Option (List Byte) :=
  let body := b.take (b.length - 16)
  let icv := b.drop (b.length - 16)
  match rxSak s port sub b with
  | some k =>
    if gcmTag k.key (secNonce k (secSci port sub b) (secPn k b)) (secParts port sub body).1 (secParts port sub body).2 = icv then
      some (secPlain port sub body k)
    else none
  | none => none

/-- A secured frame that passed moves the number expected next past its own. Log 144, PRESUMED. -/
def secTaken (s : State) (port sub : Nat) (b : List Byte) : State :=
  match rxSak s port sub b with
  | some k => { s with saks := put s.saks (rxSakKey port sub b) { k with nextPn := max k.nextPn (secPn k b + 1) } }
  | none => s

/-- What the sorting office sees of bytes received so far: decrypted where they are secured. Log 140, DEDUCED.
-/
def clearBytes (s : State) (port sub : Nat) (b : List Byte) : List Byte :=
  if isSecured b then
    match rxSak s port sub b with
    | some k => secPlain port sub b k
    | none => b
  else b

/-- Bytes that MACsec adds before the data, and after it, in a received frame. Log 144, PRESUMED. -/
def secLead (b : List Byte) : Nat := if isSecured b then secTagLen b else 0
/-- Log 144, PRESUMED. -/
def icvLen (b : List Byte) : Nat := if isSecured b then 16 else 0

/-- The transmit association in use on a subport: its number and itself. Log 146, DEDUCED. -/
def txSak (s : State) (port sub : Nat) : Option (Nat × Sak) :=
  ((List.range 4).filterMap fun an => (look? s.saks (sakKey port sub 32 an)).map fun k => (an, k)).find? (·.2.used)

/-- A frame (with FCS) protected for transmission under a packet number. Log 144, PRESUMED. -/
def secSeal (port sub an : Nat) (k : Sak) (frame : List Byte) : List Byte :=
  let b := frame.take (frame.length - 4)
  let data := b.drop 12
  let sci := (Config.ownSci port sub).toNat
  let tag := beBytes 2 0x88E5 ++ leBytes 1 (0x2C + an) ++ leBytes 1 (if data.length < 48 then data.length else 0) ++
    beBytes 4 k.nextPn ++ beBytes 8 sci
  let aad := b.take 12 ++ tag ++ data.take (confBytes port sub)
  let r := gcmSeal k.key (secNonce k sci k.nextPn) aad (data.drop (confBytes port sub))
  let x := aad ++ r.1 ++ r.2
  x ++ fcsBytes x

/-- A frame's length on the wire, MACsec included (R237). -/
def wireLen (s : State) (port sub : Nat) (b : List Byte) : Nat :=
  b.length + if (txSak s port sub).isSome then 32 else 0

end Sys2Proof.Machine
end

