-- ==== Sys2Proof/Machine/RxRing.lean ====
section
/-!
DEFINITION. Delivery into a receive ring (R224, R231): the posted buffers a delivery takes, the data, and the
descriptors.
-/

namespace Sys2Proof.Machine

/-- What the descriptors of one delivery say beside lengths. -/
structure RxInfo where
  stamp : Nat := 0
  trunc : Bool := false
  fcsErr : Bool := false
  csumDone : Bool := false
  l3Ok : Bool := false
  l4Ok : Bool := false
  tsValid : Bool := false
  req : Bool := false
  port : Nat := 0
  sub : Nat := 0
  rule : Option Nat := none
  wireLen : Nat := 0
  tci : Nat := 0
  etype : Nat := 0
  hash : Nat := 0
  deriving DecidableEq, Repr, Inhabited

/-- A posted buffer: its index, address and length. -/
structure RxBuf where
  index : Nat := 0
  addr : Nat := 0
  len : Nat := 0
  deriving DecidableEq, Repr, Inhabited

/-- The posted buffers, from an index on, that hold `need` bytes: none where those posted do not suffice. Log
141, DEDUCED. -/
def takeBuffers (s : State) (x : Queue) (i need : Nat) : Nat → Option (List RxBuf)
  | 0 => if need = 0 then some [] else none
  | n + 1 =>
    if need = 0 then some []
    else
      let e := peek s x.func (entryAddr x i) 32
      let len := leAt e 8 2
      if bufLenOk len then
        (takeBuffers s x (nextIndex x i) (need - len) n).map fun l => { index := i, addr := leAt e 0 8, len := len } :: l
      else none

/-- The bytes of a descriptor (R231). Its timestamp outside the first entry, and its rule where none matched,
are not stated: free values. Log 138, DEDUCED. Log 139, DEDUCED. -/
def rxDescriptor (s : State) (x : Queue) (m : RxInfo) (b : RxBuf) (len : Nat) (sop eop : Bool) : List Byte :=
  leBytes 8 (if sop then m.stamp else (Config.freeBits s.fresh 64).toNat) ++ leBytes 2 b.len ++ leBytes 2 len ++
    leBytes 4 (phaseOf x b.index + 2 * ofBool sop + 4 * ofBool eop + 8 * ofBool m.trunc + 16 * ofBool m.fcsErr +
      32 * ofBool m.csumDone + 64 * ofBool m.l3Ok + 128 * ofBool m.l4Ok + 256 * ofBool m.tsValid + 512 * ofBool m.req +
      m.port * 2 ^ 16 + m.sub * 2 ^ 20) ++
    leBytes 2 (match m.rule with
      | some r => r % 4096
      | none => 2 ^ 15 + (Config.freeBits s.fresh 12).toNat) ++
    leBytes 2 (min m.wireLen 65535) ++ leBytes 2 m.tci ++ leBytes 2 m.etype ++ leBytes 4 m.hash ++
    leBytes 2 (vfOf s x.func).postmark.toNat ++ leBytes 2 0

/-- The pieces of a delivery: buffer and its bytes. -/
def rxPieces : List RxBuf → List Byte → List (RxBuf × List Byte)
  | [], _ => []
  | b :: l, bytes => (b, bytes.take b.len) :: rxPieces l (bytes.drop b.len)

/-- Write the data of a delivery. -/
def writeData (s : State) (f : Nat) (l : List (RxBuf × List Byte)) : State :=
  l.foldl (fun s p => hostWrite s f none p.1.addr p.2) s

/-- Write the descriptors, the first entry's last (R224). -/
def writeDescs (s : State) (x : Queue) (m : RxInfo) (l : List (RxBuf × List Byte)) : State :=
  let one (s : State) (p : RxBuf × List Byte) (sop eop : Bool) : State :=
    { hostWrite s x.func none (entryAddr x p.1.index) (rxDescriptor s x m p.1 p.2.length sop eop) with
      fresh := s.fresh + 1 }
  match l with
  | [] => s
  | p :: rest =>
    let s := (rest.zipIdx).foldl (fun s qi => one s qi.1 false (decide (qi.2 + 1 = rest.length))) s
    one s p true rest.isEmpty

/-- Deliver bytes to a receive queue, or drop them whole into its dead-letter counter (R224): the state, and
whether they were delivered. Log 141, DEDUCED. -/
def deliver (s : State) (q : Nat) (m : RxInfo) (bytes : List Byte) : State × Bool :=
  let x := queueOf s q
  if x.kind = 1 ∧ x.enabled then
    match takeBuffers s x x.cons bytes.length (occupancy x) with
    | some (b :: l) =>
      let ps := rxPieces (b :: l) bytes
      let s := writeDescs (writeData s x.func ps) x m ps
      (ringVector { s with queues := upd s.queues q fun y =>
        { y with cons := (ps.foldl (fun i _ => nextIndex x i) y.cons), entries := y.entries + ps.length } } q, true)
    | _ => (countDead s q 1, false)
  else (countDead s q 1, false)

end Sys2Proof.Machine
end

