-- ==== Sys2Proof/Machine/CmdOps.lean ====
section
/-!
DEFINITION. How an agent takes a command (R329, R334, R335, R433): when it may, the checks that give the
general codes in their order, the body of the opcode, and the status. Every command packet row of the
table goes through `takeCommand`.
-/

namespace Sys2Proof.Machine

/-! Status codes (R337). -/
def stOk : Nat := 0x0
def stBadOpcode : Nat := 0x1
def stBadParam : Nat := 0x2
def stNotPermitted : Nat := 0x3
def stStale : Nat := 0x4
def stBusy : Nat := 0x5
def stConflict : Nat := 0x6
def stLevel : Nat := 0x7
def stReservedId : Nat := 0x8
def stState : Nat := 0x9
def stQuota : Nat := 0xA
def stLate : Nat := 0xB
def stInUse : Nat := 0xC
def stNoResource : Nat := 0xD
def stDigest : Nat := 0xE
def stMismatch : Nat := 0xF
def stAddress : Nat := 0x10
/-- PLAN codes 1–6. -/
def stPlan (n : Nat) : Nat := 0x300 + n
def stRow (n : Nat) : Nat := 0x100 + n

/-- What a command answers: its status, or none yet (an E command that finishes later), and the state. -/
structure Reply where
  status : Nat := 0
  result0 : Nat := 0
  result1 : Nat := 0
  later : Bool := false
  state : State

def accept (s : State) : Reply := { state := s }
def acceptAt (s : State) (r0 r1 : Nat) : Reply := { result0 := r0, result1 := r1, state := s }
def refuse (s : State) (status : Nat) : Reply := { status := status, state := s }
def refuseAt (s : State) (status r0 r1 : Nat) : Reply :=
  { status := status, result0 := r0, result1 := r1, state := s }
/-- Log 51, DEDUCED. -/
def finishLater (s : State) : Reply := { later := true, state := s }

/-- An opcode of R336: its agent, the views it is accepted from and whether it takes a place among the
accepted commands whose effect is still to come, or among the activities. -/
structure OpRow where
  opcode : Nat
  /-- 1 Stationmaster, 2 SC, 3 hardware, 4 always-on domain -/
  agent : Nat
  fromT : Bool := false
  stationOnly : Bool := false
  /-- accepted at beacon (R389) -/
  atBeacon : Bool := false
  pends : Bool := false
  activity : Bool := false
  deriving DecidableEq, Repr, Inhabited

/-- The function a command is posted by: a station-bus command acts as PF (R335). -/
def cmdFunc (s : State) (src : CmdSrc) : Nat := srcFunc s src

/-- A command from this source has been taken and its status is not yet written (R334). Log 41, DEDUCED. -/
def outstanding (s : State) (src : CmdSrc) : Bool :=
  s.pages.any (fun kv => match kv.2.waiting with | some (w, _, _) => decide (w = src) | none => false) ||
  s.lib.any (fun kv => kv.2.writing && decide (kv.2.src = src)) ||
  s.effects.any (fun e => decide (e.src = src) && match e.effect with | .attest _ _ _ => true | .levelFull => true | _ => false)

/-- The management cores and the host monitor run: from the end of boot stage 4 on (R402). Log 34, DEDUCED. Log
35, DEDUCED. -/
def coresRun (s : State) : Bool :=
  decide (s.life.stage = .train) || decide (s.life.stage = .restore) || decide (s.life.stage = .done)

/-- The agent takes commands: the firmware agents once the boot has restored what they act on (R402, R295), the
always-on domain always (R408). Log 34, DEDUCED. Log 35, DEDUCED. -/
def agentUp (s : State) (agent : Nat) : Bool :=
  if agent = 4 then true
  else if s.life.resetting ∨ s.life.poweringOff then false
  else if agent = 2 ∧ s.life.scPaused then false
  else decide (s.life.stage = .done)

/-- Every earlier command of this ring has taken effect (FENCE, R331). Log 41, DEDUCED. -/
def fenceClear (s : State) (src : CmdSrc) : Bool := s.effects.all fun e => decide (e.src ≠ src)

/-- The completion ring of a CMD ring has room for one more status (R329). Log 40, DEDUCED. -/
def cplRoom (s : State) (q : Nat) : Bool :=
  let p := queueOf s (queueOf s q).peer
  p.enabled && !ringFull p && (queueOf s q).waitStatus.isEmpty

def viaRing : CmdSrc → Bool
  | .ring _ => true
  | .station _ => false

/-- The packet of a kind 3 frame starts at byte 4 of its payload (R244). -/
def packetAt : Nat := 18

/-- A kind 3 frame whose command the always-on domain handles (R408). -/
def isAoPacket (b : List Byte) : Bool := decide (leAt b packetAt 2 ∈ [0x0204, 0x0A04, 0x0D01])

/-- The packet of a kind 3 frame is the command given: its source, and every field of the header (R331). Log 9,
DEDUCED. -/
def isPacket (mac : Nat) (h : CmdHdr) (b : List Byte) : Bool :=
  decide (beAt b 6 6 = mac) && decide (leAt b packetAt 2 = h.opcode.toNat) &&
    decide (bitOf (leAt b (packetAt + 2) 1) 0 = h.fence) && decide (leAt b (packetAt + 4) 2 = h.postmark.toNat) &&
    decide (leAt b (packetAt + 8) 8 = h.token.toNat)

/-- The frame of the station queue that is served next for commands of this handler (R335): the oldest of the always-on
domain's, or the oldest of the others. Log 41, DEDUCED. -/
def stationNext (s : State) (ao : Bool) : Option (List Byte) := s.station.rxq.find? fun b => decide (isAoPacket b = ao)

/-- The command is the one that stands next in the station queue. -/
def stationHolds (s : State) (h : CmdHdr) (mac : Nat) : Bool :=
  match stationNext s (decide (h.opcode.toNat ∈ [0x0204, 0x0A04, 0x0D01])) with
  | some b => isPacket mac h b
  | none => false

/-- The source holds a command that its agent may take now; the always-on domain takes one from a ring only
while the Stationmaster runs (R408). Log 34, DEDUCED. Log 41, DEDUCED. -/
def mayTake (s : State) (h : CmdHdr) (agent : Nat) : Bool :=
  agentUp s agent && (!viaRing h.src || agentUp s 1) && !outstanding s h.src && (!h.fence || fenceClear s h.src) &&
  match h.src with
  | .ring q =>
    let x := queueOf s q
    decide (x.kind = 3) && x.enabled && decide (x.prod ≠ x.cons) && cplRoom s q
  | .station mac => stationHolds s h mac.toNat

/-- A CMD ring whose completion ring is full stalls (R329). Log 40, DEDUCED. -/
def stallsRing (s : State) (h : CmdHdr) : Bool :=
  match h.src with
  | .ring q =>
    let x := queueOf s q
    let p := queueOf s x.peer
    decide (x.kind = 3) && x.enabled && decide (x.prod ≠ x.cons) && p.enabled && ringFull p
  | .station _ => false

/-- Log 40, DEDUCED. -/
def stallRing (s : State) (h : CmdHdr) : State :=
  match h.src with
  | .ring q => orReg { s with queues := upd s.queues q fun y => { y with stalled := true } } (bCmd + 0xC) 0x2
  | .station _ => s

/-- The command leaves its ring, or the station queue. -/
def dequeue (s : State) (h : CmdHdr) : State :=
  match h.src with
  | .ring q => { s with queues := upd s.queues q fun y =>
      { y with cons := nextIndex y y.cons, entries := y.entries + 1, stalled := false } }
  | .station mac => { s with station := { s.station with rxq := s.station.rxq.eraseP (isPacket mac.toNat h) } }

def cmdIndex (s : State) : CmdSrc → Nat
  | .ring q => (queueOf s q).cons
  | .station _ => 0

/-- Firmware commands whose effect is still to come (R335): all but those the SC holds. -/
def isScEffect : Effect → Bool
  | .installKey _ _ _ => true
  | .attest _ _ _ => true
  | _ => false

/-- Accepted commands that the memory engine has not finished: assignment clears and library writes. Log 39,
DEDUCED. -/
def waitingWork (s : State) : Nat :=
  (s.pages.filter fun kv => kv.2.waiting.isSome).length + (s.lib.filter fun kv => kv.2.writing).length

/-- Log 39, DEDUCED. -/
def smPending (s : State) : Nat := (s.effects.filter fun e => !isScEffect e.effect).length + waitingWork s
/-- Log 39, DEDUCED. -/
def scPending (s : State) : Nat := (s.effects.filter fun e => isScEffect e.effect).length
/-- Log 39, DEDUCED. -/
def activities (s : State) : Nat := (s.acts.filter fun kv => kv.2.valid && decide (kv.2.outcome = 0)).length

/-- The full limit of R335 that a command of this row meets, or 0. Log 39, DEDUCED. -/
def busyLimit (s : State) (row : OpRow) : Nat :=
  if row.pends ∧ row.agent = 2 ∧ 64 ≤ scPending s then 3
  else if row.pends ∧ row.agent ≠ 2 ∧ 512 ≤ smPending s then 1
  else if row.activity ∧ 32 ≤ activities s then 2
  else 0

/-- The general checks in the order of R433, then the opcode's own body. Log 36, DEDUCED. Log 38, DEDUCED. Log
52, DEDUCED. -/
def judge (s : State) (h : CmdHdr) (row : OpRow) (params address : Bool) (body : State → Nat → Reply)
    (index : Nat) : Reply :=
  let f := cmdFunc s h.src
  if h.postmark ≠ (vfOf s f).postmark then refuse s stStale
  else if h.opcode.toNat ≠ row.opcode then refuse s stBadOpcode
  else if (f ≠ 0 ∧ row.fromT = false) ∨ (row.stationOnly ∧ viaRing h.src) then refuse s stNotPermitted
  else if h.clean = false ∨ params = false then refuse s stBadParam
  else if address = false then refuse s stAddress
  else if s.level = .beacon ∧ row.atBeacon = false then refuseAt s stLevel (levelCode s.level) 0
  else if busyLimit s row ≠ 0 then refuseAt s stBusy (busyLimit s row) 0
  else body s index

/-- Counters and status bits that a refusal moves (R341, R342). -/
def countStatus (s : State) (st : Nat) : State :=
  if st = stOk then s
  else
    let s := incReg s (bCmd + 0x14) 1
    if st = stStale then incReg s (bCmd + 0x18) 1
    else if st = stBusy then orReg s (bCmd + 0xC) 0x8
    else if st = stConflict then orReg s (bCmd + 0xC) 0x10
    else s

/-- Write the status of a command (R333): the agent of the opcode, or 3 for an undefined opcode. Log 51,
DEDUCED. -/
def answer (s : State) (h : CmdHdr) (row : OpRow) (index : Nat) (r : Reply) : State :=
  if r.later then r.state
  else
    let t : Status :=
      { opcode := h.opcode.toNat, status := r.status, token := h.token, index := index,
        agent := if r.status = stBadOpcode then 3 else row.agent, result0 := r.result0, result1 := r.result1,
        postmark := (vfOf r.state (cmdFunc s h.src)).postmark.toNat }
    writeStatus (countStatus r.state r.status) h.src t

/-- The command has left its source, at its moment of the tick. Log 9, DEDUCED. -/
def taken (s : State) (h : CmdHdr) : State := { dequeue s h with tick := { s.tick with off := h.off } }

/-- An agent takes a command from its source and answers it, or leaves it where it is. -/
def takeWith (s : State) (h : CmdHdr) (row : OpRow) (reply : State → Nat → Reply) : State :=
  if mayTake s h row.agent then
    answer (taken s h) h row (cmdIndex s h.src) (reply (taken s h) (cmdIndex s h.src))
  else if stallsRing s h then stallRing s h
  else s

/-- The taking of a command whose answer the general checks and its body give. -/
def takeCommand (s : State) (h : CmdHdr) (row : OpRow) (params address : Bool) (body : State → Nat → Reply) :
    State :=
  takeWith s h row fun s i => judge s h row params address body i

/-- An accepted effect joins those still to come. -/
def addEffect (s : State) (h : CmdHdr) (index due : Nat) (e : Effect) : State :=
  { s with effects := s.effects ++
      [{ src := h.src, token := h.token, opcode := h.opcode, index := index, due := due, effect := e }] }

/-- TCK_COUNT of the tick that the next boundary opens. -/
def nextTick (s : State) : Nat := tickCount s + 1

/-- TCK_COUNT of the tick opened by the first boundary at least 4,096 ac from now (R309, R430). -/
def tickAfter4096 (s : State) : Nat :=
  if s.tick.off + 4096 ≤ tickLen s then nextTick s else nextTick s + 1

/-- A named BOUNDARY is in the past for a command with the 4,096 ac deadline (R430). -/
def late4096 (s : State) (b : Nat) : Bool := decide (b ≠ 0) && decide (b < tickAfter4096 s)

/-- The outcome of every command's meaning: the next state, with vector 0 of PF where an interrupt bit
rose. -/
abbrev Out1 := Host.Outcome State Fault Refusal

/-- Log 6, DEDUCED. Log 7, DESIGN CHOICE. Log 9, DEDUCED. -/
def done (s t : State) : Out1 := .next (irq s t)

end Sys2Proof.Machine
end

