-- ==== Sys2Proof/Machine/Queues.lean ====
section
/-!
DEFINITION. The queue commands, doorbells, and what waits for a ring to have room (R327–R330, R377, R432).
-/

namespace Sys2Proof.Machine

/-! ## Assignment (R327) -/

/-- Vectors a queue of a function may name (R344). Log 47, DEDUCED. -/
def vecOk (f vec : Nat) : Bool := decide (2 ≤ vec) && decide (vec < if f = 0 then 2048 else 64)

/-- PEER names a completion ring of the same function for a CMD queue, and nothing otherwise. Log 48, DEDUCED.
-/
def peerOk (s : State) (f kind peer : Nat) : Bool :=
  if kind = 3 then decide ((queueOf s peer).kind = 4 ∧ (queueOf s peer).func = f) else decide (peer = 0)

/-- The doorbell slot is held by another queue of the function. -/
def slotHeld (s : State) (f dbslot : Nat) : Bool :=
  decide (f ≠ 0) && s.queues.any fun kv => decide (kv.2.kind ≠ 0 ∧ kv.2.func = f ∧ kv.2.dbslot = dbslot)

/-- Use of the queue quota (R306). -/
def useQueues (s : State) (f : Nat) : Nat :=
  (s.queues.filter fun kv => decide (kv.2.kind ≠ 0 ∧ kv.2.func = f)).length

/-- A queue as QUE_ASSIGN makes it: armed, disabled (R330). Log 46, DEDUCED. -/
def newQueue (f kind log2 vec dbslot peer base : Nat) : Queue :=
  { kind := kind, func := f, log2 := log2, vec := vec, dbslot := dbslot, peer := peer, base := base, armed := true }

/-- Log 46, DEDUCED. Log 48, DEDUCED. -/
def queAssignBody (q f kind log2 vec dbslot peer base : Nat) (s : State) (_ : Nat) : Reply :=
  if peerOk s f kind peer = false then refuse s stBadParam
  else if (queueOf s q).kind ≠ 0 ∨ (f ≠ 0 ∧ (vfOf s f).assigned = false) ∨ slotHeld s f dbslot then refuse s stState
  else if hostOk s f base (entrySize kind * 2 ^ log2) = false then refuse s stAddress
  else if f ≠ 0 ∧ (vfOf s f).qQueues < useQueues s f + 1 then refuseAt s stQuota 3 0
  else accept { s with queues := put s.queues q (newQueue f kind log2 vec dbslot peer base) }

/-- QUE_ASSIGN. -/
def execQueAssign (h : CmdHdr) (q func kind log2 vec dbslot peer base : Nat) (s : State) : Out1 :=
  done s (takeCommand s h { opcode := 0x0701, agent := 3 }
    (decide (q < 8192 ∧ func < 1024 ∧ 1 ≤ kind ∧ kind ≤ 7 ∧ 6 ≤ log2 ∧ log2 ≤ 16 ∧ dbslot < 1024 ∧ peer < 8192 ∧
      base < 2 ^ 64) && vecOk func vec) true
    (queAssignBody q func kind log2 vec dbslot peer base))

/-- Nothing of the queue's stands in its ring or waits for it. Log 45, DEDUCED. -/
def queueEmpty (x : Queue) : Bool :=
  decide (x.prod = x.cons) && x.ready.isEmpty && x.waitStatus.isEmpty && x.barrier.isEmpty

/-- A CMD queue names the queue as its completion ring. -/
def namedPeer (s : State) (q : Nat) : Bool := s.queues.any fun kv => decide (kv.2.kind = 3 ∧ kv.2.peer = q)

/-- Log 45, DEDUCED. -/
def queReleaseBody (q : Nat) (s : State) (_ : Nat) : Reply :=
  let x := queueOf s q
  if x.kind = 0 ∨ x.enabled ∨ queueEmpty x = false ∨ (x.kind = 4 ∧ namedPeer s q) then refuse s stState
  else accept { s with queues := erase s.queues q }

/-- QUE_RELEASE. -/
def execQueRelease (h : CmdHdr) (q : Nat) (s : State) : Out1 :=
  done s (takeCommand s h { opcode := 0x0702, agent := 3 } (decide (q < 8192)) true (queReleaseBody q))

def queEnableBody (q : Nat) (s : State) (_ : Nat) : Reply :=
  if (queueOf s q).kind = 0 then refuse s stState
  else accept { s with queues := upd s.queues q fun x => { x with enabled := true, dbErr := false } }

/-- QUE_ENABLE. -/
def execQueEnable (h : CmdHdr) (q : Nat) (s : State) : Out1 :=
  done s (takeCommand s h { opcode := 0x0703, agent := 3 } (decide (q < 8192)) true (queEnableBody q))

/-- Log 49, DEDUCED. -/
def queDisableBody (q : Nat) (s : State) (_ : Nat) : Reply :=
  accept { s with queues := upd s.queues q fun x => { x with enabled := false } }

/-- QUE_DISABLE. -/
def execQueDisable (h : CmdHdr) (q : Nat) (s : State) : Out1 :=
  done s (takeCommand s h { opcode := 0x0704, agent := 3, atBeacon := true } (decide (q < 8192)) true
    (queDisableBody q))

/-- NOP. -/
def execNop (h : CmdHdr) (s : State) : Out1 :=
  done s (takeCommand s h { opcode := 0x0000, agent := 3, fromT := true, atBeacon := true } true true
    fun s _ => accept s)

/-! ## Doorbells (R328, R330) -/

/-- The queue a doorbell rings: QUE_DB of queue `slot` for PF, VF_DB of the slot otherwise. -/
def rungQueue (s : State) (f slot : Nat) : Option Nat :=
  if f = 0 then (if (queueOf s slot).func = 0 ∧ (queueOf s slot).kind ≠ 0 then some slot else none)
  else (s.queues.find? fun kv => decide (kv.2.kind ≠ 0 ∧ kv.2.func = f ∧ kv.2.dbslot = slot)).map (·.1)

/-- Software owns the producer index: RX, TX, CMD and software-fed ENTRY queues. -/
def drivesProd (kind : Nat) : Bool := decide (kind ∈ [1, 2, 3, 5])

/-- The distance from one index up to another, modulo 2 × 2^n. -/
def ringDist (x : Queue) (a b : Nat) : Nat := (b + 2 * ringLen x - a) % (2 * ringLen x)

/-- The doorbell value is an error. Log 44, DEDUCED. -/
def doorbellBad (x : Queue) (i : Nat) : Bool :=
  decide (2 * ringLen x ≤ i) ||
    (if drivesProd x.kind then
      decide (ringDist x x.cons i < ringDist x x.cons x.prod) || decide (ringLen x < ringDist x x.cons i)
    else decide (ringDist x x.cons x.prod < ringDist x i x.prod))

/-- The queue after a good doorbell. Log 43, DEDUCED. -/
def rung (x : Queue) (i : Nat) : Queue :=
  if drivesProd x.kind then { x with prod := i, armed := true } else { x with cons := i, armed := true }

/-- A queue re-armed over entries not yet announced. -/
def unannounced (x : Queue) : Bool :=
  if x.kind = 1 ∨ x.kind = 2 then decide (x.cons ≠ x.announced)
  else decide (x.kind ∈ [4, 6, 7]) && decide (x.prod ≠ x.cons)

/-- An ENTRY queue that a binding names is the sorting office's. -/
def boundEntry (s : State) (q : Nat) : Bool := s.binds.any fun kv => kv.2.valid && decide (kv.2.entryQ = q)

/-- Log 44, DEDUCED. -/
def doorbellError (s : State) (q : Nat) (x : Queue) : State :=
  let s := { s with queues := upd s.queues q fun y => { y with dbErr := true, enabled := false } }
  raiseFault (orReg s (bCmd + 0xC) 0x4)
    { code := 48, named := .function x.func, locKind := 4, location := q, off := s.tick.off }

/-- Log 43, DEDUCED. -/
def doorbell (s : State) (q i : Nat) : State :=
  let x := queueOf s q
  if x.enabled = false ∨ boundEntry s q then s
  else if doorbellBad x i then doorbellError s q x
  else
    let s := { s with queues := upd s.queues q fun y => rung y i }
    if unannounced (rung x i) then ringVector s q else s

/-- QUEUE_DOORBELL. Bits [16:0] of the write are the index; the others are reserved. -/
def execQueueDoorbell (func slot : Nat) (index : BitVec 32) (s : State) : Out1 :=
  done s (match rungQueue s func slot with
    | some q => doorbell s q (bits index.toNat 16 0)
    | none => s)

/-! ## What waited for room -/

/-- CMD_RING_RESUME (R329): the completion ring has a free entry again. Log 40, DEDUCED. -/
def execCmdRingResume (q : Nat) (s : State) : Out1 :=
  done s (if (queueOf s q).stalled ∧ cplRoom s q then
      { s with queues := upd s.queues q fun x => { x with stalled := false } }
    else s)

/-- The first status that waits for the ring of CMD queue q is written (R432). Log 49, DEDUCED. -/
def writeDeferred (s : State) (q : Nat) (b : List Byte) : State :=
  let p := (queueOf s q).peer
  let x := queueOf s p
  let s := { s with queues := upd s.queues q fun y => { y with waitStatus := y.waitStatus.drop 1 } }
  writeProd s p (withPhase b (phaseOf x x.prod))

/-- DEFERRED_COMMAND_STATUS (R432). -/
def execDeferredCommandStatus (q : Nat) (s : State) : Out1 :=
  let x := queueOf s q
  let p := queueOf s x.peer
  done s (match x.waitStatus with
    | b :: _ => if p.enabled ∧ ringFull p = false then writeDeferred s q b else s
    | [] => s)

/-- The PHASE of a waiting barrier entry is that of the index it takes (R377). -/
def barrierPhase (x : Queue) (b : List Byte) : List Byte := b.take 28 ++ leBytes 4 (phaseOf x x.prod)

def writeLateBarrier (s : State) (q : Nat) (b : List Byte) : State :=
  let x := queueOf s q
  writeProd { s with queues := upd s.queues q fun y => { y with barrier := y.barrier.drop 1 } } q (barrierPhase x b)

/-- BARRIER_ENTRY_DEFERRED (R377): the barrier entry takes the first free entry. Log 49, DEDUCED. -/
def execBarrierEntryDeferred (q : Nat) (s : State) : Out1 :=
  let x := queueOf s q
  done s (match x.barrier with
    | b :: _ => if x.enabled ∧ ringFull x = false then writeLateBarrier s q b else s
    | [] => s)

end Sys2Proof.Machine
end

