-- ==== Sys2Proof/Machine/Operands.lean ====
section
/-!
DEFINITION. Operand forms: how a register access reaches a word (R3–R5, R301, R324, R326), which bits of
it the access may write (R4, R11), and what a written value must satisfy to be stored.
-/

namespace Sys2Proof.Machine

/-! ## Who may reach what -/

/-- An access to the BAR of f is served in view T (R301). Log 18, DEDUCED. -/
def servedT (s : State) (f : Nat) : Via → Bool
  | .pcie => (vfOf s f).pcieT
  | .hart h => decide (look s.harts h = f)

/-- The access reaches PF BAR0 in a view that has access there. Log 18, DEDUCED. -/
def reachesPf (a : Access) : Bool :=
  decide (a.bar = .pf) && (decide (a.view = .c) || decide (a.view = .o))

/-- The function whose BAR the access reaches, in view C or as a served access in view T. Log 18, DEDUCED. -/
def reachesVf (s : State) (a : Access) : Option Nat :=
  match a.bar with
  | .pf => none
  | .vf f =>
    if 1 ≤ f ∧ f ≤ 1023 ∧ (a.view = .c ∨ (a.view = .t ∧ servedT s f a.via)) then some f else none

/-- Views C and O have access to the operator's registers; view T has none (R3). -/
def hasAccess (v : View) : Bool := decide (v = .c) || decide (v = .o)

/-- Is the address one of n words (or blocks) at base, stride apart? Its index. -/
def indexIn (a base stride n : Nat) : Option Nat :=
  if base ≤ a ∧ (a - base) % stride = 0 ∧ (a - base) / stride < n then some ((a - base) / stride) else none

/-! ## Fields that have a row of their own -/

/-- Bits of a word that some other row of the table writes: REGISTER_WRITE leaves them alone. -/
def ownRowBits (a : Nat) : Nat :=
  if a = bTck ∨ a = bTck + 0xC ∨ a = bAri + 0x4 then allOnes32
  else if (indexIn a bMac 0x10000 16).isSome then 0x6
  else if (indexIn a (bTrk + 0x1000) 0x100 40).isSome then allOnes32
  else if (indexIn a (bFlt + 0x40) 4 3).isSome then allOnes32
  else 0

/-! ## Values that are discarded -/

def within (v lo hi : Nat) : Bool := decide (lo ≤ v) && decide (v ≤ hi)

/-- Subports of a port under the split in force (R219). -/
def subportsOf (s : State) (p : Nat) : Nat := 2 ^ bits (reg s (bMac + 0x10000 * p + 0x4)) 17 16

/-- A tile lies in a cell of the active table that partition p owns, in some slice in force. -/
def ownsQuadrant (s : State) (p quad : Nat) : Bool :=
  (List.range (bits (reg s (bTck + 0x40)) 4 0)).any fun i =>
    let b := (look s.cellA (160 * i + quad)).toNat
    bitOf b 5 && decide (bits b 4 0 = p)

/-- The quadrant of a tile (R51). -/
def quadOf (die tile : Nat) : Nat := 4 * die + (tile / 128 * 2 + tile % 16 / 8)

/-- The whole write is stored; otherwise the register's Purpose column discards it. R40 gives TCK_HOLD_SYNCE and
TCK_HOLD_OSC a maximum and does not say what a write above it does: it is discarded whole. Log 237, DESIGN
CHOICE. -/
def wordAccepted (s : State) (a v : Nat) : Bool :=
  if a = bTck + 0x1C then within v 1 100
  else if a = bTck + 0x24 ∨ a = bTck + 0x28 then within v 0 86400
  else if a = bTil ∨ a = bTil + 0x100 then within (bits v 5 0) 0 39
  else if a = bMem + 0x20 then allocatable (bits v 7 0) && within (bits v 16 8) 0 383
  else if a = bMem + 0x50 then decide (v = 0) || within v 3600 604800
  else if a = bMbx + 0x100 then within v 1 1023
  else if a = bMbx + 0x114 then within v 1 1000
  else if a = bFlt + 0x4 then within v 10 1000
  else if (indexIn a (bMac + 0x8) 0x10000 16).isSome then within v 1518 9216
  else if (indexIn a bEgs 4 16).isSome then within v 0 64
  else match indexIn a (bTtb + 0x20) 0x10000 32 with
    | some p => within (bits v 5 0) 0 39 && ownsQuadrant s p (quadOf (bits v 5 0) (bits v 15 8))
    | none =>
      if (indexIn a (bTrk + 0x20000) 4 4096).isSome ∨ (indexIn a (bTrk + 0x30100) 4 64).isSome then
        decide (s.drain = 0)
      else true

/-- Keep the old bits of a field whose new value is out of range. Log 17, DEDUCED. -/
def keepField (old v hi lo : Nat) (ok : Bool) : Nat :=
  if ok then v else v - bits v hi lo * 2 ^ lo + bits old hi lo * 2 ^ lo

/-- Fields discarded alone when their value is out of range. Log 16, DEDUCED. Log 17, DEDUCED. -/
def fieldsAccepted (a old v : Nat) : Nat :=
  if a = bStb then keepField old v 19 16 (within (bits v 19 16) 1 8)
  else if a = bFlt then
    keepField old (keepField old v 9 0 (within (bits v 9 0) 0 1000)) 20 17 (within (bits v 20 17) 1 8)
  else if a = bTrk + 0x4 then
    keepField old (keepField old (keepField old v 13 8 (within (bits v 13 8) 0 39)) 20 16
      (within (bits v 20 16) 1 31)) 31 24 (within (bits v 31 24) 1 255)
  else v

/-- The value a word takes from a write of `data` in view v (R4, R5, R11). -/
def written (row : RegRow) (v : View) (a old data : Nat) : Nat :=
  let m := (if v = .c then row.rw ||| row.wC else row.rw) &&& (allOnes32 - ownRowBits a)
  let x := (old - (old &&& m)) ||| (data &&& m)
  let x := fieldsAccepted a old x
  x - (x &&& data &&& row.w1c)

/-- A word of PF BAR0, or of a VF's MSI-X table, written through the register map. -/
def writeMapped (s : State) (v : View) (a data : Nat) : State :=
  match rowOf a with
  | none => s
  | some row =>
    let x := written row v a (reg s a) data
    if wordAccepted s a x then setReg s a x else s

/-- A vector that was pending behind its mask is sent when the mask bit clears. -/
def releaseVec (s t : State) (f vec : Nat) : State :=
  if vecMasked s f vec ∧ vecMasked t f vec = false ∧ bitOf (reg t (pbaWord f vec)) (vec % 32) then
    sendVec (clrReg t (pbaWord f vec) (2 ^ (vec % 32))) f vec
  else t

/-- Write bytes into a small byte buffer held as a table. Log 16, DEDUCED. -/
def putBytes (t : Table Byte) (off : Nat) : List Byte → Table Byte
  | [] => t
  | b :: l => putBytes (put t off b) (off + 1) l

def getBytes (t : Table Byte) (off n : Nat) : List Byte := (List.range n).map fun i => look t (off + i)

end Sys2Proof.Machine
end

