-- ==== Sys2Proof/Machine/Tick.lean ====
section
/-!
DEFINITION. The slot tick (R16–R43, R435) but for its boundaries: configuration writes, the PTP servo and
its states, SyncE, refresh beats and the signal bus. An event that finds the generator in a state it does
not concern leaves the state as it is.
-/

namespace Sys2Proof.Machine

/-! ## The generator's states (R21, R22, R435) -/

def lockPs (s : State) : Nat := 1000 * bits (reg s (bTck + 0x20)) 15 0
def lostPs (s : State) : Nat := 1000 * bits (reg s (bTck + 0x20)) 31 16

/-- The filtered time error lies within the lock threshold. -/
def inLock (s : State) : Bool := decide (s.tick.te.natAbs ≤ lockPs s)

/-- No timetable runs, in the sense of R20: none is admitted, or the part is at beacon. -/
def noneRuns (s : State) : Bool := s.tts.all (fun kv => decide (kv.2.state = .none)) || decide (s.level = .beacon)

def followEn (s : State) : Bool := bitOf (reg s (bTrk + 0x4)) 0
def followPort (s : State) : Nat := bits (reg s (bTrk + 0x4)) 13 8

/-- SyncE is present (R435). Log 75, DEDUCED. -/
def syncePresent (s : State) : Bool := bitOf (reg s bTck) 24 && s.tick.synceOk

/-- Timing is lost (R22): the status bit, and the drop to beacon where LOSS_ACT is 1. -/
def timingLost (s : State) : State :=
  let s := orReg s (bTck + 0x30) 0x4
  if bitOf (reg s bTck) 4 then dropLevel s .beacon else s

/-- The generator enters a state: its event bits, the holdover time, and timing loss where R22 says so. Log 71,
DEDUCED. -/
def enterState (s : State) (st : TickState) : State :=
  let old := s.tick.state
  let s := { s with tick := { s.tick with
    state := st
    holdNs := if st = .holdover ∧ old = .holdover then s.tick.holdNs else 0
    slew := if st = .acquiring ∨ st = .locked then s.tick.slew else 0 } }
  if st = .locked then orReg s (bTck + 0x30) 0x1
  else if st = .holdover then orReg s (bTck + 0x30) 0x2
  else if st = .expired ∨ (st = .acquiring ∧ (old = .locked ∨ old = .holdover)) then timingLost s
  else s

/-- The state once a pending change has taken effect. Log 71, DEDUCED. -/
def comingState (s : State) : TickState := s.tick.next.getD s.tick.state

/-- A change of state waits for the next boundary (R32); one back to the state in force takes the pending one
away. Log 71, DEDUCED. -/
def changeState (s : State) (st : TickState) : State :=
  { s with tick := { s.tick with next := if st = s.tick.state then none else some st } }

/-- A reference with current announces is there: it moves the generator out of Free-run, Holdover and
Expired (R21). R21 does not say which message makes a Holdover regain PTP: an Announce does, with the filtered
error as it stands, and so does a servo update. Log 236, DEDUCED. -/
def referenceFound (s : State) : State :=
  match comingState s with
  | .freeRun => changeState s .acquiring
  | .holdover => changeState s (if inLock s then .locked else .acquiring)
  | .expired => changeState s .acquiring
  | _ => s

/-- The reference is gone: Locked passes to Holdover (R21). -/
def referenceLost (s : State) : State :=
  if comingState s = .locked then changeState s .holdover else s

/-! ## Configuration writes (R20, R41) -/

/-- Starts of the slices in force. -/
def activeStarts (s : State) : List Nat :=
  (List.range (bits (reg s (bTck + 0x40)) 4 0)).map fun i => reg s (bTck + 0x100 + 4 * i)

/-- Consecutive starts leave every slice at least 2,048 ac long, the last counted to `len` (R24). -/
def slicesFit (len : Nat) : List Nat → Bool
  | [] => true
  | [a] => decide (a + 2048 ≤ len)
  | a :: b :: l => decide (a + 2048 ≤ b) && slicesFit len (b :: l)

/-- A plan meets R24 under a tick length. -/
def planOk (len : Nat) (starts : List Nat) : Bool :=
  decide (1 ≤ starts.length) && decide (starts.length ≤ 16) && decide (starts.head? = some 0) &&
    starts.all (fun a => decide (a % 16 = 0) && decide (a < len)) && slicesFit len starts

/-- A changed PERIOD code is taken (R20). -/
def periodTaken (s : State) (code : Nat) : Bool :=
  decide (code ≤ 4) && noneRuns s && decide (bits (reg s (bTck + 0xC)) 19 0 < periodNs code) &&
    planOk (periodAc code) (activeStarts s)

/-- No change of state is pending. -/
def nonePending (s : State) : State := { s with tick := { s.tick with next := none } }

/-- Stepping begins in the tick that it lengthens (R23). -/
def enterStepping (s : State) : State :=
  { s with tick := { s.tick with state := .stepping, next := none, holdNs := 0, slew := 0 } }

/-- A pending change of state takes effect (R32). In Acquiring, with no timetable running, a time error beyond
the lock threshold begins a step (R21, R23). Log 71, DEDUCED. -/
def takeTickState (s : State) : State :=
  match s.tick.next with
  | none => s
  | some st =>
    let s := enterState (nonePending s) st
    if st = .acquiring ∧ inLock s = false ∧ noneRuns s then enterStepping s else s

/-- The fields of TCK_CTRL other than PERIOD after a write: PTP_DOMAIN outside 24–43 is discarded. -/
def ctrlFields (old data : Nat) : Nat :=
  let x := data &&& 0x0FFFFFF7
  let x := x - bits x 2 0 + bits old 2 0
  keepField old x 23 16 (within (bits x 23 16) 24 43)

/-- A change of the subport or domain that carries PTP forgets the masters heard there (R17). Log 72, DEDUCED.
-/
def ptpMoved (old new : Nat) : Bool :=
  decide (bits old 11 5 ≠ bits new 11 5) || decide (bits old 23 16 ≠ bits new 23 16)

/-- Every master heard is forgotten: none is selected, and PTP_OK is 0. -/
def forgetMasters (s : State) : State :=
  let s := { s with tick := { s.tick with masters := [], selected := none, ptpOk := false } }
  if followEn s then s else referenceLost s

/-- Another subport becomes the source of SyncE. -/
def synceMoved (old new : Nat) : Bool := decide (bits old 15 12 ≠ bits new 15 12) || decide (bits old 27 25 ≠ bits new 27 25)

/-- SYNCE_SUB names a subport of the split in force; one outside it recovers nothing (R17). Log 75, DEDUCED. -/
def synceInSplit (s : State) : Bool :=
  let c := reg s bTck
  decide (bits c 27 25 < subportsOf s (bits c 15 12))

/-- Limit in s of the Holdover in force (R435). -/
def holdLimit (s : State) : Nat := if syncePresent s then reg s (bTck + 0x24) else reg s (bTck + 0x28)

/-- The time spent in the current Holdover exceeds its limit (R435). -/
def holdOver (s : State) : Bool :=
  decide (comingState s = .holdover) && decide (holdLimit s * 1000000000 < s.tick.holdNs + acToNs s.tick.off)

/-- A Holdover past its limit passes to Expired, whatever moved the limit (R435). -/
def holdCheck (s : State) : State := if holdOver s then changeState s .expired else s

/-- SyncE after its source has moved: nothing is recovered outside the split, and whether the new subport's
frequency is present is free until SYNCE_STATUS_CHANGE tells. Log 75, DEDUCED. -/
def moveSynce (s : State) : State :=
  { s with
    tick := { s.tick with synceOk := synceInSplit s && (Config.freeBits s.fresh 1).getLsbD 0 }
    fresh := s.fresh + 1 }

/-- The sources of time follow the split in force: a PTP_SUB outside it selects no master, and a SYNCE_SUB
outside it recovers nothing (R17). -/
def sourcesFollow (s : State) : State :=
  let c := reg s bTck
  let s := if bits c 7 5 < subportsOf s (bits c 11 8) then s else forgetMasters s
  holdCheck { s with tick := { s.tick with synceOk := s.tick.synceOk && synceInSplit s } }

/-- The fields of TCK_CTRL other than PERIOD take effect: the sources they name, and the Holdover limit that
SYNCE_EN picks. Log 71, DEDUCED. -/
def ctrlTaken (s : State) (new : Nat) : State :=
  let old := reg s bTck
  let s := setReg s bTck new
  let s := if ptpMoved old new then forgetMasters s else s
  holdCheck (if synceMoved old new then moveSynce s else s)

/-- Log 71, DEDUCED. -/
def tckCtrl (s : State) (data : Nat) : State :=
  let old := reg s bTck
  let new := ctrlFields old data
  let s := ctrlTaken s new
  let code := bits data 2 0
  if code = bits old 2 0 then s
  else if periodTaken s code then
    enterStepping (setReg s bTck (new - bits new 2 0 + code))
  else orReg s (bTck + 0x30) 0x40

/-- TCK_CTRL_WRITE (R20, R41). -/
def execTckCtrlWrite (v : View) (data : BitVec 32) (s : State) : Out1 :=
  done s (if hasAccess v then tckCtrl s data.toNat else s)

/-- A changed TCK_PHASE is taken (R20). -/
def phaseTaken (s : State) (ph : Nat) : Bool := noneRuns s && decide (ph < periodNs (periodCode s))

/-- Log 71, DEDUCED. -/
def tckPhase (s : State) (ph : Nat) : State :=
  if ph = reg s (bTck + 0xC) then s
  else if phaseTaken s ph then enterStepping (setReg s (bTck + 0xC) ph)
  else orReg s (bTck + 0x30) 0x40

/-- TCK_PHASE_WRITE (R20). -/
def execTckPhaseWrite (v : View) (data : BitVec 32) (s : State) : Out1 :=
  done s (if hasAccess v then tckPhase s (bits data.toNat 19 0) else s)

/-! ## PTP and SyncE (R17, R21, R435) -/

/-- The subport is the one TCK_CTRL names for PTP, and lies in the split in force. -/
def isPtpPort (s : State) (port sub : Nat) : Bool :=
  let c := reg s bTck
  decide (port = bits c 11 8) && decide (sub = bits c 7 5) && decide (sub < subportsOf s port)

/-- Log 75, DEDUCED. -/
def isSyncePort (s : State) (port sub : Nat) : Bool :=
  let c := reg s bTck
  decide (port = bits c 15 12) && decide (sub = bits c 27 25) && decide (sub < subportsOf s port)

/-- Announce a is better than b under the alternate best-master algorithm of G.8275.1 (R17): class, accuracy,
variance, priority 2, local priority; then, for classes up to 127, identity before steps. Log 72, DEDUCED. -/
def betterMaster (a b : Announce) : Bool :=
  if a.clockClass ≠ b.clockClass then decide (a.clockClass < b.clockClass)
  else if a.accuracy ≠ b.accuracy then decide (a.accuracy < b.accuracy)
  else if a.variance ≠ b.variance then decide (a.variance < b.variance)
  else if a.priority2 ≠ b.priority2 then decide (a.priority2 < b.priority2)
  else if a.localPriority ≠ b.localPriority then decide (a.localPriority < b.localPriority)
  else if a.clockClass ≤ 127 ∧ a.steps ≠ b.steps then decide (a.steps < b.steps)
  else decide (a.clockId.toNat < b.clockId.toNat)

/-- Log 72, DEDUCED. -/
def bestMaster : List Announce → Option Announce
  | [] => none
  | a :: l =>
    match bestMaster l with
    | none => some a
    | some b => if betterMaster b a then some b else some a

/-- Log 73, PRESUMED. -/
def ptpAnnounce (s : State) (port sub : Nat) (a : Announce) : State :=
  if isPtpPort s port sub ∧ a.domain = bits (reg s bTck) 23 16 then
    let ms := a :: s.tick.masters.filter (·.clockId ≠ a.clockId)
    let s := { s with tick := { s.tick with masters := ms, selected := bestMaster ms, ptpOk := true } }
    if followEn s then s else referenceFound s
  else s

/-- PTP_ANNOUNCE (R17, R21). -/
def execPtpAnnounce (port sub : Nat) (a : Announce) (s : State) : Out1 := done s (ptpAnnounce s port sub a)

/-- The servo takes a new error: the filter's output, and the direction of slewing at the full limit while
Acquiring outside the lock threshold (R435); with no timetable running, a step instead (R23). Log 74, DESIGN
CHOICE. -/
def servoTake (s : State) (te : Int) : State :=
  let s := { s with tick := { s.tick with te := te } }
  let s := if comingState s = .holdover then referenceFound s else s
  if s.tick.state = .acquiring ∧ inLock s = false then
    if noneRuns s then enterStepping s
    else { s with tick := { s.tick with slew := if te < 0 then 1 else -1 } }
  else { s with tick := { s.tick with slew := 0 } }

/-- Log 74, DESIGN CHOICE. -/
def servoUpdate (s : State) (err : Int) : State := servoTake s (Config.servoFilter s.tick.te err)

/-- Log 73, PRESUMED. -/
def ptpSync (s : State) (port sub : Nat) (offsetPs : Int) : State :=
  if isPtpPort s port sub ∧ s.tick.ptpOk ∧ followEn s = false then servoUpdate s offsetPs else s

/-- PTP_SYNC (R16, R435). -/
def execPtpSync (port sub : Nat) (offsetPs : Int) (s : State) : Out1 := done s (ptpSync s port sub offsetPs)

/-- A Delay_Req message of the part (R17): Ethernet header, then a PTP message of type 1, version 2, 44 bytes,
in the domain of TCK_CTRL. Log 73, PRESUMED. -/
def delayReqFrame (s : State) : List Byte :=
  let own := (Config.portMac (bits (reg s bTck) 11 8) (bits (reg s bTck) 7 5)).toNat
  let b := beBytes 6 0x011B19000000 ++ beBytes 6 own ++ beBytes 2 0x88F7 ++
    [0x01, 0x02] ++ beBytes 2 44 ++ [BitVec.ofNat 8 (bits (reg s bTck) 23 16), 0] ++ List.replicate 38 0 ++
    List.replicate 2 0
  let b := b ++ List.replicate (60 - b.length) 0
  b ++ fcsBytes b

def ptpDelayReq (s : State) : State :=
  if s.tick.ptpOk then
    let c := reg s bTck
    let k := 8 * bits c 11 8 + bits c 7 5
    { s with egress := upd s.egress k fun e =>
        { e with timing := some { ring := 8192, bytes := delayReqFrame s } } }
  else s

/-- PTP_DELAY_REQ (R17): the message waits in the timing class of its subport. -/
def execPtpDelayReq (off : Nat) (s : State) : Out1 :=
  done s (ptpDelayReq { s with tick := { s.tick with off := off } })

def esmcMessage (s : State) (port sub : Nat) (ssm : BitVec 4) : State :=
  if isSyncePort s port sub then { s with tick := { s.tick with synceQl := ssm } } else s

/-- ESMC_MESSAGE (R17). -/
def execEsmcMessage (port sub : Nat) (ssm : BitVec 4) (s : State) : Out1 := done s (esmcMessage s port sub ssm)

/-- The frequency of the SyncE source appears or is lost (R17, R435). Log 75, DEDUCED. -/
def synceStatus (s : State) (present : Bool) : State :=
  holdCheck { s with tick := { s.tick with synceOk := present && synceInSplit s } }

/-- SYNCE_STATUS_CHANGE (R435). -/
def execSynceStatusChange (present : Bool) (s : State) : Out1 := done s (synceStatus s present)

/-- LOCK_TIMER_EXPIRY (R21): from Acquiring, within the lock threshold for 1 s. -/
def execLockTimerExpiry (s : State) : Out1 :=
  done s (if comingState s = .acquiring ∧ inLock s then changeState s .locked else s)

/-- LOST_TIMER_EXPIRY (R21): from Locked, beyond the lost threshold for 1 s. -/
def execLostTimerExpiry (s : State) : Out1 :=
  done s (if comingState s = .locked ∧ lostPs s < s.tick.te.natAbs then changeState s .acquiring else s)

/-- ANNOUNCE_RECEIPT_TIMEOUT (R17, R21). -/
def execAnnounceReceiptTimeout (s : State) : Out1 := done s (forgetMasters s)

/-- SERVO_UPDATE_TIMEOUT (R21). -/
def execServoUpdateTimeout (s : State) : Out1 := done s (referenceLost s)

/-- HOLDOVER_EXPIRY (R435): the limit in force is exceeded. -/
def execHoldoverExpiry (s : State) : Out1 := done s (holdCheck s)

/-! ## Refresh beats (R29) -/

/-- Phase of a pseudo-channel's beats, by its position. -/
def beatPhase (pc : Nat) : Nat := 732 * (pc % 8)

/-- A beat of the pseudo-channel starts at this offset of a tick of length len. Log 101, DEDUCED. -/
def beatStarts (len pc off : Nat) : Bool :=
  decide (beatPhase pc ≤ off) && decide ((off - beatPhase pc) % 5856 = 0) && decide (off + 128 ≤ len)

/-- REFRESH_BEAT (R29, R192): the pseudo-channel serving the position is refreshed. Log 101, DEDUCED. -/
def execRefreshBeat (pc off : Nat) (s : State) : Out1 :=
  done s (if pc < 256 ∧ beatStarts (tickLen s) pc off ∧ s.tick.state ≠ .stepping then
      emit { s with tick := { s.tick with off := off } } (.refresh pc off)
    else s)

/-! ## The signal bus (R36–R39, R43) -/

def tickLocked (s : State) : Bool := decide (s.tick.state = .locked) || decide (s.tick.state = .holdover)

/-- The answer (R39). Log 76, DEDUCED. -/
def answerNow (s : State) : BitVec 4 :=
  if s.life.poweringOff then 0
  else if s.life.held then 3
  else if s.life.alive = false then 0
  else BitVec.ofNat 4 (8 + 4 * ofBool (tickLocked s) + levelCode s.level)

/-- SIG_POLL (R37, R38, R43): the select loads and drives the answer. Log 76, DEDUCED. -/
def execSigPoll (gapUs : Nat) (s : State) : Out1 :=
  let a := answerNow s
  let s' := setReg (setReg (incReg s (bSig + 0x4) 1) (bSig + 0x8) (tickCount s % 2 ^ 32)) (bSig + 0xC)
    (max (reg s (bSig + 0xC)) (min gapUs allOnes32))
  done s (emit { s' with sig := { s'.sig with answer := a } } (.answer a))

/-- SIG_POLL_GAP_READ (R43): the read clears it. Log 76, DEDUCED. -/
def execSigPollGapRead (v : View) (s : State) : Out1 :=
  done s (if hasAccess v then
      emit (setReg s (bSig + 0xC) 0) (.regData (BitVec.ofNat 64 (reg s (bSig + 0xC))))
    else emit s (.regData 0))

/-- SIG_CLK_LOSS (R37, R43): the answer register loads from the always-on clock. -/
def execSigClkLoss (s : State) : Out1 :=
  done s { s with sig := { answer := answerNow s, clkPresent := false } }

/-- SIG_CLK_RETURN (R37). -/
def execSigClkReturn (s : State) : Out1 :=
  done s { s with sig := { answer := answerNow s, clkPresent := true } }

end Sys2Proof.Machine
end

