-- ==== Sys2Proof/Machine/Flags.lean ====
section
/-!
DEFINITION. Exact values, the one rounding step every result goes through, special values and the flags a
result raises (R103–R107, R112–R118). A word of an MX format is one block under one scale (R106), and a
CFX16 or BFP word carries Q1.15 parts with or without an exponent lane (R107). A value is a sign, a magnitude and a power of two, so nothing is
lost before the rounding.
-/

namespace Sys2Proof.Machine

/-- An exact value: (−1)^neg × m × 2^e, an infinity or a NaN. -/
inductive Val where
  | nan
  | inf (neg : Bool)
  | fin (neg : Bool) (m : Nat) (e : Int)
  deriving DecidableEq, Repr, Inhabited

/-! The slot's sticky flags (R119). -/
def flInvalid : Nat := 1
def flOverflow : Nat := 2
def flSaturate : Nat := 4
def flRange : Nat := 8

/-- How one rounding is made: ROUND, the 24-bit random integer of a stochastic rounding, SATFP. -/
structure Rounding where
  mode : Nat := 0
  r : Nat := 0
  satfp : Bool := false
  deriving DecidableEq, Repr, Inhabited

/-- A magnitude divided by 2^sh and rounded to an integer (R115, R116). -/
def roundMag (k : Rounding) (neg : Bool) (m : Nat) (sh : Int) : Nat :=
  if sh ≤ 0 then m * 2 ^ (-sh).toNat
  else
    let d := 2 ^ sh.toNat
    let q := m / d
    let rem := m % d
    let up :=
      if k.mode = 0 then decide (d < 2 * rem) || (decide (2 * rem = d) && decide (q % 2 = 1))
      else if k.mode = 1 then false
      else if k.mode = 2 then decide (2 ^ 24 ≤ rem * 2 ^ 24 / d + k.r % 2 ^ 24)
      else neg && decide (rem ≠ 0)
    q + ofBool up

/-- A floating target: precision in bits, exponent of its smallest step, width. -/
structure FloatFmt where
  p : Nat
  ulpMin : Int
  width : Nat
  deriving DecidableEq, Repr, Inhabited

def fp32 : FloatFmt := { p := 24, ulpMin := -149, width := 32 }
def bf16 : FloatFmt := { p := 8, ulpMin := -133, width := 16 }

def canonicalNan (f : FloatFmt) : Nat := 0x1FF * 2 ^ (f.p - 2)
def infBits (f : FloatFmt) (neg : Bool) : Nat := ofBool neg * 2 ^ (f.width - 1) + 0xFF * 2 ^ (f.p - 1)
/-- The largest finite value, with sign. -/
def maxBits (f : FloatFmt) (neg : Bool) : Nat := infBits f neg - 1

/-- Exponent of the spacing of a format at a magnitude. -/
def ulpExp (f : FloatFmt) (m : Nat) (e : Int) : Int := max ((m.log2 : Int) + 1 + e - f.p) f.ulpMin

/-- Bits of q steps of size 2^u, where q ≤ 2^p. -/
def packFloat (f : FloatFmt) (neg : Bool) (q : Nat) (u : Int) : Nat :=
  let s := ofBool neg * 2 ^ (f.width - 1)
  if q < 2 ^ (f.p - 1) then s + q
  else if q = 2 ^ f.p then s + (u + 1 - f.ulpMin + 1).toNat * 2 ^ (f.p - 1)
  else s + (u - f.ulpMin + 1).toNat * 2 ^ (f.p - 1) + (q - 2 ^ (f.p - 1))

/-- q steps of 2^u reach 2^128. -/
def tooLarge (q : Nat) (u : Int) : Bool := if u < 128 then decide (2 ^ (128 - u).toNat ≤ q) else decide (q ≠ 0)

/-- A finite value rounded once to a floating format: bits and flags (R115, R118). -/
def toFloatFin (f : FloatFmt) (k : Rounding) (neg : Bool) (m : Nat) (e : Int) : Nat × Nat :=
  if m = 0 then (0, 0)
  else
    let u := ulpExp f m e
    let q := roundMag k neg m (u - e)
    if tooLarge q u then (if k.satfp then maxBits f neg else infBits f neg, flOverflow)
    else (packFloat f neg q u, 0)

/-- A value rounded once to a floating format. -/
def toFloat (f : FloatFmt) (k : Rounding) : Val → Nat × Nat
  | .nan => (canonicalNan f, flInvalid)
  | .inf neg => (infBits f neg, 0)
  | .fin neg m e => toFloatFin f k neg m e

/-- An integer saturated to w bits, as two's complement, and SATURATE where it was. -/
def saturate (w : Nat) (i : Int) : Nat × Nat :=
  let hi : Int := 2 ^ (w - 1) - 1
  let lo : Int := -(2 ^ (w - 1))
  if hi < i then (wrapInt w hi, flSaturate) else if i < lo then (wrapInt w lo, flSaturate) else (wrapInt w i, 0)

/-- A finite value rounded to an integer. -/
def roundInt (k : Rounding) (neg : Bool) (m : Nat) (e : Int) : Int :=
  let q : Int := roundMag k neg m (-e)
  if neg then -q else q

/-- An integer over a power of two, rounded. -/
def shiftRound (k : Rounding) (i : Int) (sh : Nat) : Int := roundInt k (decide (i < 0)) i.natAbs (-(sh : Int))

/-- A value rounded once to INT32 (R114, R118). -/
def toInt32 (k : Rounding) : Val → Nat × Nat
  | .nan => (0, flInvalid)
  | .inf neg => (if neg then 2 ^ 31 else 2 ^ 31 - 1, flSaturate)
  | .fin neg m e => saturate 32 (roundInt k neg m e)

/-! ## Exact arithmetic on values -/

def signed (neg : Bool) (m : Nat) : Int := if neg then -(m : Int) else m

/-- A signed integer times 2^e; an exact zero is +0. -/
def ofInt (i : Int) (e : Int) : Val := .fin (decide (i < 0)) i.natAbs e

/-- Exact sum (R118 for the special values). -/
def addVal : Val → Val → Val
  | .nan, _ => .nan
  | _, .nan => .nan
  | .inf a, .inf b => if a = b then .inf a else .nan
  | .inf a, _ => .inf a
  | _, .inf b => .inf b
  | .fin a m e, .fin b n g =>
    let l := min e g
    ofInt (signed a (m * 2 ^ (e - l).toNat) + signed b (n * 2 ^ (g - l).toNat)) l

/-- Exact product. -/
def mulVal : Val → Val → Val
  | .nan, _ => .nan
  | _, .nan => .nan
  | .inf a, .inf b => .inf (a != b)
  | .inf a, .fin b n _ => if n = 0 then .nan else .inf (a != b)
  | .fin a m _, .inf b => if m = 0 then .nan else .inf (a != b)
  | .fin a m e, .fin b n g => .fin (a != b) (m * n) (e + g)

def negVal : Val → Val
  | .nan => .nan
  | .inf a => .inf (!a)
  | .fin a m e => .fin (!a) m e

def scaleVal (v : Val) (x : Int) : Val :=
  match v with
  | .fin a m e => .fin a m (e + x)
  | w => w

def isZero : Val → Bool
  | .fin _ m _ => decide (m = 0)
  | _ => false

/-- x < y on values without NaN. -/
def ltVal (x y : Val) : Bool :=
  match addVal y (negVal x) with
  | .fin neg m _ => !neg && decide (m ≠ 0)
  | .inf neg => !neg
  | .nan => false

/-! ## Decoding elements (R103) -/

/-- A floating element: exponent bits, mantissa bits, bias, and what its top exponent means: 0 an ordinary
number, 1 NaN only for an all-ones mantissa, 2 infinities and NaNs as IEEE 754. -/
def decodeFloat (eb mb bias special v : Nat) : Val :=
  let neg := bitOf v (eb + mb)
  let e := bits v (eb + mb - 1) mb
  let m := v % 2 ^ mb
  let top := 2 ^ eb - 1
  if special = 2 ∧ e = top then (if m = 0 then .inf neg else .nan)
  else if special = 1 ∧ e = top ∧ m = 2 ^ mb - 1 then .nan
  else if e = 0 then .fin neg m (1 - (bias : Int) - mb)
  else .fin neg (2 ^ mb + m) ((e : Int) - bias - mb)

/-- Element by FORMAT code (R77, R103); CFX16 is decoded by its parts. -/
def decodeElem (fmt v : Nat) : Val :=
  if fmt = 0 then decodeFloat 4 3 7 1 v
  else if fmt = 1 then decodeFloat 5 2 15 2 v
  else if fmt = 2 then decodeFloat 3 2 3 0 v
  else if fmt = 3 then decodeFloat 2 3 1 0 v
  else if fmt = 4 then decodeFloat 2 1 1 0 v
  else if fmt = 5 then ofInt (signedOf 8 v) 0
  else if fmt = 6 then ofInt (signedOf 4 v) 0
  else if fmt = 7 then decodeFloat 8 7 127 2 v
  else decodeFloat 8 23 127 2 v

/-- Bits per element (R68). -/
def elemBits (fmt : Nat) : Nat :=
  if fmt = 2 ∨ fmt = 3 then 6 else if fmt = 4 ∨ fmt = 6 then 4 else if fmt = 7 then 16
  else if fmt = 8 ∨ fmt = 9 then 32 else 8

/-- Elements per word (R68, R85). -/
def elemCount (fmt : Nat) : Nat :=
  if fmt = 4 ∨ fmt = 6 then 40 else if fmt = 7 then 10 else if fmt = 8 ∨ fmt = 9 then 5 else 20

/-- Element i of a 160-bit payload (R68). -/
def elemOf (fmt payload i : Nat) : Nat := payload / 2 ^ (elemBits fmt * i) % 2 ^ elemBits fmt

def elems (fmt payload : Nat) : List Nat := (List.range (elemCount fmt)).map (elemOf fmt payload)

/-- Block scale exponent, or none where the code is NaN (R105). -/
def scaleExp (code : Nat) : Option Int := if code = 255 then none else some ((code : Int) - 127)

end Sys2Proof.Machine
end

