-- ==== Sys2Proof/Machine/Arith.lean ====
section
/-!
DEFINITION. A fold slot as its image gives it (R76, R77, R108) and the arithmetic of the multiplier: column
terms, accumulators, exact sums, merges and read-outs (R110–R128). Everything here is a function of
operands and slot alone (R132).
-/

namespace Sys2Proof.Machine

/-! ## Slot images -/

/-- n bytes of a sparse image as a little-endian number. -/
def leTab (t : Table Byte) (off : Nat) : Nat → Nat
  | 0 => 0
  | n + 1 => (look t off).toNat + 256 * leTab t (off + 1) n

/-- Header and PARAM of a fold slot, or of a memory or edge tile's set (R77, R108). -/
structure SlotImg where
  ix : Nat := 0
  valid : Bool := false
  pers : Nat := 0
  tagFiring : Bool := false
  format : Nat := 0
  round : Nat := 0
  exact : Bool := false
  ctx : Nat := 0
  lsBase : Nat := 0
  lsLen : Nat := 0
  qmask : Nat := 0
  tagq : Nat := 0
  accMask : Nat := 0
  budget : Nat := 0
  entry : Nat := 0
  tagBase : Nat := 0
  ctrInit : List (BitVec 16) := []
  seqStart : Nat := 0
  outFmt : Nat := 0
  satfp : Bool := false
  ascEn : Bool := false
  wscEn : Bool := false
  mergeEn : Bool := false
  asq : Nat := 0
  trap : Nat := 0
  winBase : Int := 0
  ascale : Nat := 0
  cshift : Nat := 0
  cout : Nat := 0
  srStream : Nat := 0
  deriving DecidableEq, Repr, Inhabited

/-- Byte offset of a fold slot's image in its set. -/
def slotBase (ix : Nat) : Nat := 2048 * ix

def slotImg (t : Table Byte) (ix : Nat) : SlotImg :=
  let b := slotBase ix
  let w0 := leTab t b 4
  let w1 := leTab t (b + 4) 4
  let w2 := leTab t (b + 8) 4
  let w3 := leTab t (b + 0xC) 4
  let p0 := leTab t (b + 0x20) 2
  { ix := ix
    valid := bitOf w0 0
    pers := bits w0 2 1
    tagFiring := bitOf w0 3
    format := bits w0 7 4
    round := bits w0 9 8
    exact := bitOf w0 10
    ctx := bits w0 26 16
    lsBase := 256 * bits w1 7 0
    lsLen := 256 * bits w1 16 8
    qmask := bits w2 7 0
    tagq := bits w2 15 8
    accMask := bits w2 19 16
    budget := bits w3 15 0
    entry := bits w3 24 16
    tagBase := leTab t (b + 0x10) 2
    ctrInit := (List.range 4).map fun i => BitVec.ofNat 16 (leTab t (b + 0x14 + 2 * i) 2)
    seqStart := bits (leTab t (b + 0x1C) 1) 5 0
    outFmt := bits p0 2 0
    satfp := bitOf p0 3
    ascEn := bitOf p0 4
    wscEn := bitOf p0 5
    mergeEn := bitOf p0 6
    asq := bits p0 10 8
    trap := bits p0 15 12
    winBase := signedOf 10 (leTab t (b + 0x22) 2)
    ascale := leTab t (b + 0x24) 2
    cshift := bits (leTab t (b + 0x26) 1) 4 0
    cout := bits (leTab t (b + 0x27) 1) 4 0
    srStream := leTab t (b + 0x28) 4 }

/-! ## Stochastic rounding (R116) -/

/-- Seed of the slot's context and ticks since its timetable was admitted. -/
structure SrEnv where
  seed : BitVec 64 := 0
  ticks : Nat := 0
  deriving DecidableEq, Repr, Inhabited

/-- Place of the count of roundings of a stream in a lane or column (R116). -/
def srKey (sl : SlotImg) (lane : Nat) : Nat := 4 * sl.srStream + lane

/-- The rounding a slot makes next in a lane or column. -/
def roundingOf (env : SrEnv) (sl : SlotImg) (d : SlotDyn) (lane : Nat) : Rounding :=
  { mode := sl.round
    satfp := sl.satfp
    r := if sl.round = 2 then
        (philox env.seed [BitVec.ofNat 32 sl.srStream, BitVec.ofNat 32 (look d.rounds (srKey sl lane)),
          BitVec.ofNat 32 env.ticks, BitVec.ofNat 32 lane]).toNat % 2 ^ 24
      else 0 }

/-- The slot has performed one more rounding in a lane. Which conversions count as roundings R116 does not say:
every conversion of a READ counts, that of a NaN or an infinite lane and of a 64-bit integer to INT32 with them,
but not the identity of binary32 to FP32. Log 239, DESIGN CHOICE. -/
def counted (sl : SlotImg) (d : SlotDyn) (lane : Nat) : SlotDyn :=
  { d with rounds := upd d.rounds (srKey sl lane) (· + 1) }

def orFlags (d : SlotDyn) (f : Nat) : SlotDyn := { d with flags := d.flags ||| BitVec.ofNat 4 f }

def setAcc (d : SlotDyn) (c v : Nat) : SlotDyn := { d with accs := d.accs.set c (BitVec.ofNat 64 v) }
def accOf (d : SlotDyn) (c : Nat) : Nat := (d.accs.getD c 0).toNat

/-! ## Column terms (R111, R112) -/

/-- Column c of a weight block as a payload. -/
def columnOf (block : List Byte) (c : Nat) : Nat := leAt block (20 * c) 20
def weightScale (block : List Byte) (c : Nat) : Nat := (block.getD (80 + c) 127).toNat

/-- Sum of two block scales as a power of two, or none where one is NaN. -/
def pairScale (a w : Nat) : Option Int :=
  match scaleExp a, scaleExp w with
  | some x, some y => some (x + y)
  | _, _ => none

/-- The exact column term of an input word. -/
def columnTerm (sl : SlotImg) (it : PipeItem) (c : Nat) : Val :=
  match pairScale it.ascale (weightScale it.block c) with
  | none => .nan
  | some x =>
    scaleVal ((List.zipWith (fun a b => mulVal (decodeElem sl.format a) (decodeElem sl.format b))
      (elems sl.format it.payload.toNat) (elems sl.format (columnOf it.block c))).foldl addVal (.fin false 0 0)) x

/-- The integer column term of INT8 and INT4 without scales. -/
def intTerm (sl : SlotImg) (it : PipeItem) (c : Nat) : Int :=
  match columnTerm sl it c with
  | .fin neg m e => signed neg (m * 2 ^ e.toNat)
  | _ => 0

/-- Real and imaginary column term of CFX16, in units of 2^-30 (R113). -/
def complexTerm (it : PipeItem) (c : Nat) : Int × Int :=
  (List.zipWith (fun a b =>
    let ar := signedOf 16 a
    let ai := signedOf 16 (a / 2 ^ 16)
    let br := signedOf 16 b
    let bi := signedOf 16 (b / 2 ^ 16)
    (ar * br - ai * bi, ar * bi + ai * br)) (elems 9 it.payload.toNat) (elems 9 (columnOf it.block c))).foldl
    (fun s p => (s.1 + p.1, s.2 + p.2)) (0, 0)

/-- The slot accumulates 64-bit integers (R112). -/
def isIntAcc (sl : SlotImg) : Bool := (decide (sl.format = 5) || decide (sl.format = 6)) && !sl.ascEn && !sl.wscEn

/-! ## Column accumulators (R112, R113) -/

def addFloat (env : SrEnv) (sl : SlotImg) (d : SlotDyn) (c : Nat) (term : Val) : SlotDyn :=
  let r := toFloat fp32 (roundingOf env sl d c) (addVal (decodeElem 8 (accOf d c % 2 ^ 32)) term)
  orFlags (setAcc (counted sl d c) c r.1) r.2

/-- One part of a CFX16 accumulator after a shifted, rounded term. The spec does not order the two roundings of a
column: the real part is rounded first, and both advance the column's one counter. Log 238, DESIGN CHOICE. -/
def addPart (env : SrEnv) (sl : SlotImg) (d : SlotDyn) (c hi : Nat) (term : Int) : SlotDyn :=
  let a := accOf d c
  let r := saturate 32 (signedOf 32 (a / 2 ^ hi) + shiftRound (roundingOf env sl d c) term sl.cshift)
  orFlags (setAcc (counted sl d c) c (a - bits a (hi + 31) hi * 2 ^ hi + r.1 * 2 ^ hi)) r.2

def addColumn (env : SrEnv) (sl : SlotImg) (it : PipeItem) (d : SlotDyn) (c : Nat) : SlotDyn :=
  if sl.format = 9 then
    let t := complexTerm it c
    addPart env sl (addPart env sl d c 0 t.1) c 32 t.2
  else if isIntAcc sl then setAcc d c (wrapInt 64 ((accOf d c : Int) + intTerm sl it c))
  else addFloat env sl d c (columnTerm sl it c)

/-! ## Exact sums (R121–R123) -/

/-- Window exponent X of a product; none where it is not finite. -/
def windowExp (sl : SlotImg) (x : Int) (a b : Val) : Int :=
  if sl.format = 7 then
    match a, b with
    | .fin _ _ e, .fin _ _ g => e + 7 + (g + 7)
    | _, _ => 0
  else x

/-- A contribution reaches an exact accumulator (R122). -/
def contribute (sl : SlotImg) (x : Int) (acc : ExactAcc) (a b : Val) : ExactAcc :=
  match scaleVal (mulVal a b) (if sl.format = 7 then 0 else x) with
  | .nan => { acc with nan := true }
  | .inf neg => if neg then { acc with ninf := true } else { acc with pinf := true }
  | .fin neg m e =>
    let xw := windowExp sl x a b
    if m = 0 then acc
    else if sl.winBase ≤ xw ∧ xw ≤ sl.winBase + 95 then
      { acc with a := acc.a + BitVec.ofInt 320 (signed neg (m * 2 ^ (e - sl.winBase + 32).toNat)) }
    else { acc with range := true }

def contributeAll (sl : SlotImg) (x : Int) (acc : ExactAcc) : List Nat → List Nat → ExactAcc
  | a :: l, b :: r =>
    contributeAll sl x (contribute sl x acc (decodeElem sl.format a) (decodeElem sl.format b)) l r
  | _, _ => acc

/-- The accumulator with its flags clear: what an input raises is then seen by itself. -/
def unflagged (acc : ExactAcc) : ExactAcc := { a := acc.a }

/-- The sticky flags of an accumulator, with those an input has raised (R121). -/
def stickyFlags (old new : ExactAcc) : ExactAcc :=
  { new with range := old.range || new.range, nan := old.nan || new.nan, pinf := old.pinf || new.pinf,
             ninf := old.ninf || new.ninf, mismatch := old.mismatch || new.mismatch }

/-- Column c of an input word, added to an accumulator whose flags are clear. Log 200, DEDUCED. -/
def exactColumn (sl : SlotImg) (it : PipeItem) (c : Nat) (acc : ExactAcc) : ExactAcc :=
  match pairScale it.ascale (weightScale it.block c) with
  | none => { acc with nan := true }
  | some x =>
    contributeAll sl x acc (elems sl.format it.payload.toNat) (elems sl.format (columnOf it.block c))

/-- Slot flags that set with the flags an input raises (R119, R123). -/
def exactFlags (e : ExactAcc) : Nat := ofBool e.range * flRange + ofBool e.nan * flInvalid

/-- Exact partial in the transfer format (R125). -/
def partialBits (sl : SlotImg) (e : ExactAcc) : Nat :=
  let i := e.a.toInt
  let hi : Int := 2 ^ 303 - 1
  let lo : Int := -(2 ^ 303)
  let fits := decide (lo ≤ i) && decide (i ≤ hi)
  wrapInt 304 (max lo (min hi i)) + ofBool e.ninf * 2 ^ 306 + ofBool e.pinf * 2 ^ 307 + ofBool e.nan * 2 ^ 308 +
    ofBool (e.range || !fits) * 2 ^ 309 + wrapInt 10 sl.winBase * 2 ^ 310

/-- A partial is merged (R127). -/
def mergePartial (sl : SlotImg) (p : Nat) (e : ExactAcc) : ExactAcc :=
  if bits p 319 310 = wrapInt 10 sl.winBase then
    { e with
      a := e.a + BitVec.ofInt 320 (signedOf 304 p)
      range := e.range || bitOf p 309
      nan := e.nan || bitOf p 308
      pinf := e.pinf || bitOf p 307
      ninf := e.ninf || bitOf p 306 }
  else { e with range := true, mismatch := true }

/-! ## An input enters the accumulators -/

def zeroAccs (d : SlotDyn) : SlotDyn := { d with accs := [0, 0, 0, 0] }

/-- A pipeline item enters: the slot's dynamic state and the tile's exact accumulators after it. -/
def enter (env : SrEnv) (sl : SlotImg) (d : SlotDyn) (ex : Table ExactAcc) (it : PipeItem) :
    SlotDyn × Table ExactAcc :=
  let ex := if it.clr ∧ sl.exact then [] else ex
  let d := if it.clr then zeroAccs d else d
  match it.soft with
  | some r => (setAcc (setAcc d 0 r.1.toNat) 1 r.2.toNat, ex)
  | none =>
    if it.merge then
      let p := it.payload.toNat + it.payload2.toNat * 2 ^ 160
      let e := mergePartial sl p (unflagged (look ex it.acc))
      ({ orFlags d (exactFlags e) with mergeMismatch := d.mergeMismatch || e.mismatch },
        put ex it.acc (stickyFlags (look ex it.acc) e))
    else if sl.exact then
      let es := (List.range 4).map fun c => exactColumn sl it c (unflagged (look ex c))
      (es.foldl (fun d e => orFlags d (exactFlags e)) d,
        (List.range 4).foldl (fun t c => put t c (stickyFlags (look ex c) (es.getD c {}))) ex)
    else ((List.range 4).foldl (fun d c => addColumn env sl it d c) d, ex)

/-! ## Read-outs (R113, R114, R124, R126) -/

/-- A value to the read-out format: lane bits and flags. -/
def toOut (sl : SlotImg) (k : Rounding) (v : Val) : Nat × Nat :=
  if sl.outFmt = 1 then toFloat bf16 k v
  else if sl.outFmt = 2 then toInt32 k v
  else toFloat fp32 k v

/-- Lane c of a read-out of the column accumulators. -/
def readColumn (env : SrEnv) (sl : SlotImg) (d : SlotDyn) (c : Nat) : SlotDyn × Nat :=
  let a := accOf d c
  let k := roundingOf env sl d c
  if sl.format = 9 then
    let r := saturate 16 (shiftRound k (signedOf 32 a) sl.cout)
    let d := orFlags (counted sl d c) r.2
    let i := saturate 16 (shiftRound (roundingOf env sl d c) (signedOf 32 (a / 2 ^ 32)) sl.cout)
    (orFlags (counted sl d c) i.2, r.1 + i.1 * 2 ^ 16)
  else if isIntAcc sl then
    let r := if sl.outFmt = 2 then saturate 32 (signedOf 64 a) else toOut sl k (ofInt (signedOf 64 a) 0)
    (orFlags (counted sl d c) r.2, r.1)
  else if sl.outFmt = 0 then (d, a % 2 ^ 32)
  else
    let r := toOut sl k (decodeElem 8 (a % 2 ^ 32))
    (orFlags (counted sl d c) r.2, r.1)

/-- An infinite exact sum in the read-out format; for INT32 −∞ gives −(2^31 − 1), +∞ negated (R124). -/
def exactInf (sl : SlotImg) (neg : Bool) : Nat × Nat :=
  if sl.outFmt = 2 then (if neg then 2 ^ 31 + 1 else 2 ^ 31 - 1, flOverflow)
  else
    let f := if sl.outFmt = 1 then bf16 else fp32
    if sl.satfp then (maxBits f neg, flOverflow) else (infBits f neg, 0)

/-- Lane c of a read-out of the exact accumulators. -/
def readExact (env : SrEnv) (sl : SlotImg) (ex : Table ExactAcc) (d : SlotDyn) (c : Nat) : SlotDyn × Nat :=
  let e := look ex c
  let r :=
    if e.nan ∨ (e.pinf ∧ e.ninf) then toOut sl {} .nan
    else if e.pinf then exactInf sl false
    else if e.ninf then exactInf sl true
    else toOut sl (roundingOf env sl d c) (ofInt e.a.toInt (sl.winBase - 32))
  (orFlags (counted sl d c) r.2, r.1)

/-- Lanes of a result word. -/
def lanes (l : List Nat) : BitVec 160 :=
  BitVec.ofNat 160 ((l.zipIdx.map fun (v, i) => v % 2 ^ 32 * 2 ^ (32 * i)).foldl (· + ·) 0)

/-- The result word of a READ, four lanes and a zero fifth. -/
def readOut (env : SrEnv) (sl : SlotImg) (ex : Table ExactAcc) (d : SlotDyn) : SlotDyn × BitVec 160 :=
  let r := (List.range 4).foldl (fun (acc : SlotDyn × List Nat) c =>
    let x := if sl.exact then readExact env sl ex acc.1 c else readColumn env sl acc.1 c
    (x.1, acc.2 ++ [x.2])) (d, [])
  (r.1, lanes r.2)

/-- The eight payloads of a RAW read-out (R126). -/
def rawOut (sl : SlotImg) (ex : Table ExactAcc) : List (BitVec 160) :=
  (List.range 4).flatMap fun c =>
    let p := partialBits sl (look ex c)
    [BitVec.ofNat 160 p, BitVec.ofNat 160 (p / 2 ^ 160)]

end Sys2Proof.Machine
end

