-- ==== Sys2Proof/Machine/SpecialFn.lean ====
section
/-!
DEFINITION. The special functions (R88, R129, R130) on one input word. Real functions are evaluated in
fixed point far beyond the target's precision and then rounded once; where R129 allows a bound instead of
one result, the result is any value within the bound, chosen by `Config.sfError`.
-/

namespace Sys2Proof.Machine

/-! ## Fixed-point evaluation -/

/-- Fraction bits of the fixed-point evaluations. -/
def fxBits : Nat := 640
def fxOne : Nat := 2 ^ fxBits

/-- Terms of the series of artanh at n/d: (n/d)^(2i+1)/(2i+1). -/
def artanhGo (n d : Nat) : Nat → Nat → Nat → Nat
  | 0, _, _ => 0
  | fuel + 1, i, p => if p = 0 then 0 else p / (2 * i + 1) + artanhGo n d fuel (i + 1) (p * n / d * n / d)

def artanhFx (n d : Nat) : Nat := artanhGo n d 640 0 (fxOne * n / d)

/-- ln 2 in fixed point: 2 artanh(1/3). -/
def ln2Fx : Nat := 2 * artanhFx 1 3

/-- Taylor terms r^i/i! from a term on. -/
def expGo (r : Nat) : Nat → Nat → Nat → Nat
  | 0, _, _ => 0
  | fuel + 1, i, t => if t = 0 then 0 else t + expGo r fuel (i + 1) (t * r / fxOne / (i + 1))

/-- A value as a signed fixed-point number, rounded down in magnitude. -/
def toFx (neg : Bool) (m : Nat) (e : Int) : Int :=
  let v := if 0 ≤ e + fxBits then m * 2 ^ (e + fxBits).toNat else m / 2 ^ (-(e + fxBits)).toNat
  if neg then -(v : Int) else v

/-- exp of a fixed-point number: mantissa in [1, 2) in fixed point, and the power of two. -/
def expFx (x : Int) : Nat × Int :=
  let k := x / ln2Fx
  let r := (x - k * ln2Fx).toNat
  (expGo r 400 0 fxOne, k)

/-- A positive result as mantissa and exponent, and whether bits below it are not zero. -/
structure Approx where
  neg : Bool := false
  m : Nat := 0
  e : Int := 0
  inexact : Bool := true
  deriving DecidableEq, Repr, Inhabited

/-- What a function of a finite input gives: an exact special value, or an approximation to be rounded. -/
inductive FnResult where
  | exact (v : Val)
  | approx (a : Approx)
  deriving DecidableEq, Repr, Inhabited

def signedApprox (v : Int) (e : Int) : FnResult :=
  if v = 0 then .exact (.fin false 0 0) else .approx { neg := decide (v < 0), m := v.natAbs, e := e }

/-- Beyond this magnitude exponentials leave every target's range. -/
def hugeFx : Nat := 400 * fxOne

/-- exp of a finite value. -/
def expFin (neg : Bool) (m : Nat) (e : Int) : FnResult :=
  if m = 0 then .exact (.fin false 1 0)
  else if 400 < e + m.log2 ∨ hugeFx < (toFx false m e).natAbs then
    .approx { m := 1, e := if neg then -5000 else 5000 }
  else
    let x := toFx neg m e
    if x = 0 then .approx { m := if neg then fxOne - 1 else fxOne + 1, e := -(fxBits : Int) }
    else
      let r := expFx x
      .approx { m := r.1, e := r.2 - fxBits }

/-- ln of a positive value. -/
def logFin (m : Nat) (e : Int) : FnResult :=
  let b := m.log2
  -- mantissa in [1, 2) is m / 2^b; ln = 2 artanh((y - 1)/(y + 1)) with y that mantissa
  let f := 2 * artanhFx (m - 2 ^ b) (m + 2 ^ b)
  signedApprox (((e + b) * (ln2Fx : Int)) + f) (-(fxBits : Int))

/-- Square root of a number, rounded down, by bits from the top. -/
def isqrtGo (n : Nat) : Nat → Nat → Nat
  | 0, r => r
  | i + 1, r =>
    let r' := r + 2 ^ i
    isqrtGo n i (if r' * r' ≤ n then r' else r)

def isqrt (n : Nat) : Nat := isqrtGo n (n.log2 / 2 + 1) 0

/-- 1/x of a positive value. -/
def recipFin (neg : Bool) (m : Nat) (e : Int) : FnResult :=
  .approx { neg := neg, m := fxOne / m, e := -(fxBits : Int) - e, inexact := decide (fxOne % m ≠ 0) }

/-- 1/√x of a positive value. -/
def rsqrtFin (m : Nat) (e : Int) : FnResult :=
  -- make the exponent even: x = m' 2^(2h)
  let m' := if e % 2 = 0 then m else 2 * m
  let h := if e % 2 = 0 then e / 2 else (e - 1) / 2
  let q := fxOne * fxOne / m'
  let r := isqrt q
  .approx { m := r, e := -(fxBits : Int) - h, inexact := decide (r * r ≠ q) || decide (fxOne * fxOne % m' ≠ 0) }

/-- exp as a fixed-point number, for arguments at most 0 and above −400. -/
def expNegFx (x : Int) : Nat :=
  let r := expFx x
  r.1 / 2 ^ (-r.2).toNat

/-- 1/(1 + exp(−x)). -/
def sigmoidFin (neg : Bool) (m : Nat) (e : Int) : FnResult :=
  if m = 0 then .exact (.fin false 1 (-1))
  else if 400 < e + m.log2 ∨ hugeFx < (toFx false m e).natAbs then
    .approx (if neg then { m := 1, e := -5000 } else { m := fxOne - 1, e := -(fxBits : Int) })
  else
    let t := expNegFx (-(toFx false m e))
    -- for x > 0 it is 1/(1 + t), for x < 0 t/(1 + t), with t = exp(−|x|)
    .approx { m := (if neg then t else fxOne) * fxOne / (fxOne + t), e := -(fxBits : Int) }

/-- tanh x, of the sign of x. -/
def tanhFin (neg : Bool) (m : Nat) (e : Int) : FnResult :=
  if m = 0 then .exact (.fin neg 0 0)
  else if 400 < e + m.log2 ∨ hugeFx < (toFx false m e).natAbs then
    .approx { neg := neg, m := fxOne - 1, e := -(fxBits : Int) }
  else if e + m.log2 < -100 then
    -- x less x³/3: the cube lies below every bit kept
    .approx { neg := neg, m := m * 2 ^ 300 - 1, e := e - 300 }
  else
    let t := expNegFx (-(2 * toFx false m e))
    .approx { neg := neg, m := (fxOne - t) * fxOne / (fxOne + t), e := -(fxBits : Int) }

/-- Function codes 0–5 on any input, with the edge values of R129; the flag is INVALID. Log 199, DEDUCED. -/
def sfValue (code : Nat) : Val → FnResult
  | .nan => .exact .nan
  | .inf neg =>
    if code = 0 then .exact (if neg then .fin false 0 0 else .inf false)
    else if code = 1 then .exact (if neg then .nan else .inf false)
    else if code = 2 then .exact (.fin neg 0 0)
    else if code = 3 then .exact (if neg then .nan else .fin false 0 0)
    else if code = 4 then .exact (if neg then .fin false 0 0 else .fin false 1 0)
    else .exact (.fin neg 1 0)
  | .fin neg m e =>
    if code = 0 then expFin neg m e
    else if code = 1 then
      if m = 0 then .exact (.inf true) else if neg then .exact .nan
      else if m = 2 ^ m.log2 ∧ e + m.log2 = 0 then .exact (.fin false 0 0) else logFin m e
    else if code = 2 then (if m = 0 then .exact (.inf neg) else recipFin neg m e)
    else if code = 3 then
      if m = 0 then .exact (.inf neg) else if neg then .exact .nan else rsqrtFin m e
    else if code = 4 then sigmoidFin neg m e
    else tanhFin neg m e

/-! ## Rounding to the output -/

/-- Round an approximation to nearest; a sticky bit stands for what lies below it. -/
def roundNear (f : FloatFmt) (satfp : Bool) (a : Approx) : Nat × Nat :=
  toFloatFin f { satfp := satfp } a.neg (2 * a.m + ofBool a.inexact) (a.e - 1)

/-- A result within `bound` steps of the exact one, R129: the open choice is Config.sfError. A result of zero keeps
the exact value's sign (R115). Log 199, DEDUCED. -/
def roundWithin (f : FloatFmt) (satfp : Bool) (bound : Nat) (code arg : Nat) (a : Approx) : Nat × Nat :=
  let m := 2 * a.m + ofBool a.inexact
  let e := a.e - 1
  let u := ulpExp f m e
  let q : Int := roundMag { mode := 1 } a.neg m (u - e)
  let exact := !a.inexact && decide ((q.toNat : Int) * 2 ^ (max u (min u e) - min u e).toNat = m * 2 ^ (e - min u e).toNat)
  let lo : Int := max 0 (if exact then q - bound else q - bound + 1)
  let n := (lo + Config.sfError code arg % ((q + bound - lo) + 1)).toNat
  if n = 0 then (ofBool a.neg * 2 ^ (f.width - 1), 0) else toFloatFin f { satfp := satfp } a.neg n u

/-- Bound of a function in steps for FP32 output (R129). Log 199, DEDUCED. -/
def sfBound (code : Nat) : Nat := if code = 2 ∨ code = 3 then 1 else if code = 7 then 3 else 2

/-- An exact special value in the output format; a zero keeps its sign. -/
def exactOut (f : FloatFmt) (satfp : Bool) (v : Val) : Nat × Nat :=
  match v with
  | .fin neg m e =>
    if m = 0 then (ofBool neg * 2 ^ (f.width - 1), 0) else toFloatFin f { satfp := satfp } neg m e
  | w => toFloat f {} w

/-- A function's result in its output format. -/
def sfOut (f : FloatFmt) (satfp : Bool) (code arg : Nat) (r : FnResult) : Nat × Nat :=
  match r with
  | .exact v => exactOut f satfp v
  | .approx a => if f.width = 16 then roundNear f satfp a else roundWithin f satfp (sfBound code) code arg a

def outFmtOf (fmt : Nat) : FloatFmt := if fmt = 7 then bf16 else fp32

/-- Codes 0–5 on one element: bits and flags. -/
def sfElement (code fmt : Nat) (satfp : Bool) (v : Nat) : Nat × Nat :=
  sfOut (outFmtOf fmt) satfp code v (sfValue code (decodeElem fmt v))

/-- Elements placed back into a payload. -/
def ofElems (fmt : Nat) (l : List Nat) : BitVec 160 :=
  BitVec.ofNat 160 ((l.zipIdx.map fun (v, i) => v % 2 ^ elemBits fmt * 2 ^ (elemBits fmt * i)).foldl (· + ·) 0)

def orAllFlags (l : List (Nat × Nat)) : Nat := (l.map (·.2)).foldl (· ||| ·) 0

/-- Codes 0–5 on one word. -/
def sfWord (code fmt : Nat) (satfp : Bool) (payload : BitVec 160) : BitVec 160 × Nat :=
  let r := (elems fmt payload.toNat).map (sfElement code fmt satfp)
  (ofElems fmt (r.map (·.1)), orAllFlags r)

/-! ## Softmax (R129) -/

/-- exp of a difference to FP32, as code 0. -/
def expTerm (x max : Val) : Nat × Nat :=
  let d := addVal x (negVal max)
  sfOut fp32 false 0 (toFloat fp32 {} d).1 (sfValue 0 d)

/-- Pass 1 takes one element: the running maximum, the sum and the flags. Every term is in the sum; how the sum
held is brought to a maximum that rises is not stated: a free value by the sum and the two maxima. Log 198, DESIGN
CHOICE. -/
def softmaxStep (fmt : Nat) (st : Option Nat × Nat × Nat) (v : Nat) : Option Nat × Nat × Nat :=
  let x := decodeElem fmt v
  let xb := (toFloat fp32 {} x).1
  match st with
  | (none, _, fl) =>
    let t := expTerm x x
    (some xb, t.1, fl ||| t.2 ||| (toFloat fp32 {} x).2)
  | (some mb, sum, fl) =>
    let m := decodeElem 8 mb
    let rises := ltVal m x || decide (x = .nan)
    let mb' := if rises then xb else mb
    let sum' := if rises then (Config.unstated 0 [sum, mb, xb] 32).toNat else sum
    let t := expTerm x (decodeElem 8 mb')
    let r := toFloat fp32 {} (addVal (decodeElem 8 sum') (decodeElem 8 t.1))
    (some mb', r.1, fl ||| t.2 ||| r.2)

/-- Pass 1 on one word. When maximum and sum start anew the spec does not say: `fresh`, at the first word of each
FIRE entry. Log 240, DESIGN CHOICE. -/
def softmaxPass1 (fmt : Nat) (fresh : Bool) (max sum : Nat) (payload : BitVec 160) : Nat × Nat × Nat :=
  let r := (elems fmt payload.toNat).foldl (softmaxStep fmt) (if fresh then none else some max, sum, 0)
  (r.1.getD 0, r.2.1, r.2.2)

/-- Pass 2 on one element: exp(x − max) / sum within its bound. A quotient by a sum of zero is not stated: a free
value by the operands. Log 198, DESIGN CHOICE. -/
def softmaxElement (fmt : Nat) (satfp : Bool) (max sum v : Nat) : Nat × Nat :=
  let f := outFmtOf fmt
  let d := addVal (decodeElem fmt v) (negVal (decodeElem 8 max))
  match decodeElem 8 sum with
  | .nan => toFloat f {} .nan
  | .inf _ => if d = .nan ∨ d = .inf false then toFloat f {} .nan else (0, 0)
  | .fin _ m e =>
    if d = .nan then toFloat f {} .nan
    else if m = 0 then ((Config.unstated 1 [max, v] f.width).toNat, 0)
    else
      match sfValue 0 d with
      | .exact (.fin _ 0 _) => (0, 0)
      | .exact (.fin _ a g) =>
        roundWithin f satfp (if fmt = 7 then 1 else 3) 7 (v + 2 ^ 32 * (max + 2 ^ 32 * sum))
          { m := a * fxOne / m, e := g - fxBits - e, inexact := decide (a * fxOne % m ≠ 0) }
      | .exact w => toFloat f {} w
      | .approx a =>
        roundWithin f satfp (if fmt = 7 then 1 else 3) 7 (v + 2 ^ 32 * (max + 2 ^ 32 * sum))
          { m := a.m * fxOne / m, e := a.e - fxBits - e }

def softmaxPass2 (fmt : Nat) (satfp : Bool) (max sum : Nat) (payload : BitVec 160) : BitVec 160 × Nat :=
  let r := (elems fmt payload.toNat).map (softmaxElement fmt satfp max sum)
  (ofElems fmt (r.map (·.1)), orAllFlags r)

/-! ## Radix-4 butterfly (R130) -/

/-- A complex number in whole units. -/
abbrev Cplx := Int × Int

def cAdd (x y : Cplx) : Cplx := (x.1 + y.1, x.2 + y.2)
def cMul (x y : Cplx) : Cplx := (x.1 * y.1 - x.2 * y.2, x.1 * y.2 + x.2 * y.1)

/-- x times the n-th power of the fourth root of unity of a transform: −i, or i of an inverse one. -/
def cTurn (inverse : Bool) (n : Nat) (x : Cplx) : Cplx :=
  match n % 4 with
  | 0 => x
  | 1 => if inverse then (-x.2, x.1) else (x.2, -x.1)
  | 2 => (-x.1, -x.2)
  | _ => if inverse then (x.2, -x.1) else (-x.2, x.1)

/-- Output k of a four-point transform. -/
def dft4 (inverse : Bool) (x : List Cplx) (k : Nat) : Cplx :=
  (x.zipIdx.map fun v => cTurn inverse (v.2 * k) v.1).foldl cAdd (0, 0)

/-- The four samples of a BFP word, in units of 2^-15 (R107). -/
def bfpSamples (p : Nat) : List Cplx :=
  (List.range 4).map fun i => (signedOf 16 (p / 2 ^ (32 * i)), signedOf 16 (p / 2 ^ (32 * i + 16)))

/-- The exact twiddled transform in units of 2^-30. The spec leaves open the table's layout, whether the twiddles
multiply the samples or the transform, and the direction: free values by the table and the descriptor. Log 198,
DESIGN CHOICE. -/
def twiddledDft (desc table : List Byte) (j : Nat) (x : List Cplx) : List Cplx :=
  let form := (Config.unstated 2 (desc.map (·.toNat)) 2).toNat
  let w (l : List Cplx) : List Cplx := l.zipIdx.map fun v => cMul v.1 (Config.twiddle table j v.2)
  let dft (l : List Cplx) : List Cplx := (List.range 4).map (dft4 (bitOf form 1) l)
  if bitOf form 0 then w (dft x) else dft (w x)

/-- Code 8 on one word: each part of the exact transform, a quarter of it rounded to Q1.15, and a block exponent
greater by two. An exponent beyond 127 is not treated by the spec: it wraps modulo 256. Log 241, DESIGN CHOICE. -/
def butterfly (desc table : List Byte) (j : Nat) (payload : BitVec 160) : BitVec 160 × Nat :=
  let p := payload.toNat
  let y := (twiddledDft desc table j (bfpSamples p)).flatMap fun v => [v.1, v.2]
  let r := y.map fun v => saturate 16 (shiftRound {} v 17)
  let parts := (r.zipIdx.map fun (v, i) => v.1 * 2 ^ (16 * i)).foldl (· + ·) 0
  let e := wrapInt 8 (signedOf 8 (p / 2 ^ 128) + 2)
  (BitVec.ofNat 160 (parts + e * 2 ^ 128), orAllFlags r)

/-! ## Min-sum (R88, R130) -/

/-- An INT8 message: −128 is read as −127. -/
def message (v : Nat) : Int := max (-127) (signedOf 8 v)

/-- A value saturated to −127 to 127, as INT8. -/
def satMessage (i : Int) : Nat := wrapInt 8 (max (-127) (min 127 i))

/-- Least of a list and its first place. -/
def leastOf : List Nat → Nat → Nat × Nat
  | [], _ => (127, 0)
  | [a], i => (a, i)
  | a :: l, i => let r := leastOf l (i + 1); if a ≤ r.1 then (a, i) else r

/-- What a check-node update finds in a group: minimum, second minimum, index of the minimum, sign parity. -/
def checkNode (ms : List Int) : List Int :=
  let mags := ms.map Int.natAbs
  let m := leastOf mags 0
  let m2 := leastOf (mags.eraseIdx m.2) 0
  [m.1, m2.1, m.2, (ms.filter (· < 0)).length % 2]

/-- Code 9 on one word, whose 20 messages are the group. Which byte of the output holds which of the four the spec
does not say: a free choice for each byte, zero where it is none of them. Log 198, DESIGN CHOICE. -/
def minSumUpdate (desc : List Byte) (payload : BitVec 160) : BitVec 160 :=
  let r := checkNode ((elems 5 payload.toNat).map message)
  ofElems 5 ((List.range 20).map fun i =>
    satMessage (r.getD (Config.unstated 3 (i :: desc.map (·.toNat)) 8).toNat 0))

/-- A point of a constellation: its label and its place in units of 2^-15. -/
structure Point where
  label : Nat := 0
  at' : Cplx := (0, 0)
  deriving DecidableEq, Repr, Inhabited

/-- Least squared distance from a sample to the points whose label has bit b equal to v. -/
def leastDist (ps : List Point) (x : Cplx) (b : Nat) (v : Bool) : Nat :=
  (((ps.filter fun q => decide (bitOf q.label b = v)).map fun q =>
    ((x.1 - q.at'.1) * (x.1 - q.at'.1) + (x.2 - q.at'.2) * (x.2 - q.at'.2)).toNat).min?).getD 0

/-- The points of a table, whose layout the spec does not give: label and place of the n-th, up to 1,024. Log 198,
DESIGN CHOICE. -/
def pointsOf (desc table : List Byte) : List Point :=
  let args (n : Nat) := n :: (desc ++ table).map (·.toNat)
  (List.range (2 ^ ((Config.unstated 4 (desc.map (·.toNat)) 4).toNat % 11))).map fun n =>
    { label := n, at' := ((Config.unstated 5 (args n) 16).toInt, (Config.unstated 6 (args n) 16).toInt) }

/-- Code 10 on one word: every output byte is the difference of the least distances for a bit's two values, scaled
and saturated. Which sample and bit a byte holds, and the scale, the spec does not say: free choices. Log 198,
DESIGN CHOICE. -/
def demap (desc table : List Byte) (payload : BitVec 160) : BitVec 160 :=
  let xs : List Cplx := (elems 9 payload.toNat).map fun v => (signedOf 16 v, signedOf 16 (v / 2 ^ 16))
  let ps := pointsOf desc table
  ofElems 5 ((List.range 20).map fun i =>
    let where' := (Config.unstated 7 (i :: desc.map (·.toNat)) 8).toNat
    let x := xs.getD (where' / 16) (0, 0)
    let d : Int := leastDist ps x (where' % 16) true - leastDist ps x (where' % 16) false
    satMessage (signed (decide (d < 0)) (shiftRound {} d.natAbs (Config.unstated 8 (desc.map (·.toNat)) 6).toNat).toNat))

/-! ## Rates (R88) -/

def sfInterval (code : Nat) (desc : List Byte) : Nat :=
  if code = 10 then 2 ^ (Config.demapClass desc % 3) else 1

/-- Latency of a result: of codes 0 to 5, 7, 8, 9 and 10 into the local output, of code 6 into the accumulators. -/
def sfLatency (code fmt : Nat) : Nat :=
  if code ≤ 5 then (if fmt = 7 then 6 else 8) else if code = 6 then 8 else if code = 7 then 9
  else if code = 10 then 7 else 5

end Sys2Proof.Machine
end

