-- ==== Sys2Proof/Machine/TileOps.lean ====
section
/-!
DEFINITION. What every tile command is built from: where a tile lies and who owns its cell (R51, R52, R66),
its sets and slots (R73, R76), the sequencer entry in force (R80), faults (R95, R96), the switch with
delivery and forwarding (R69–R72, R83, R94), and the crossings between dies (R46–R50).
-/

namespace Sys2Proof.Machine

/-! ## Places -/

def tileKey (die tile : Nat) : Nat := 256 * die + tile
def tileOf (s : State) (k : Nat) : Tile := look s.tiles k
def setTile (s : State) (k : Nat) (f : Tile → Tile) : State := { s with tiles := upd s.tiles k f }

/-- Local coordinate of a row or column in its quadrant (R52). -/
def localCoord (x : Nat) : Nat := if x < 8 then x else 15 - x
def localU (tile : Nat) : Nat := localCoord (tile / 16)
def localV (tile : Nat) : Nat := localCoord (tile % 16)
/-- Bit of a tile in its quadrant's hole mask. -/
def localIndex (tile : Nat) : Nat := 8 * localU tile + localV tile

/-- 0 compute, 1 memory, 2 edge (R52). -/
def kindOfTile (tile : Nat) : Nat :=
  let u := localU tile
  let v := localV tile
  if (u, v) ∈ [(0, 2), (0, 5), (2, 0), (5, 0)] then 2
  else if u ∈ [1, 3, 6] ∧ v ∈ [1, 3, 4, 6] then 1
  else 0

/-- Quadrant of a tile key. -/
def quadOfTile (k : Nat) : Nat := 4 * (k / 256) + (k % 256 / 128 * 2 + k % 16 / 8)

/-- The partition that owns a quadrant in the slice in progress (R25, R53). -/
def ownerNow (s : State) (quad : Nat) : Option Nat :=
  let b := (look s.cellA (160 * s.tick.slice + quad)).toNat
  if bitOf b 5 then some (bits b 4 0) else none

/-- Slice of the plan in force that holds an offset of the tick (R24). -/
def sliceAt (s : State) (off : Nat) : Nat :=
  ((List.range (activeStarts s).length).filter fun i => decide ((activeStarts s).getD i 0 ≤ off)).length - 1

/-- The partition that owns a quadrant at an offset of the tick in progress (R25). -/
def ownerAt (s : State) (off quad : Nat) : Option Nat :=
  let b := (look s.cellA (160 * sliceAt s off + quad)).toNat
  if bitOf b 5 then some (bits b 4 0) else none

/-- The tile is disabled or its die retired (R57, R60). Log 100, DEDUCED. -/
def tileDead (s : State) (k : Nat) : Bool := decide (k ∈ s.disabled) || s.retired.getLsbD (k / 256)

/-- The partition whose program the tile runs now: its cell is owned by an OPEN partition, it is not dead,
not in a changeover, not under a scan, and the tick generator is not Stepping (R20, R23, R27, R57). -/
def tileOwner (s : State) (k : Nat) : Option Nat :=
  if tileDead s k ∨ quadOfTile k ∈ s.changing ∨ (tileOf s k).scanning ∨ s.tick.state = .stepping then none
  else match ownerNow s (quadOfTile k) with
    | some p => if (part s p).state = .opened then some p else none
    | none => none

/-- Mainline image of partition p in a tile (R73, R74). -/
def mainSet (t : Tile) (p : Nat) : Table Byte :=
  match t.sets.find? (·.part = p) with
  | some x => x.main
  | none => []

/-! ## The sequencer entry in force (R80) -/

structure SeqEntry where
  /-- switch entry, as its 32 bits (R70) -/
  sw : Nat := 0
  action : Nat := 7
  arg : Nat := 0
  ctr : Nat := 0
  dec : Bool := false
  bnz : Bool := false
  next : Nat := 0
  hold : Nat := 1
  deriving DecidableEq, Repr, Inhabited

/-- Entry at a position of slot ix; position 48 behaves as an END with no switch entry (R81). -/
def seqEntry (m : Table Byte) (ix pos : Nat) : SeqEntry :=
  if 48 ≤ pos then {}
  else
    let w := leTab m (slotBase ix + 0x140 + 4 * pos) 4
    let h := bits w 31 25
    { sw := leTab m (slotBase ix + 0x40 + 4 * bits w 5 0) 4
      action := bits w 8 6
      arg := bits w 14 9
      ctr := bits w 16 15
      dec := bitOf w 17
      bnz := bitOf w 18
      next := bits w 24 19
      hold := if h = 0 then 128 else h }

/-- Where a tile command acts: tile, its owner, the active slot, its state and its entry. -/
structure Site where
  k : Nat
  kind : Nat
  p : Nat
  img : Table Byte
  sl : SlotImg
  d : SlotDyn
  e : SeqEntry
  deriving DecidableEq, Repr, Inhabited

/-- Dynamic state of a slot, loaded from the image where it has not run since the restart (R75). -/
def slotDyn (t : Tile) (sl : SlotImg) : SlotDyn :=
  let d := look t.slots sl.ix
  if d.started then d
  else { d with started := true, halted := false, pos := sl.seqStart, ctrs := sl.ctrInit,
                expect := BitVec.ofNat 16 sl.tagBase, ran := 0, taken := 0, sel := none }

/-- The site of a tile whose active slot holds a program, within the tick. -/
def siteOf (s : State) (k : Nat) : Option Site :=
  match tileOwner s k with
  | none => none
  | some p =>
    let t := tileOf s k
    let m := mainSet t p
    let sl := slotImg m (if kindOfTile (k % 256) = 0 then t.active else 0)
    let d := slotDyn t sl
    if sl.valid ∧ t.ac < tickLen s then
      some { k := k, kind := kindOfTile (k % 256), p := p, img := m, sl := sl, d := d,
             e := seqEntry m sl.ix d.pos }
    else none

/-- Contexts of a partition whose timetables have cells in a quadrant and run in this tick. -/
def ctxsOfQuad (s : State) (p quad : Nat) : List Nat :=
  (s.tts.filter fun kv => decide (partOfCtx kv.1 = p) && kv.2.ran &&
    kv.2.report.cells.any fun c => decide (c.1 = quad)).map (·.1)

/-- Context of the timetable that uses a memory or edge tile (R73). -/
def ctxOfTile (s : State) (p k : Nat) : Option Nat :=
  (s.tts.find? fun kv => decide (partOfCtx kv.1 = p) && decide (kv.2.state ≠ .none) &&
    kv.2.report.tiles.any fun u => decide (tileKey u.die u.tile = k)).map (·.1)

/-- The context a site's steps belong to. -/
def siteCtx (s : State) (x : Site) : Option Nat := if x.kind = 0 then some x.sl.ctx else ctxOfTile s x.p x.k

/-- Mark in Tile.faulted of a memory or edge tile of partition p, whose faults name no context. -/
def wholeTile (p : Nat) : Nat := 2048 + p

/-- The slot's actions do not occur: its context faulted in this tick (R96), or its timetable makes no pass. Log
195, DEDUCED. -/
def suppressed (s : State) (x : Site) : Bool :=
  let t := tileOf s x.k
  if x.kind = 0 then decide (x.sl.ctx ∈ t.faulted) || !(ttOf s x.sl.ctx).ran
  else decide (wholeTile x.p ∈ t.faulted) ||
    (match ctxOfTile s x.p x.k with
     | some c => !(ttOf s c).ran
     | none => true)

/-! ## Faults (R95, R96) -/

/-- Who a tile fault names: a context, or for memory and edge tiles the owner's contexts of the quadrant; the
partition where the active slot holds no program. Log 196, DEDUCED. -/
def tileNamed (s : State) (x : Site) (c : Nat) : Named :=
  if x.kind = 0 then (if x.sl.valid then .context c else .partition x.p)
  else
    let cs := ctxsOfQuad s x.p (quadOfTile x.k)
    if cs = [] then .partition x.p else .suspects x.p (x.k / 256) (x.k % 256) cs

/-- TIL_FAULT (R100): the first fault of the tick stays. -/
def faultWord (s : State) (x : Site) (code c off : Nat) : BitVec 64 :=
  BitVec.ofNat 64 (code + x.sl.ix * 2 ^ 4 + c % 2 ^ 11 * 2 ^ 7 + off * 2 ^ 18 + tickCount s % 2 ^ 25 * 2 ^ 39)

/-- A tile has faulted in this tick under a mark. -/
def markFault (t : Tile) (mark : Nat) (f : BitVec 64) : Tile :=
  { t with faulted := if mark ∈ t.faulted then t.faulted else mark :: t.faulted
           fault := if t.faulted = [] then f else t.fault }

/-- Raise a tile fault at an offset. Log 195, DEDUCED. Log 196, DEDUCED. -/
def tileFaultAt (s : State) (x : Site) (code c off : Nat) : State :=
  let mark := if x.kind = 0 ∧ x.sl.valid then c else wholeTile x.p
  let q : FaultReq :=
    { code := code, named := tileNamed s x c, locKind := 1,
      location := x.k / 256 + x.k % 256 * 2 ^ 8 + x.sl.ix * 2 ^ 16, off := off }
  let s := setTile s x.k fun t => markFault t mark (faultWord s x code c off)
  raiseFault (orReg (incReg { s with tick := { s.tick with off := off } } (bTil + 0x200) 1) (bTil + 0x204) 1) q

/-- Raise a tile fault in the ac the tile acts in. -/
def tileFault (s : State) (x : Site) (code c : Nat) : State := tileFaultAt s x code c (tileOf s x.k).ac

/-- A fault of the active slot. Log 195, DEDUCED. -/
def slotFault (s : State) (x : Site) (code : Nat) : State := tileFault s x code x.sl.ctx

/-! ## Crossings and neighbours (R46–R50, R72) -/

/-- Latency by crossing kind, in the row order of R47. -/
def crossingLat (kind : Nat) : Nat :=
  if kind = 1 then 1 else if kind = 2 then 8 else if kind = 3 then 10 else if kind = 4 then 4
  else if kind = 5 then 12 else 10

/-- Side that an edge tile faces: 0 N, 1 E, 2 S, 3 W; 4 for other tiles. -/
def outward (tile : Nat) : Nat :=
  if kindOfTile tile ≠ 2 then 4
  else if tile / 16 = 0 then 0 else if tile / 16 = 15 then 2 else if tile % 16 = 0 then 3 else 1

/-- The tile on a side within the die. -/
def besideTile (tile dir : Nat) : Option Nat :=
  if dir = 0 then (if 16 ≤ tile then some (tile - 16) else none)
  else if dir = 1 then (if tile % 16 < 15 then some (tile + 1) else none)
  else if dir = 2 then (if tile < 240 then some (tile + 16) else none)
  else if 0 < tile % 16 then some (tile - 1) else none

/-- The array die on a side (R45, R46). -/
def besideDie (die dir : Nat) : Option Nat :=
  if dir = 0 then (if 8 ≤ die then some (die - 8) else none)
  else if dir = 1 then (if die % 8 < 7 then some (die + 1) else none)
  else if dir = 2 then (if die < 32 then some (die + 8) else none)
  else if 0 < die % 8 then some (die - 1) else none

/-- The facing edge tile of the next die. -/
def facingTile (tile dir : Nat) : Nat :=
  if dir = 0 then tile + 240 else if dir = 2 then tile - 240 else if dir = 1 then tile - 15 else tile + 15

/-- Neighbour of a tile on a side, and the latency: within the die, or over its neighbour port. A neighbour port
on the grid's perimeter is tied off (R46). -/
def neighbour (k dir : Nat) : Option (Nat × Nat) :=
  match besideTile (k % 256) dir with
  | some t => some (tileKey (k / 256) t, 1)
  | none =>
    if outward (k % 256) = dir then (besideDie (k / 256) dir).map fun d => (tileKey d (facingTile (k % 256) dir), 8)
    else none

/-- Hub dies that a crossing joins: the ring, and the chords (R46). -/
def hubsJoined (a b : Nat) : Bool := decide (b = (a + 1) % 8) || decide (b = (a + 7) % 8) || decide (b = (a + 4) % 8)

/-- An edge tile's spine port and its column's hub die (R46). -/
def spineJoins (edge hub : PortRef) : Bool :=
  decide (edge.die < 40) && decide (kindOfTile edge.unit = 2) && decide (edge.link = 4) &&
    decide (hub.die = 56 + edge.die % 8)

/-- The ends that a kind of crossing joins, and its one latency (R46, R47). -/
def crossingFits (c : Crossing) : Bool :=
  decide (c.lat = crossingLat c.kind) &&
    (if c.kind = 1 ∨ c.kind = 2 then
      decide (c.snd.die < 40 ∧ c.rcv.die < 40) && decide (c.snd.link < 4) &&
        decide (neighbour (tileKey c.snd.die c.snd.unit) c.snd.link =
          some (tileKey c.rcv.die c.rcv.unit, crossingLat c.kind))
    else if c.kind = 3 then spineJoins c.snd c.rcv || spineJoins c.rcv c.snd
    else if c.kind = 4 then decide (56 ≤ c.snd.die) && decide (c.snd.die = c.rcv.die)
    else if c.kind = 5 then
      decide (56 ≤ c.snd.die ∧ 56 ≤ c.rcv.die) && hubsJoined (c.snd.die - 56) (c.rcv.die - 56)
    else
      (decide (56 ≤ c.snd.die) && decide (c.rcv.die = c.snd.die - 16 ∨ c.rcv.die = c.snd.die - 8)) ||
        (decide (56 ≤ c.rcv.die) && decide (c.snd.die = c.rcv.die - 16 ∨ c.snd.die = c.rcv.die - 8)))

/-- The crossing of one of some kinds that a timetable of p that makes a pass allots to a sender in an ac. -/
def findCrossing (s : State) (p ac : Nat) (kinds : List Nat) (snd : PortRef) : Option Crossing :=
  s.tts.findSome? fun kv =>
    if partOfCtx kv.1 = p ∧ kv.2.ran then
      kv.2.report.crossings.find? fun c =>
        decide (c.ac = ac) && decide (c.snd = snd) && decide (c.kind ∈ kinds) && crossingFits c
    else none

/-- A word is on its way into an input register of a tile. -/
def pushIn (s : State) (k port arr : Nat) (w : TWord) : State :=
  setTile s k fun t => { t with inq := upd t.inq port (· ++ [(arr, w)]) }

/-- The site of a tile of p whose active slot holds no program. -/
def idleSite (s : State) (k p : Nat) : Site :=
  let t := tileOf s k
  let ix := if kindOfTile (k % 256) = 0 then t.active else 0
  { k := k, kind := kindOfTile (k % 256), p := p, img := mainSet t p, sl := slotImg (mainSet t p) ix, d := {},
    e := {} }

/-- Words that arrive in a tile whose active slot holds no program are neither forwarded nor consumed: each is lost
with a stray-word fault (R72). -/
def strayIdle (s : State) (k : Nat) : State :=
  match tileOwner s k with
  | none => s
  | some p =>
    let x := idleSite s k p
    if x.sl.valid then s
    else
      let offs := ((tileOf s k).inq.flatMap fun kv => kv.2.map (·.1)).filter fun a => decide (a < tickLen s)
      let s := setTile s k fun t => { t with inq := [] }
      offs.foldl (fun s a => tileFaultAt s x 3 x.sl.ctx a) s

/-- A word reaches a tile. -/
def arrive (s : State) (k port arr : Nat) (w : TWord) : State := strayIdle (pushIn s k port arr w) k

/-- The check of a word that crosses a die boundary, at the receiving port: a single-bit error is corrected and
counted; a word with an uncorrectable error is counted, raises the integrity fault of the port's partition and is not
delivered (R49). Log 197, DESIGN CHOICE. -/
def checkCrossing (s : State) (die unit link p off : Nat) : State × Bool :=
  let e := Config.crossingError s.fresh
  let s := { s with fresh := s.fresh + 1 }
  match e with
  | none => (s, true)
  | some false => (incReg s (bDie + 0x10) 1, true)
  | some true =>
    (raiseFault (orReg (incReg { s with tick := { s.tick with off := off } } (bDie + 0x14) 1) (bDie + 0x18) 0x2)
      { code := 16, named := .partition p, locKind := 3, location := die + unit * 2 ^ 8 + link * 2 ^ 16, off := off },
     false)

/-- Key of a hub-switch port's register: words to the switch stand on its in side, words from the switch, on
their way to the port's other end, on its out side. -/
def hubKey (hub port : Nat) : Nat := 256 * hub + port
def hubInKey (hub port : Nat) : Nat := 65536 + hubKey hub port
/-- Key under which the out side of a radio port keeps the words of the tick before, for the radio block (R276). -/
def hubPastKey (key : Nat) : Nat := 131072 + key

def hubStand (s : State) (key arr : Nat) (w : TWord) : State :=
  { s with hub := upd s.hub key (· ++ [(arr, w)]) }

/-- A word reaches an edge tile from its spine port: into register Y, where the tile's quadrant is p's in that slice;
every other path is cut (R50). -/
def spineArrive (s : State) (p k arr : Nat) (w : TWord) : State :=
  if tileDead s k ∨ ownerAt s arr (quadOfTile k) ≠ some p then s
  else
    let r := checkCrossing s (k / 256) (k % 256) 4 p arr
    if r.2 then arrive r.1 k 4 arr w else r.1

/-- A word stands in a hub-switch port at an ac and follows the admitted routes of p (R47, R48, R50): from an in side
through the switch, from an out side over the spine or to a joined hub die. A word that no crossing takes on stays in
the register it stands in. Log 202, DEDUCED. -/
def hubRoute (s : State) (p : Nat) : Nat → Bool → Nat → Nat → Nat → TWord → State
  | 0, out, hub, port, arr, w => hubStand s (if out then hubKey hub port else hubInKey hub port) arr w
  | fuel + 1, false, hub, port, arr, w =>
    match findCrossing s p arr [4] { die := 56 + hub, unit := port, link := 0 } with
    | none => hubStand s (hubInKey hub port) arr w
    | some c => hubRoute s p fuel true hub c.rcv.unit (arr + crossingLat c.kind) w
  | fuel + 1, true, hub, port, arr, w =>
    match findCrossing s p arr [3, 5] { die := 56 + hub, unit := port, link := 0 } with
    | none => hubStand s (hubKey hub port) arr w
    | some c =>
      let at' := arr + crossingLat c.kind
      if c.kind = 3 then spineArrive s p (tileKey c.rcv.die c.rcv.unit) at' w
      else
        let r := checkCrossing s c.rcv.die c.rcv.unit c.rcv.link p at'
        if r.2 then hubRoute r.1 p fuel false (c.rcv.die - 56) c.rcv.unit at' w else r.1

/-- A word stands on the in side of a hub-switch port. -/
def hubPlace (s : State) (p hub port arr : Nat) (w : TWord) : State := hubRoute s p 16 false hub port arr w

/-- A word stands on the out side of a hub-switch port, as entry words and HBM reads do: from there it leaves by the
port's own crossing. -/
def hubEmit (s : State) (p hub port arr : Nat) (w : TWord) : State := hubRoute s p 16 true hub port arr w

/-- The word that stands in a register of a hub port at an ac, where one does. -/
def hubWordAt (s : State) (key ac : Nat) : Option TWord := ((look s.hub key).find? (·.1 = ac)).map (·.2)

/-- The words of a register of a hub port at an ac leave it. Log 202, DEDUCED. -/
def hubTake (s : State) (key ac : Nat) : State :=
  { s with hub := upd s.hub key fun l => l.filter fun w => decide (w.1 ≠ ac) }

/-- A word leaves an edge tile on its spine port, for the port of the column's hub die that the report names. -/
def sendSpine (s : State) (x : Site) (w : TWord) : State :=
  let ac := (tileOf s x.k).ac
  match findCrossing s x.p ac [3] { die := x.k / 256, unit := x.k % 256, link := 4 } with
  | none => slotFault s x 5
  | some c =>
    let r := checkCrossing s c.rcv.die c.rcv.unit c.rcv.link x.p (ac + crossingLat 3)
    if r.2 then hubPlace r.1 x.p (c.rcv.die - 56) c.rcv.unit (ac + crossingLat 3) w else r.1

/-- A word leaves a tile for the neighbour on a side. A cut or tied-off link discards it (R50, R72). -/
def sendBeside (s : State) (x : Site) (dir : Nat) (w : TWord) : State :=
  let ac := (tileOf s x.k).ac
  match neighbour x.k dir with
  | none => slotFault s x 5
  | some (k', lat) =>
    if tileDead s k' ∨ ownerNow s (quadOfTile k') ≠ some x.p then slotFault s x 5
    else if k' / 256 = x.k / 256 then arrive s k' ((dir + 2) % 4) (ac + lat) w
    else
      let r := checkCrossing s (k' / 256) (k' % 256) ((dir + 2) % 4) x.p (ac + lat)
      if r.2 then arrive r.1 k' ((dir + 2) % 4) (ac + lat) w else r.1

/-- A word leaves a tile on an outbound port: 0–3 to a neighbour, 4 on the spine. -/
def sendOut (s : State) (x : Site) (dir : Nat) (w : TWord) : State :=
  if dir = 4 then sendSpine s x w else sendBeside s x dir w

/-! ## Which tiles have been heard (R69) -/

/-- A tile runs a program of p in this tick and has not come to the tick's end. -/
def speaks (s : State) (p k : Nat) : Bool :=
  match siteOf s k with
  | some y => decide (y.p = p)
  | none => false

/-- Every word that can stand in the tile's input registers in its next ac has been sent: each tile that can send to
it has passed the ac in which it would have left. A word over the spine has crossed two spine ports. Log 191,
DEDUCED. -/
def heard (s : State) (x : Site) : Bool :=
  let ac := (tileOf s x.k).ac
  ((List.range 4).all fun d =>
    match neighbour x.k d with
    | none => true
    | some (k', lat) => !speaks s x.p k' || decide (ac < (tileOf s k').ac + lat)) &&
  (decide (x.kind ≠ 2) || s.tiles.all fun kv =>
    decide (kindOfTile (kv.1 % 256) ≠ 2) || decide (kv.1 = x.k) || !speaks s x.p kv.1 ||
      decide (ac < kv.2.ac + 20))

/-! ## Queues (R83, R95) -/

/-- The slot of a set whose QUEUE_MASK holds a queue. -/
def ownerOfQueue (m : Table Byte) (q : Nat) : Option SlotImg :=
  ((List.range 8).map (slotImg m)).find? fun sl => sl.valid && bitOf sl.qmask q

/-- Queues of the tag-match buffer that hold a tag. -/
def tagMask (t : Tile) (g : BitVec 16) : BitVec 8 := ((t.tags.find? (·.1 = g)).map (·.2)).getD 0

def setTag (t : Tile) (g : BitVec 16) (m : BitVec 8) : Tile :=
  let rest := t.tags.filter (·.1 ≠ g)
  { t with tags := if m = 0 then rest else rest ++ [(g, m)] }

/-- Tags held by a queue, from the words in it. -/
def holdsTag (t : Tile) (q : Nat) (g : BitVec 16) : Bool := (look t.queues q).any fun w => decide (w.tag = g)

/-- The tag is complete in all of the slot's TAG_QUEUES. -/
def tagComplete (t : Tile) (sl : SlotImg) (g : BitVec 16) : Bool :=
  (setBitsOf 8 sl.tagq).all fun q => holdsTag t q g

/-- The entry of tag g in the tag-match buffer after a change in the TAG_QUEUES of a slot: its bits are those of the
slot's queues that hold the tag while it is incomplete there, and those of other slots as they were (R83). -/
def noteTag (t : Tile) (sl : SlotImg) (g : BitVec 16) : Tile :=
  let mine := (setBitsOf 8 sl.tagq).foldl (fun (m : BitVec 8) q =>
    if holdsTag t q g then m ||| BitVec.ofNat 8 (2 ^ q) else m) 0
  let others := tagMask t g &&& ~~~(BitVec.ofNat 8 sl.tagq)
  setTag t g (if tagComplete t sl g then others else others ||| mine)

/-- A word consumed into a local queue of a compute tile. -/
def deliverCompute (s : State) (x : Site) (w : TWord) : State :=
  let q := w.queue.toNat
  let t := tileOf s x.k
  let own := ownerOfQueue x.img q
  let c := (own.map (·.ctx)).getD x.sl.ctx
  let put1 := { t with queues := upd t.queues q (· ++ [w]) }
  if c ∈ t.faulted then s
  else if bitOf x.sl.qmask q = false then slotFault s x 7
  else if 4 ≤ (look t.queues q).length then tileFault s x 2 c
  else match own with
    | some sl =>
      if sl.tagFiring ∧ bitOf sl.tagq q then
        if holdsTag t q w.tag then tileFault s x 10 c
        else
          let t' := noteTag put1 sl w.tag
          if 16 < t'.tags.length then tileFault s x 11 c else setTile s x.k fun _ => t'
      else setTile s x.k fun _ => put1
    | none => setTile s x.k fun _ => put1

/-- A word consumed into a write queue of a memory tile (R92). -/
def deliverMemory (s : State) (x : Site) (w : TWord) : State :=
  let q := w.queue.toNat % 2
  if wholeTile x.p ∈ (tileOf s x.k).faulted then s
  else if 4 ≤ (look (tileOf s x.k).queues q).length then slotFault s x 2
  else setTile s x.k fun t => { t with queues := upd t.queues q (· ++ [w]) }

/-- Remove the first word that a test accepts. -/
def takeFirst (f : TWord → Bool) : List TWord → Option (TWord × List TWord)
  | [] => none
  | w :: l => if f w then some (w, l) else (takeFirst f l).map fun r => (r.1, w :: r.2)

/-- The tile after a word of a tag has left a queue. -/
def dropTag (t : Tile) (m : Table Byte) (q : Nat) (g : BitVec 16) : Tile :=
  match ownerOfQueue m q with
  | some sl => if sl.tagFiring ∧ bitOf sl.tagq q then noteTag t sl g else t
  | none => t

/-- Pop the head of a queue (R82, R95). -/
def popQueue (s : State) (x : Site) (q : Nat) : State × Option TWord :=
  if x.kind = 0 ∧ bitOf x.sl.qmask q = false then (slotFault s x 7, none)
  else match look (tileOf s x.k).queues q with
    | [] => (slotFault s x 1, none)
    | w :: l => (setTile s x.k fun t => dropTag { t with queues := put t.queues q l } x.img q w.tag, some w)

/-! ## The switch (R69–R72) -/

/-- Source code of a port field of a switch entry. -/
def outSource (sw dir : Nat) : Nat := bits sw (3 * dir + 2) (3 * dir)

/-- Source code of an input register. -/
def portSource (port : Nat) : Nat := if port = 4 then 6 else port + 1

/-- Send a word on every outbound port that names its source; none names it: the answer is false. -/
def forwardAll (s : State) (x : Site) (src : Nat) (w : TWord) : State × Bool :=
  let dirs := (List.range 5).filter fun d => decide (outSource x.e.sw d = src)
  (dirs.foldl (fun s d => sendOut s x d w) s, decide (dirs ≠ []))

/-- A word stands in an input register: consumed, forwarded, both, or lost (R72, R95). Log 194, DEDUCED. -/
def handleWord (s : State) (x : Site) (port : Nat) (w : TWord) : State :=
  if 2 ≤ w.kind.toNat then slotFault s x 12
  else
    let cons := bitOf x.e.sw (16 + port) && decide (x.kind ≠ 2)
    let s := if cons then (if x.kind = 1 then deliverMemory s x w else deliverCompute s x w) else s
    let r := forwardAll s x (portSource port) w
    if cons ∨ r.2 then r.1 else slotFault r.1 x 3

/-- Words of a list whose ac has come. -/
def dueWords (ac : Nat) (l : List (Nat × TWord)) : List (Nat × TWord) := l.filter fun p => decide (p.1 ≤ ac)
def laterWords (ac : Nat) (l : List (Nat × TWord)) : List (Nat × TWord) := l.filter fun p => decide (ac < p.1)

/-- Every word that stands in an input register in this ac. -/
def handlePort (s : State) (x : Site) (port : Nat) : State :=
  let t := tileOf s x.k
  let now := dueWords t.ac (look t.inq port)
  let s := if now = [] then s else setTile s x.k fun t => { t with inq := upd t.inq port (laterWords t.ac) }
  now.foldl (fun s p => handleWord s x port p.2) s

/-- What is written to an output in this ac: nothing for a context that has faulted, whose pushes do not occur
(R96). -/
def dueOut (s : State) (x : Site) (l : List OutWord) : List OutWord :=
  let t := tileOf s x.k
  (l.filter fun o => decide (o.due ≤ t.ac)).filter fun o =>
    if x.kind = 0 then decide ((slotImg x.img o.ix).ctx ∉ t.faulted) else decide (wholeTile x.p ∉ t.faulted)

def laterOut (ac : Nat) (l : List OutWord) : List OutWord := l.filter fun o => decide (ac < o.due)

/-- The personality writes an output and the word leaves (R71): of two in one ac the first stands, and the tile
raises the collision (R95); a word that no outbound port takes is lost (R72). Log 194, DEDUCED. -/
def handleOut (s : State) (x : Site) (src : Nat) (now : List OutWord) : State :=
  match now with
  | [] => s
  | o :: l =>
    let s := if l = [] then s else slotFault s x 4
    let r := forwardAll s x src o.word
    if r.2 then r.1 else slotFault r.1 x 3

def switchAc (s : State) (x : Site) : State :=
  let s := (List.range 5).foldl (fun s port => handlePort s x port) s
  let t := tileOf s x.k
  let n0 := dueOut s x t.outs
  let n1 := dueOut s x t.outs1
  let s := setTile s x.k fun t => { t with outs := laterOut t.ac t.outs, outs1 := laterOut t.ac t.outs1 }
  handleOut (handleOut s x 5 n0) x 7 n1

/-- A pipeline of the slot acts at an ac (R157). -/
def dueBy' (d : SlotDyn) (ac : Nat) : SlotDyn := { d with lastDue := max d.lastDue ac }

/-- A word is on its way to the local output, to be written at an ac. -/
def pushOut (s : State) (x : Site) (ac : Nat) (w : TWord) : State :=
  setTile s x.k fun t =>
    { t with
      outs := t.outs ++ [{ due := ac, ix := x.sl.ix, word := w }]
      slots := put t.slots x.sl.ix (dueBy' (slotDyn t x.sl) ac) }

/-! ## Local store -/

/-- n bytes of the slot's window, or none where it would pass the window's end (R79). -/
def windowRead (s : State) (x : Site) (off n : Nat) : Option (List Byte) :=
  if off + n ≤ x.sl.lsLen then
    some ((List.range n).map fun i => look (tileOf s x.k).ls (x.sl.lsBase + off + i))
  else none

/-- Write bytes into a tile's store. -/
def storeBytes (t : Table Byte) (a : Nat) : List Byte → Table Byte
  | [] => t
  | b :: l => storeBytes (put t a b) (a + 1) l

def windowWrite (s : State) (x : Site) (off : Nat) (bytes : List Byte) : State :=
  if off + bytes.length ≤ x.sl.lsLen then
    setTile s x.k fun t => { t with ls := storeBytes t.ls (x.sl.lsBase + off) bytes }
  else slotFault s x 6

/-- Write the slot's dynamic state. -/
def setDyn (s : State) (x : Site) (f : SlotDyn → SlotDyn) : State :=
  setTile s x.k fun t => { t with slots := put t.slots x.sl.ix (f (slotDyn t x.sl)) }

def dynOf (s : State) (x : Site) : SlotDyn := slotDyn (tileOf s x.k) x.sl

/-- Steps counted for R154. -/
def countSteps (s : State) (c : Option Nat) (n : Nat) : State :=
  match c with
  | none => s
  | some c => { s with tts := upd s.tts c fun t => { t with schedCount := t.schedCount + n } }

/-! ## Pipelines that complete (R78, R85, R92, R119, R123) -/

def srEnv (s : State) (c : Nat) : SrEnv := { seed := (ctxOf s c).seed, ticks := (ctxOf s c).ticks }

/-- The input items of one slot that are due enter its accumulators; a trapped condition faults. -/
def drainSlot (s : State) (x : Site) (ix : Nat) : State :=
  let t := tileOf s x.k
  let d := look t.slots ix
  let sl := slotImg x.img ix
  let now := d.pipe.filter fun it => decide (it.due ≤ t.ac)
  if now = [] then s
  else
    let env := srEnv s sl.ctx
    let d0 := { d with pipe := d.pipe.filter (fun it => decide (t.ac < it.due)), flags := 0 }
    let r := now.foldl (fun (a : SlotDyn × Table ExactAcc) it => enter env sl a.1 a.2 it) (d0, t.exact)
    let s := setTile s x.k fun t =>
      { t with slots := put t.slots ix { r.1 with flags := d.flags ||| r.1.flags }, exact := r.2 }
    if r.1.flags.toNat &&& sl.trap ≠ 0 then tileFault s { x with sl := sl } 13 sl.ctx else s

/-- Flags raised by a personality in this ac, with the trap of R119. -/
def raiseFlags (s : State) (x : Site) (f : Nat) : State :=
  let s := setDyn s x (orFlags · f)
  if f &&& x.sl.trap ≠ 0 then slotFault s x 13 else s

/-- Addresses of a landing. -/
def landSpan (l : Nat × Nat × Nat × List Byte) : List Nat := (List.range l.2.2.2.length).map (· + l.2.2.1)

/-- Memory-tile writes that land in this ac: WR0 first, so that WR1's bytes prevail (R92). -/
def landWrites (s : State) (x : Site) : State :=
  let t := tileOf s x.k
  let now := t.landing.filter fun l => decide (l.1 ≤ t.ac)
  if now = [] then s
  else
    let w0 := now.filter fun l => decide (l.2.1 = 2)
    let w1 := now.filter fun l => decide (l.2.1 = 3)
    let hit := w0.any fun a => w1.any fun b => decide (a.1 = b.1) && (landSpan a).any (· ∈ landSpan b)
    let s := setTile s x.k fun t =>
      { t with
        landing := t.landing.filter fun l => decide (t.ac < l.1)
        ls := (w0 ++ w1).foldl (fun m l => storeBytes m l.2.2.1 l.2.2.2) t.ls }
    if hit then incReg s (bTil + 0x20C) 1 else s

/-- What completes in an ac before the personality acts: pipelines of every slot. Log 81, DEDUCED. -/
def drainAll (s : State) (x : Site) : State :=
  if x.kind = 0 then ((tileOf s x.k).slots.map (·.1)).foldl (fun s ix => drainSlot s x ix) s else s

/-- One ac: pipelines, the personality's act, landings, the switch; the tile's clock advances (R71). Log 191,
DEDUCED. -/
def acStep (s : State) (x : Site) (act : State → State) : State :=
  let s := act (drainAll s x)
  let s := switchAc (landWrites s x) x
  setTile s x.k fun t => { t with ac := t.ac + 1 }

/-! ## The next entry (R81) -/

/-- Position after an entry; `sel` is bit 0 of the token of a SELECT. Log 192, DEDUCED. -/
def nextPos (d : SlotDyn) (e : SeqEntry) (sel : Option Bool) : Nat :=
  match sel with
  | some b => if b then e.next else d.pos + 1
  | none => if e.action ≠ 5 ∧ e.bnz ∧ d.ctrs.getD e.ctr 0 ≠ 0 then e.next else d.pos + 1

/-- The end of an entry's last ac. Log 191, DEDUCED. -/
def finishEntry (s : State) (x : Site) (sel : Option Bool) : State :=
  setDyn s x fun d =>
    let c := d.ctrs.getD x.e.ctr 0
    let d := if x.e.dec ∧ c ≠ 0 then { d with ctrs := d.ctrs.set x.e.ctr (c - 1) } else d
    let d := { d with ran := 0, taken := 0, sel := none }
    if x.e.action = 7 then { d with halted := true }
    else
      let pos := nextPos d x.e sel
      { d with pos := pos
               endAt := if (seqEntry x.img x.sl.ix pos).action = 7 then (tileOf s x.k).ac else d.endAt }

/-! ## Trace (R164) -/

/-- A capture in progress records the action of the selected slot. -/
def traceNote (s : State) (x : Site) : State :=
  let w := bTtb + 0x10000 * x.p
  let sel := reg s (w + 0x20)
  let ctl := reg s (w + 0x24)
  let n := reg s (w + 0x28)
  let ac := (tileOf s x.k).ac
  if x.p ∈ s.tracing ∧ bits sel 5 0 = x.k / 256 ∧ bits sel 15 8 = x.k % 256 ∧ bits sel 18 16 = x.sl.ix ∧
      bits ctl 20 0 ≤ ac ∧ n < 64 ∧ x.d.halted = false then
    let ent := if (part s x.p).radio then x.d.pos * 2 ^ 24 else 0
    setReg (setReg s (w + 0x100 + 4 * n) (ac + x.e.action * 2 ^ 21 + ent)) (w + 0x28) (n + 1)
  else s

end Sys2Proof.Machine
end

