-- ==== Sys2Proof/Machine/Tiles.lean ====
section
/-!
DEFINITION. The sequencer's entries and the personalities they fire (R78–R93, R110, R127). A command runs the
entry in force of the active slot of one tile, ac by ac from the tile's own clock on, to the entry's end or as far
as the tile has heard from every tile that can still send to it (R69); the same command takes the rest of the
entry up. A command whose entry is not the one in force leaves the tile as it is.
-/

namespace Sys2Proof.Machine

/-! ## Descriptors -/

/-- Byte offset of descriptor n in the set. -/
def descBase (x : Site) (n : Nat) : Nat := slotBase x.sl.ix + 0x200 + 32 * n

def descWord (x : Site) (n off : Nat) : Nat := leTab x.img (descBase x n + off) 4

def descBytes (x : Site) (n : Nat) : List Byte := (List.range 32).map fun i => look x.img (descBase x n + i)

/-! ## Which word a firing takes (R82, R83) -/

/-- Tags complete in the slot's TAG_QUEUES, and the one that fires next. -/
def nextTag (t : Tile) (sl : SlotImg) (expect : BitVec 16) : Option (BitVec 16) :=
  let q0 := (setBitsOf 8 sl.tagq).headD 0
  let gs := ((look t.queues q0).map (·.tag)).filter fun g => decide (sl.tagq ≠ 0) && tagComplete t sl g
  gs.foldl (fun best g =>
    match best with
    | none => some g
    | some b => if (g - expect).toNat < (b - expect).toNat then some g else some b) none

/-- Take the word with a tag from one queue. -/
def takeTagged (t : Tile) (q : Nat) (g : BitVec 16) : Tile × TWord :=
  match takeFirst (fun w => decide (w.tag = g)) (look t.queues q) with
  | some (w, l) => ({ t with queues := put t.queues q l }, w)
  | none => (t, {})

/-- A tag firing takes the word of its tag from every TAG_QUEUE; the answer is the word of INQ. -/
def takeAllTagged (t : Tile) (sl : SlotImg) (g : BitVec 16) (inq : Nat) : Tile × TWord :=
  (setBitsOf 8 sl.tagq).foldl (fun (r : Tile × TWord) q =>
    let u := takeTagged r.1 q g
    (u.1, if q = inq then u.2 else r.2)) (t, {})

/-- A queue that the slot's tag firings pop lies outside its QUEUE_MASK (R79). -/
def tagOutside (sl : SlotImg) : Bool := (setBitsOf 8 sl.tagq).any fun q => !bitOf sl.qmask q

/-- The input of a firing in this ac: the head of INQ, or the words of the next complete tag. A tag firing with
no complete tag does not fire. Log 194, DEDUCED. -/
def takeInput (s : State) (x : Site) (inq : Nat) : State × Option TWord :=
  if x.sl.tagFiring then
    let t := tileOf s x.k
    match nextTag t x.sl (dynOf s x).expect with
    | none => (s, none)
    | some g =>
      if tagOutside x.sl then (slotFault s x 7, none) else
      let r := takeAllTagged t x.sl g inq
      let s := setTile s x.k fun _ => noteTag r.1 x.sl g
      let s := setDyn s x fun d => { d with expect := g + 1 }
      if bitOf x.sl.tagq inq then (s, some { r.2 with tag := g }) else popQueue s x inq
  else popQueue s x inq

/-- The slot has fired on a word. -/
def noteFiring (s : State) (x : Site) (w : TWord) : State :=
  setDyn s x fun d => { d with tag := w.tag, firings := d.firings + 1, taken := d.taken + 1 }

/-! ## Multiplier (R85, R86, R110, R111, R127) -/

/-- Acs between inputs; a merge pops one word per ac (R127). -/
def mulInterval (sl : SlotImg) : Nat :=
  if sl.mergeEn then 1 else if sl.format = 8 then 2 else if sl.format = 7 ∧ sl.exact then 4 else 1
def mulLatency (sl : SlotImg) : Nat := if sl.format = 7 then 5 else if sl.format = 8 then 6 else 4

/-- The entry's block differs from the one in the weight register (R86). -/
def needsLoad (s : State) (x : Site) : Bool := decide ((tileOf s x.k).weight ≠ some (x.sl.ix, x.e.arg))

/-- First ac of the load: the block is read from the local store, and nothing is popped in two acs. -/
def loadWeights (s : State) (x : Site) : State :=
  match windowRead s x (descWord x x.e.arg 0) 80 with
  | some b => setTile s x.k fun t =>
      { t with weight := some (x.sl.ix, x.e.arg), weightBytes := b, mulReady := max t.mulReady (t.ac + 2) }
  | none => slotFault s x 6

/-- The scale word that accompanies input word i where i mod 20 = 0 (R110). -/
def popScales (s : State) (x : Site) (i : Nat) : State :=
  if x.sl.ascEn ∧ i % 20 = 0 then
    match popQueue s x x.sl.asq with
    | (s, some w) => windowWrite s x x.sl.ascale (leBytes 20 w.payload.toNat)
    | (s, none) => s
  else s

def activationScale (s : State) (x : Site) (i : Nat) : Nat :=
  if x.sl.ascEn then (((windowRead s x (x.sl.ascale + i % 20) 1).getD []).getD 0 0).toNat else 127

/-- Weight scale codes of the block (R111). -/
def weightScales (s : State) (x : Site) : List Byte :=
  if x.sl.wscEn then (windowRead s x (descWord x x.e.arg 0 + 80) 4).getD (List.replicate 4 0xFF)
  else List.replicate 4 127

/-- Where the weight scales lie outside the window the access faults (R79). -/
def scalesInWindow (x : Site) : Bool := !x.sl.wscEn || decide (descWord x x.e.arg 0 + 84 ≤ x.sl.lsLen)

def addPipe (s : State) (x : Site) (it : PipeItem) : State :=
  setDyn s x fun d => dueBy' { d with pipe := d.pipe ++ [it] } it.due

/-- A word enters the multiplier's pipeline. `clr` marks the first product of an entry with CLR = 1. -/
def multiplyWord (s : State) (x : Site) (clr : Bool) (w : TWord) : State :=
  let i := if clr then 0 else (dynOf s x).popped
  let s := popScales s x i
  let t := tileOf s x.k
  let it : PipeItem :=
    { due := t.ac + mulLatency x.sl, clr := clr, payload := w.payload, ascale := activationScale s x i,
      block := t.weightBytes ++ weightScales s x }
  if scalesInWindow x then addPipe (setDyn s x fun d => { d with popped := i + 1 }) x it else slotFault s x 6

/-- CLR of a merging entry: a partial of value 0 under the slot's own window, which clears first. -/
def clearItem (x : Site) (ac : Nat) : PipeItem :=
  { due := ac + 4, merge := true, clr := true, payload2 := BitVec.ofNat 160 (wrapInt 10 x.sl.winBase * 2 ^ 150) }

/-- A word of an exact partial (R127). -/
def mergeWord (s : State) (x : Site) (clr : Bool) (w : TWord) : State :=
  if w.kind ≠ 0 then slotFault s x 12
  else
    let ac := (tileOf s x.k).ac
    let s := if clr then addPipe s x (clearItem x ac) else s
    let d := dynOf s x
    let i := if clr then 0 else d.popped
    let s := setDyn s x fun d => { d with popped := i + 1, half := if i % 2 = 0 then some w.payload else none }
    if i % 2 = 0 then s
    else addPipe s x { due := ac + 4, merge := true, payload := d.half.getD 0, payload2 := w.payload,
                       acc := i % 8 / 2 }

/-- The entry's first product is still to come, and CLR = 1. -/
def clrDue (s : State) (x : Site) : Bool := bitOf (descWord x x.e.arg 4) 3 && decide ((dynOf s x).taken = 0)

/-- The multiplier takes its input of this ac. -/
def mulTake (s : State) (x : Site) : State :=
  let clr := clrDue s x
  match takeInput s x (bits (descWord x x.e.arg 4) 2 0) with
  | (s, none) => s
  | (s, some w) =>
    let s := noteFiring (setTile s x.k fun t => { t with mulReady := t.ac + mulInterval x.sl }) x w
    if x.sl.mergeEn then mergeWord s x clr w else multiplyWord s x clr w

/-- One ac of a multiplier FIRE. -/
def mulAct (s : State) (x : Site) : State :=
  if suppressed s x then s
  else
    let s := if x.d.ran = 0 ∧ x.sl.mergeEn = false ∧ needsLoad s x then loadWeights s x else s
    let t := tileOf s x.k
    if t.ac < t.mulReady ∨ suppressed s x then s else mulTake s x

/-! ## Special functions (R88) -/

/-- Code, table and queues of a special-function descriptor. -/
def sfCode (x : Site) : Nat := bits (descWord x x.e.arg 0) 3 0

/-- The bytes of the window from the descriptor's table address on; none where that lies outside (R79). -/
def sfTable (s : State) (x : Site) : Option (List Byte) :=
  let a := descWord x x.e.arg 8
  if a < x.sl.lsLen then windowRead s x a (x.sl.lsLen - a) else none

/-- A function reads the descriptor's table (R88). -/
def usesTable (c : Nat) : Bool := decide (c = 8) || decide (c = 10)

/-- Running maximum and sum of pass 1: the latest on their way to the accumulators, or those held. -/
def softHeld (d : SlotDyn) : Nat × Nat :=
  match d.pipe.reverse.findSome? (·.soft) with
  | some r => (r.1.toNat, r.2.toNat)
  | none => (accOf d 0, accOf d 1)

/-- Pass 1 on a word: maximum and sum land in the accumulators 8 ac on (R88). -/
def softPass1 (s : State) (x : Site) (j : Nat) (w : TWord) : State :=
  let m := softHeld (dynOf s x)
  let r := softmaxPass1 x.sl.format (decide (j = 0)) m.1 m.2 w.payload
  let s := addPipe s x
    { due := (tileOf s x.k).ac + sfLatency 6 x.sl.format, soft := some (BitVec.ofNat 32 r.1, BitVec.ofNat 32 r.2.1) }
  raiseFlags s x r.2.2

/-- Payload and flags of a function that emits a word for each it takes; a word of a reserved code gives none. -/
def sfApply (s : State) (x : Site) (j : Nat) (table : List Byte) (w : TWord) : Option (BitVec 160 × Nat) :=
  let d := dynOf s x
  let c := sfCode x
  if c ≤ 5 then some (sfWord c x.sl.format x.sl.satfp w.payload)
  else if c = 7 then some (softmaxPass2 x.sl.format x.sl.satfp (accOf d 0) (accOf d 1) w.payload)
  else if c = 8 then some (butterfly (descBytes x x.e.arg) table j w.payload)
  else if c = 9 then some (minSumUpdate (descBytes x x.e.arg) w.payload, 0)
  else if c = 10 then some (demap (descBytes x x.e.arg) table w.payload, 0)
  else none

/-- A function's result, on its way into the local output. -/
def sfEmit (s : State) (x : Site) (w : TWord) (r : BitVec 160 × Nat) : State :=
  let s := raiseFlags s x r.2
  if suppressed s x then s
  else pushOut s x ((tileOf s x.k).ac + sfLatency (sfCode x) x.sl.format)
    { payload := r.1, kind := 0, queue := BitVec.ofNat 3 (bits (descWord x x.e.arg 4) 6 4), tag := w.tag }

/-- The j-th word of an entry is worked on. A table access outside the window raises the address fault and nothing
is performed (R79). -/
def sfWordAct (s : State) (x : Site) (j : Nat) (w : TWord) : State :=
  if sfCode x = 6 then softPass1 s x j w
  else if usesTable (sfCode x) ∧ sfTable s x = none then slotFault s x 6
  else
    match sfApply s x j ((sfTable s x).getD []) w with
    | none => s
    | some r => sfEmit s x w r

/-- One ac of a special-function FIRE. -/
def sfAct (s : State) (x : Site) : State :=
  let t := tileOf s x.k
  if t.ac < t.sfReady ∨ suppressed s x then s
  else
    let j := (dynOf s x).taken
    match takeInput s x (bits (descWord x x.e.arg 4) 2 0) with
    | (s, none) => s
    | (s, some w) =>
      let s := setTile s x.k fun t => { t with sfReady := t.ac + sfInterval (sfCode x) (descBytes x x.e.arg) }
      sfWordAct (noteFiring s x w) x j w

/-! ## Memory tiles (R92, R93) -/

def mtPort (x : Site) : Nat := bits (descWord x x.e.arg 0) 1 0
def mtValid (x : Site) : Bool := bitOf (descWord x x.e.arg 0) 2

/-- Address of the access a stream position names. Log 193, DEDUCED. -/
def streamAddr (x : Site) (p : StreamPos) : Int :=
  let n := x.e.arg
  (bits (descWord x n 4) 19 0 : Int) + p.inner * signedOf 32 (descWord x n 8) +
    p.outer * signedOf 32 (descWord x n 0x10)

/-- The position after an access; the address kept is that of the next access (R99). -/
def nextStream (x : Site) (p : StreamPos) : StreamPos :=
  let n := x.e.arg
  let i := p.inner + 1
  let q : StreamPos :=
    if i < bits (descWord x n 0xC) 15 0 then { p with inner := i }
    else if p.outer + 1 < bits (descWord x n 0x14) 15 0 then { p with inner := 0, outer := p.outer + 1 }
    else { p with inner := 0, outer := 0 }
  { q with started := true, addr := streamAddr x q }

/-- A read of 20 bytes, placed in the port's output three ac on. Its tag is not stated: a free value by the address
and the descriptor's word. Log 198, DESIGN CHOICE. -/
def mtRead (s : State) (x : Site) (a : Nat) : State :=
  let t := tileOf s x.k
  let cfg := descWord x x.e.arg 0x18
  let w : TWord :=
    { payload := BitVec.ofNat 160 (leTab t.ls a 20), kind := BitVec.ofNat 4 (bits cfg 6 3),
      queue := BitVec.ofNat 3 (bits cfg 2 0), tag := Config.unstated 9 [a, cfg] 16 }
  if mtPort x = 0 then pushOut s x (t.ac + 3) w
  else setDyn (setTile s x.k fun t => { t with outs1 := t.outs1 ++ [{ due := t.ac + 3, word := w }] }) x fun d =>
    dueBy' d (t.ac + 3)

/-- A write popped now lands in the next ac. -/
def mtWrite (s : State) (x : Site) (a : Nat) : State :=
  match popQueue s x (mtPort x - 2) with
  | (s, none) => s
  | (s, some w) =>
    let ac := (tileOf s x.k).ac
    setDyn (setTile s x.k fun t =>
      { t with landing := t.landing ++ [(ac + 1, mtPort x, a, leBytes 20 w.payload.toNat)] }) x fun d =>
      dueBy' d (ac + 1)

/-- One access of a memory-tile FIRE. The spec gives a descriptor's VALID bit no effect: with VALID = 0 no access is
made, nothing steps and nothing faults. Log 242, DESIGN CHOICE. -/
def mtAct (s : State) (x : Site) : State :=
  if suppressed s x ∨ mtValid x = false then s
  else
    let p := look (tileOf s x.k).streams x.e.arg
    let a := streamAddr x p
    let s := setTile s x.k fun t => { t with streams := put t.streams x.e.arg (nextStream x p) }
    let s := noteFiring s x {}
    if a < 0 ∨ 2 ^ 20 < a + 20 then slotFault s x 6
    else if mtPort x < 2 then mtRead s x a.toNat
    else mtWrite s x a.toNat

/-! ## The core's firing (R89, R91) -/

/-- A firing starts; its instructions and its end are commands of their own. For a suppressed slot the core
idles for the whole budget. In tag firing the words of the tag move to the heads of their queues. -/
def startCore (s : State) (x : Site) : State :=
  let s := traceNote s x
  let tag := if x.sl.tagFiring ∧ suppressed s x = false then nextTag (tileOf s x.k) x.sl (dynOf s x).expect else none
  let s := if tag ≠ none ∧ tagOutside x.sl then slotFault s x 7 else s
  let sup := suppressed s x
  let s := match (if sup then none else tag) with
    | none => s
    | some g => setDyn (setTile s x.k fun t =>
        { t with queues := (setBitsOf 8 x.sl.tagq).foldl (fun qs q =>
            match takeFirst (fun w => decide (w.tag = g)) (look qs q) with
            | some (w, l) => put qs q (w :: l)
            | none => qs) t.queues }) x fun d => { d with expect := g + 1, tag := g }
  let idle := sup || (x.sl.tagFiring && tag.isNone)
  let s := setDyn s x fun d => { d with firings := if idle then d.firings else d.firings + 1 }
  setTile s x.k fun t =>
    { t with cores := upd t.cores x.sl.ix fun c =>
        { c with left := x.sl.budget, spent := 0, ended := idle, running := true, busy := 0 } }

/-- A firing of the core is in progress in the active slot. -/
def coreBusy (s : State) (x : Site) : Bool :=
  decide (x.kind = 0) && decide (x.sl.pers = 2) && (look (tileOf s x.k).cores x.sl.ix).running

/-! ## Entries -/

/-- Acs of an entry (R78, R80); of a core's firing entry see R91. -/
def entryLen (x : Site) : Nat := if x.e.action = 3 then 1 else x.e.hold

/-- The entry's counter is not zero (FIRE_IF). -/
def ctrNonZero (x : Site) : Bool := decide (x.d.ctrs.getD x.e.ctr 0 ≠ 0)

/-- A FIRE entry, or a FIRE_IF whose condition holds. -/
def fires (x : Site) : Bool := decide (x.e.action = 1) || (decide (x.e.action = 2) && ctrNonZero x)

def isCompute (x : Site) (pers : Nat) : Bool := decide (x.kind = 0) && decide (x.sl.pers = pers)

/-- The personality works this ac of the entry. -/
def fireAct (s : State) (x : Site) : State :=
  if x.kind = 1 then mtAct s x
  else if isCompute x 0 then mulAct s x
  else if isCompute x 1 then sfAct s x
  else s

/-- The CTRL word of a LOAD or SELECT, popped in the entry's first ac. -/
def tokenAct (s : State) (x : Site) (use : SlotDyn → TWord → SlotDyn) : State :=
  if suppressed s x then s
  else
    match popQueue s x (x.e.arg % 8) with
    | (s, none) => s
    | (s, some w) => setDyn s x fun d => use d w

/-- LOAD: counter CTR takes the token's value. -/
def loadCounter (x : Site) (d : SlotDyn) (w : TWord) : SlotDyn :=
  { d with ctrs := d.ctrs.set x.e.ctr (w.payload.setWidth 16) }

/-- SELECT: bit 0 of the token selects the branch (R81). -/
def takeSelect (d : SlotDyn) (w : TWord) : SlotDyn := { d with sel := some (w.payload.getLsbD 0) }

/-- The read-out of a READ: words and the ac, from the entry's first, of the first of them (R87, R126). -/
def readWords (s : State) (x : Site) : SlotDyn × List (BitVec 160) × Nat :=
  let t := tileOf s x.k
  let d := slotDyn t x.sl
  if bitOf (descWord x x.e.arg 8) 3 then (d, rawOut x.sl t.exact, 5)
  else
    let r := readOut (srEnv s x.sl.ctx) x.sl t.exact { d with flags := 0 }
    (r.1, [r.2], if x.sl.exact then 5 else 2)

def pushWords (s : State) (x : Site) (q : Nat) (tag : BitVec 16) : Nat → List (BitVec 160) → State
  | _, [] => s
  | ac, p :: l => pushWords (pushOut s x ac { payload := p, kind := 0, queue := BitVec.ofNat 3 q, tag := tag }) x q tag
      (ac + 1) l

/-- READ in its first ac. -/
def readAct (s : State) (x : Site) : State :=
  if suppressed s x ∨ isCompute x 0 = false then s
  else
    let d0 := dynOf s x
    let r := readWords s x
    let raised := r.1.flags &&& ~~~(if bitOf (descWord x x.e.arg 8) 3 then d0.flags else 0)
    let s := setDyn s x fun d => { r.1 with flags := d.flags ||| r.1.flags }
    let s := if raised.toNat &&& x.sl.trap ≠ 0 then slotFault s x 13 else s
    pushWords s x (bits (descWord x x.e.arg 8) 2 0) d0.tag ((tileOf s x.k).ac + r.2.2) r.2.1

/-- What the entry in force does in an ac; LOAD, SELECT and READ act in its first. -/
def entryAct (s : State) (x : Site) : State :=
  if fires x then fireAct s x
  else if x.d.ran ≠ 0 then s
  else if x.e.action = 4 then tokenAct s x (loadCounter x)
  else if x.e.action = 5 then tokenAct s x takeSelect
  else if x.e.action = 6 then readAct s x
  else s

/-- Steps R154 counts in an ac: each of a FIRE, FIRE_IF or READ entry, whether or not FIRE_IF works. -/
def stepsOf (x : Site) : Nat := if x.e.action = 1 ∨ x.e.action = 2 ∨ x.e.action = 6 then 1 else 0

/-- The end of the entry in force; a FOLD makes its target slot active (R78, R81). Log 192, DEDUCED. -/
def endEntry (s : State) (x : Site) : State :=
  let s := finishEntry s x (dynOf s x).sel
  if x.e.action = 3 then strayIdle (setTile s x.k fun t => { t with active := x.e.arg % 8 }) x.k else s

/-- One ac of the entry in force. -/
def tileAc (s : State) (x : Site) : State :=
  let s := if x.d.ran = 0 then traceNote s x else s
  let s := acStep (countSteps s (siteCtx s x) (stepsOf x)) x fun s => entryAct s x
  let s := setDyn s x fun d => { d with ran := d.ran + 1 }
  if entryLen x ≤ x.d.ran + 1 then endEntry s x else s

/-- At most n ac of the entry in force, as far as the tile has heard. Log 191, DEDUCED. -/
def runAcs (k : Nat) : Nat → State → State
  | 0, s => s
  | n + 1, s =>
    match siteOf s k with
    | none => s
    | some x => if heard s x then runAcs k n (tileAc s x) else s

/-- Run the entry in force: a core's firing entry starts the firing, every other runs its acs. -/
def runEntry (s : State) (x : Site) : State :=
  if fires x ∧ isCompute x 2 then (if x.sl.budget = 0 then finishEntry s x none else startCore s x)
  else runAcs x.k (entryLen x - x.d.ran) s

/-- A tile command: it runs the entry in force where that is of the row's kind. -/
def tileRow (die tile : Nat) (want : Site → Bool) (s : State) : Out1 :=
  if 39 < die ∨ 255 < tile then .fault (.noSuchTile die tile)
  else done s (match siteOf s (tileKey die tile) with
    | some x => if want x ∧ coreBusy s x = false then runEntry s x else s
    | none => s)

/-- A firing of special-function code c. -/
def firesSf (c : Nat) (x : Site) : Bool := fires x && isCompute x 1 && decide (sfCode x = c)

/-! ## The rows -/

/-- SEQ_WAIT (R80). -/
def execSeqWait (die tile : Nat) (s : State) : Out1 := tileRow die tile (fun x => decide (x.e.action = 0)) s

/-- SEQ_FIRE (R82). -/
def execSeqFire (die tile : Nat) (s : State) : Out1 := tileRow die tile (fun x => decide (x.e.action = 1)) s

/-- SEQ_FIRE_IF (R80). -/
def execSeqFireIf (die tile : Nat) (s : State) : Out1 := tileRow die tile (fun x => decide (x.e.action = 2)) s

/-- SEQ_FOLD (R78). -/
def execSeqFold (die tile : Nat) (s : State) : Out1 := tileRow die tile (fun x => decide (x.e.action = 3)) s

/-- SEQ_LOAD (R80). -/
def execSeqLoad (die tile : Nat) (s : State) : Out1 := tileRow die tile (fun x => decide (x.e.action = 4)) s

/-- SEQ_SELECT (R81). -/
def execSeqSelect (die tile : Nat) (s : State) : Out1 := tileRow die tile (fun x => decide (x.e.action = 5)) s

/-- SEQ_READ (R87): a READ entry, rounded or RAW. -/
def execSeqRead (die tile : Nat) (s : State) : Out1 := tileRow die tile (fun x => decide (x.e.action = 6)) s

/-- RAW_READOUT (R126): a READ whose descriptor has RAW = 1. -/
def execRawReadout (die tile : Nat) (s : State) : Out1 :=
  tileRow die tile (fun x => decide (x.e.action = 6) && bitOf (descWord x x.e.arg 8) 3) s

/-- SEQ_END (R80): the slot halts; its switch entry stays applied, for another length of the entry each time the
command comes again. Log 192, DEDUCED. -/
def execSeqEnd (die tile : Nat) (s : State) : Out1 := tileRow die tile (fun x => decide (x.e.action = 7)) s

/-- TAG_FIRING (R83): a firing entry of a tag-firing slot. -/
def execTagFiring (die tile : Nat) (s : State) : Out1 := tileRow die tile (fun x => fires x && x.sl.tagFiring) s

/-- EXACT_MERGE (R127): a firing entry of a slot with MERGE = 1. -/
def execExactMerge (die tile : Nat) (s : State) : Out1 :=
  tileRow die tile (fun x => fires x && isCompute x 0 && x.sl.mergeEn) s

/-- SF_EXPONENTIAL (R88, R129). -/
def execSfExponential (die tile : Nat) (s : State) : Out1 := tileRow die tile (firesSf 0) s

/-- SF_LOGARITHM (R88, R129). -/
def execSfLogarithm (die tile : Nat) (s : State) : Out1 := tileRow die tile (firesSf 1) s

/-- SF_RECIPROCAL (R88, R129). -/
def execSfReciprocal (die tile : Nat) (s : State) : Out1 := tileRow die tile (firesSf 2) s

/-- SF_RECIPROCAL_SQUARE_ROOT (R88, R129). -/
def execSfReciprocalSquareRoot (die tile : Nat) (s : State) : Out1 := tileRow die tile (firesSf 3) s

/-- SF_SIGMOID (R88, R129). -/
def execSfSigmoid (die tile : Nat) (s : State) : Out1 := tileRow die tile (firesSf 4) s

/-- SF_TANH (R88, R129). -/
def execSfTanh (die tile : Nat) (s : State) : Out1 := tileRow die tile (firesSf 5) s

/-- SOFTMAX_PASS_1 (R88, R129). -/
def execSoftmaxPass1 (die tile : Nat) (s : State) : Out1 := tileRow die tile (firesSf 6) s

/-- SOFTMAX_PASS_2 (R88, R129). -/
def execSoftmaxPass2 (die tile : Nat) (s : State) : Out1 := tileRow die tile (firesSf 7) s

/-- RADIX_4_BUTTERFLY (R130). -/
def execRadix4Butterfly (die tile : Nat) (s : State) : Out1 := tileRow die tile (firesSf 8) s

/-- MIN_SUM_CHECK_NODE_UPDATE (R88, R130). -/
def execMinSumCheckNodeUpdate (die tile : Nat) (s : State) : Out1 := tileRow die tile (firesSf 9) s

/-- MIN_SUM_DEMAPPING (R88, R130). -/
def execMinSumDemapping (die tile : Nat) (s : State) : Out1 := tileRow die tile (firesSf 10) s

/-- MEMORY_TILE_READ (R92). -/
def execMemoryTileRead (die tile : Nat) (s : State) : Out1 :=
  tileRow die tile (fun x => fires x && decide (x.kind = 1) && decide (mtPort x < 2)) s

/-- MEMORY_TILE_WRITE (R92). -/
def execMemoryTileWrite (die tile : Nat) (s : State) : Out1 :=
  tileRow die tile (fun x => fires x && decide (x.kind = 1) && decide (2 ≤ mtPort x)) s

/-- CORE_FIRING (R91): a firing of the core starts. -/
def execCoreFiring (die tile : Nat) (s : State) : Out1 := tileRow die tile (fun x => fires x && isCompute x 2) s

end Sys2Proof.Machine
end

