-- ==== Sys2Proof/Machine/Timetables.lean ====
section
/-!
DEFINITION. What a timetable does in its pass beside its tiles (R145–R164): HBM slots, entries, exits,
tick-close, traces and load balancing. A control value, a padded branch and a fold are the report's own steps, and
the model runs what the sequencer entries say (R138–R144, R153).
-/

namespace Sys2Proof.Machine

/-! ## Tick-close (R120, R154, R157, R158) -/

/-- ARITH_FLAGS of a slot (R120). -/
def arithFlags (d : SlotDyn) : Nat :=
  ofBool (d.flags.getLsbD 3) + 2 * ofBool (d.flags.getLsbD 0) + 4 * ofBool (d.flags.getLsbD 1) +
    8 * ofBool (d.flags.getLsbD 2) + 16 * ofBool d.mergeMismatch

/-- The slot belongs to context c of partition p in this tile. -/
def slotOfCtx (t : Tile) (c ix : Nat) : Bool :=
  let sl := slotImg (mainSet t (partOfCtx c)) ix
  sl.valid && decide (sl.ctx = c)

/-- Flags that the slots of a context have raised. -/
def flagsOfCtx (s : State) (c : Nat) : Nat :=
  s.tiles.foldl (fun acc kv =>
    if kindOfTile (kv.1 % 256) = 0 then
      kv.2.slots.foldl (fun acc sd => if slotOfCtx kv.2 c sd.1 then acc ||| arithFlags sd.2 else acc) acc
    else acc) 0

/-- The tiles after those flags are cleared. -/
def clearFlags (s : State) (c : Nat) : Table Tile :=
  mapT s.tiles fun k t =>
    if kindOfTile (k % 256) = 0 then
      { t with slots := mapT t.slots fun ix d =>
          if slotOfCtx t c ix then { d with flags := 0, mergeMismatch := false } else d }
    else t

/-- A timetable after a slot of its context is given up: the slot's flags are in its own (R120). -/
def withSlot (t : Timetable) (k ix : Nat) (d : SlotDyn) (ended : Option Nat) : Timetable :=
  { t with
    flags := t.flags ||| BitVec.ofNat 8 (arithFlags d)
    doneSlots := match ended with
      | some a => t.doneSlots ++ [(k, ix, a)]
      | none => t.doneSlots }

/-- The last ac of a slot that has reached END: that of the END entry, or of its pipelines (R157). -/
def slotEnded (t : Tile) (m : Table Byte) (ix : Nat) : Option Nat :=
  let sl := slotImg m ix
  let d := slotDyn t sl
  if d.halted ∨ (seqEntry m ix d.pos).action = 7 then some (max d.endAt d.lastDue) else none

/-- The context of a slot of partition p's program in a tile, where it has a timetable. -/
def ctxOfSlot (s : State) (p k : Nat) (t : Tile) (ix : Nat) : Option Nat :=
  let sl := slotImg (mainSet t p) ix
  let c := if kindOfTile (k % 256) = 0 then (if sl.valid then some sl.ctx else none) else ctxOfTile s p k
  c.filter fun c => decide (partOfCtx c = p) && decide ((ttOf s c).state ≠ .none)

/-- One slot of a tile is given up. -/
def saveSlot (s : State) (p k : Nat) (t : Tile) (ix : Nat) : State :=
  match ctxOfSlot s p k t ix with
  | some c => { s with tts := upd s.tts c fun y => withSlot y k ix (look t.slots ix) (slotEnded t (mainSet t p) ix) }
  | none => s

def saveTile (s : State) (p k : Nat) (t : Tile) : State :=
  (List.range (if kindOfTile (k % 256) = 0 then 8 else 1)).foldl (fun s ix => saveSlot s p k t ix) s

/-- The slots in some quadrants, whose owners `own` names, are given up within a tick: each slot's context keeps the
flags it has raised and, where it has reached END, its last ac; the slots keep no flag. -/
def saveSlots (s : State) (own : Nat → Option Nat) : State :=
  let s := s.tiles.foldl (fun s kv => match own (quadOfTile kv.1) with
    | some p => saveTile s p kv.1 kv.2
    | none => s) s
  { s with tiles := mapT s.tiles fun k t =>
      if (own (quadOfTile k)).isSome then
        { t with slots := mapT t.slots fun _ d => { d with flags := 0, mergeMismatch := false } }
      else t }

/-- A tick-close record from the counters of the pass. Log 129, DEDUCED. -/
def recOf (s : State) (c type off : Nat) (last : Bool) : CloseRec :=
  let t := ttOf s c
  { type := type, last := last
    closeMismatch := decide (type = 1) && decide (off ≠ t.report.closeAc)
    schedMismatch := decide (type = 1) && decide (t.schedCount ≠ t.report.schedTotal)
    faulted := decide (t.faults ≠ 0)
    postmark := (ctxOf s c).postmark
    ctx := c
    radio := t.report.radio, standing := t.report.standing, exactRed := t.report.exactRed
    tick := s.tick.count
    closeAc := if type = 1 then off else 0
    flags := t.flags ||| BitVec.ofNat 8 (flagsOfCtx s c)
    schedCount := t.schedCount, reqIn := t.reqIn, reqHeld := t.reqHeld, idle := t.idle
    hbmRd := t.hbmRd, hbmWr := t.hbmWr, faults := t.faults
    digest8 := digest8 t }

/-- Counters and status bits that a record's flags move (R134, R135). -/
def noteFlags (s : State) (f : Nat) : State :=
  let s := if bitOf f 0 then incReg s (bAri + 0x10) 1 else s
  let s := if bitOf f 1 then incReg s (bAri + 0x14) 1 else s
  if f % 16 = 0 then s else orReg s (bAri + 0x18) (f % 16)

/-- Context c runs alone in a quarantine replay (R373). -/
def replaying (s : State) (c : Nat) : Bool :=
  let q := look s.quarantines (partOfCtx c)
  q.active && q.replaying && decide (q.suspects[q.current]? = some c)

/-- Write a record, or hold it for a job of several chips (R157). A replay's record is discarded (R373). -/
def deliverRec (s : State) (c : Nat) (r : CloseRec) : State :=
  let t := ttOf s c
  let s := noteFlags { s with
    tiles := clearFlags s c, tts := upd s.tts c fun t => { t with flags := 0 } } r.flags.toNat
  if replaying s c then s
  else if 1 < t.report.chips ∧ r.type ≤ 2 then
    { s with tts := upd s.tts c fun t => { t with heldRecs := t.heldRecs ++ [(t.job.pass, r)] } }
  else writeRec s c r

/-- Base of a partition's TTB window. -/
def ttbBase (p : Nat) : Nat := bTtb + 0x10000 * p

/-- The trace of a partition selects a slot of this context, or a memory or edge tile that its timetable uses. Log
93, DEDUCED. -/
def traceOf (s : State) (c : Nat) : Bool :=
  let p := partOfCtx c
  let sel := reg s (ttbBase p + 0x20)
  let k := tileKey (bits sel 5 0) (bits sel 15 8)
  decide (p ∈ s.tracing) &&
    (if kindOfTile (k % 256) = 0 then slotOfCtx (tileOf s k) c (bits sel 18 16) else decide (ctxOfTile s p k = some c))

/-- The capture of a partition ends (R164). Log 93, DEDUCED. -/
def endTrace (s : State) (p : Nat) : State :=
  orReg (clrReg { s with tracing := s.tracing.filter (· ≠ p) } (ttbBase p + 0x24) 0x80000000) (ttbBase p + 0x4) 0x10

/-- Difference of the step count from the report, saturating to 32 bits (R371). -/
def stepDiff (t : Timetable) : Nat := (saturate 32 ((t.schedCount : Int) - t.report.schedTotal)).1

/-- Log 130, DEDUCED. -/
def tickClose (s : State) (c off : Nat) : State :=
  let t := ttOf s c
  let s := { s with tick := { s.tick with off := off } }
  let r0 := recOf s c 1 off false
  let bad := r0.closeMismatch || r0.schedMismatch
  let r := if bad then { r0 with faulted := true, faults := r0.faults + 1 } else r0
  let s := deliverRec { s with tts := upd s.tts c fun t => { t with closed := true } } c r
  let s := if traceOf s c then endTrace s (partOfCtx c) else s
  if bad then
    raiseFault (orReg (incReg s (ttbBase (partOfCtx c) + 0x10) 1) (ttbBase (partOfCtx c) + 0x4) 0x8)
      { code := 15, named := .context c, detail := stepDiff t, off := off }
  else s

/-- Slot and line of line n of a descriptor (R147). -/
def descSlot (d : HbmDesc) (n : Nat) : Nat := d.firstSlot + n * d.slotStride

/-- LCOUNT0 is at least 1; the spec gives a value of 0 no effect: it runs as 1. Log 243, DESIGN CHOICE. -/
def descLine (d : HbmDesc) (n : Nat) : Int :=
  (d.lineBase : Int) + ((n % max d.lcount0 1 : Nat) : Int) * d.lstride0 + ((n / max d.lcount0 1 : Nat) : Int) * d.lstride1

/-- The last ac of the slot that a report's tile uses: of one still in place, or of one that had ended when its
quadrant changed over. -/
def useEnded (s : State) (c : Nat) (u : TileUse) : Option Nat :=
  let k := tileKey u.die u.tile
  match (ttOf s c).doneSlots.find? fun x => decide (x.1 = k ∧ x.2.1 = u.slot) with
  | some x => some x.2.2
  | none => if ownerNow s (quadOfTile k) = some (partOfCtx c) then
      slotEnded (tileOf s k) (mainSet (tileOf s k) (partOfCtx c)) u.slot
    else none

/-- Last ac of a descriptor's write slots, once every line has moved. -/
def writesEnded (t : Timetable) (d : HbmDesc × Nat) : Option Nat :=
  if d.1.valid ∧ d.1.write ∧ 0 < d.1.count then
    (if look t.lines d.2 < d.1.count then none else some (3 * descSlot d.1 (d.1.count - 1) + 2))
  else some 0

/-- Greatest of a list of offsets, where all are known. -/
def greatest : List (Option Nat) → Option Nat
  | [] => some 0
  | some a :: l => (greatest l).map (max a)
  | none :: _ => none

/-- Where a cyclic timetable closes: in the ac after the last of its slots has reached END, its pipelines have drained
and its last HBM write slot has ended (R157); none where one of them is still to come. -/
def cyclicClose (s : State) (c : Nat) : Option Nat :=
  let t := ttOf s c
  (greatest (t.report.tiles.map (useEnded s c) ++ t.report.descs.zipIdx.map (writesEnded t))).map (· + 1)

/-- The timetable makes a pass in this tick and has not closed it, and it closes at this offset: a standing one at
L − 1. Log 130, DEDUCED. -/
def mayClose (s : State) (c off : Nat) : Bool :=
  let t := ttOf s c
  t.ran && !t.closed && decide (off < tickLen s) &&
    (if t.report.standing then decide (off = tickLen s - 1) else decide (cyclicClose s c = some off))

/-- TICK_CLOSE (R157). -/
def execTickClose (ctx off : Nat) (s : State) : Out1 :=
  done s (if mayClose s ctx off then tickClose s ctx off else s)

/-! ## Trace and load balancing (R161, R164) -/

/-- TTB_TRACE_ARM (R164): START is stored, ARM sets. -/
def execTtbTraceArm (v : View) (p : Nat) (data : BitVec 32) (s : State) : Out1 :=
  done s (if hasAccess v ∧ p < 32 then
      let a := ttbBase p + 0x24
      setReg s a (bits data.toNat 20 0 + ofBool (bitOf data.toNat 31 || bitOf (reg s a) 31) * 2 ^ 31)
    else s)

/-- DLB_EN_WRITE (R161): a write of 1 for a radio context is discarded; the change takes effect at the next
boundary. -/
def execDlbEnWrite (v : View) (ctx : Nat) (data : BitVec 32) (s : State) : Out1 :=
  done s (if hasAccess v ∧ ctx < 2048 ∧ ¬(data.getLsbD 0 ∧ (part s (partOfCtx ctx)).radio) then
      { s with tts := upd s.tts ctx fun t => { t with dlbEn := data.getLsbD 0 } }
    else s)

/-! ## HBM slots (R145–R148, R197) -/

/-- A line is in the view of a context's timetable (R197). -/
def inView (s : State) (c pc : Nat) (line : Int) : Bool :=
  let x := pcOf s pc
  decide (0 ≤ line) && decide (line < dataLines x.sealed) && decide (x.owner = .partition) &&
    decide (x.part = partOfCtx c) &&
    (let g := pageAt s pc (pageOfLine line.toNat)
     (decide (g.kind = .context) && decide (g.owner = c) && !g.orphan) || decide (g.kind = .shared))

/-- A descriptor of a timetable in its pass that has a line left. -/
def liveDesc (s : State) (c i : Nat) : Option (HbmDesc × Nat) :=
  let t := ttOf s c
  match t.report.descs[i]? with
  | some d => if t.ran ∧ !t.closed ∧ d.valid ∧ look t.lines i < d.count then some (d, look t.lines i) else none
  | none => none

/-- A slot of descriptor i has passed: it counts as a step (R154), and as a line where it moved one (R148). -/
def lineMoved (s : State) (c i : Nat) (write moved : Bool) : State :=
  { s with tts := upd s.tts c fun t =>
      { t with
        lines := upd t.lines i (· + 1)
        schedCount := t.schedCount + 1
        hbmRd := if moved && !write then t.hbmRd + 1 else t.hbmRd
        hbmWr := if moved && write then t.hbmWr + 1 else t.hbmWr } }

/-- Word k of a line on its way to the descriptor's port. -/
def readWord (d : HbmDesc) (n k : Nat) (kind : BitVec 4) (bytes : List Byte) : TWord :=
  { payload := BitVec.ofNat 160 (leAt bytes (20 * k) 20), kind := kind, queue := d.queue,
    tag := d.tagBase + BitVec.ofNat 16 n * d.tagStep }

def placeLine (s : State) (c : Nat) (d : HbmDesc) (n : Nat) (kind : BitVec 4) (bytes : List Byte) : State :=
  (List.range 3).foldl (fun s k =>
    hubEmit s (partOfCtx c) d.hub d.port (3 * descSlot d n + 192 + k) (readWord d n k kind bytes)) s

/-- HBM_SLOT_READ: the line, or zeros after a fault, reaches the port 192 ac later (R148, R207). -/
def slotRead (s : State) (c i : Nat) (d : HbmDesc) (n : Nat) : State :=
  let line := descLine d n
  let s := lineMoved { s with tick := { s.tick with off := 3 * descSlot d n } } c i false (inView s c d.pc line)
  if inView s c d.pc line then
    let r := readLine s (.context c) d.pc line.toNat
    placeLine r.1 c d n (if r.2.2 then 0 else d.kind) r.2.1
  else
    placeLine (memFault s 36 (.context c) d.pc (wrapInt 24 line)) c d n 0 (List.replicate 64 0)

def execHbmSlotRead (ctx desc : Nat) (s : State) : Out1 :=
  done s (match liveDesc s ctx desc with
    | some (d, n) => if d.write then s else slotRead s ctx desc d n
    | none => s)

/-- Payload of word k of a write slot; where no word stands there the bytes written are not stated: a free
value. Log 201, DESIGN CHOICE. -/
def writeWord (s : State) (d : HbmDesc) (n k : Nat) : List Byte :=
  match hubWordAt s (hubInKey d.hub d.port) (3 * descSlot d n + k) with
  | some w => leBytes 20 w.payload.toNat
  | none => leBytes 20 (Config.freeBits (s.fresh + k) 160).toNat

/-- HBM_SLOT_WRITE: a write slot moves nothing in a replay (R373); otherwise one line taken from the port; its
bytes 60 to 63 become zero (R145, R148). Log 201, DESIGN CHOICE. -/
def slotWrite (s : State) (c i : Nat) (d : HbmDesc) (n : Nat) : State :=
  let line := descLine d n
  let bytes := (List.range 3).flatMap (writeWord s d n) ++ [0, 0, 0, 0]
  let s := lineMoved { s with tick := { s.tick with off := 3 * descSlot d n }, fresh := s.fresh + 3 } c i true
    (inView s c d.pc line)
  let s := (List.range 3).foldl (fun s k => hubTake s (hubInKey d.hub d.port) (3 * descSlot d n + k)) s
  if replaying s c then s
  else if inView s c d.pc line then writeLine s d.pc line.toNat bytes
  else memFault s 36 (.context c) d.pc (wrapInt 24 line)

def execHbmSlotWrite (ctx desc : Nat) (s : State) : Out1 :=
  done s (match liveDesc s ctx desc with
    | some (d, n) => if d.write then slotWrite s ctx desc d n else s
    | none => s)

/-! ## Requests and entries (R35, R149, R150, R160) -/

/-- The context whose timetable takes its entries from a queue. -/
def ctxOfEntryQ (s : State) (q : Nat) : Option Nat :=
  (s.tts.find? fun kv => decide (kv.2.state ≠ .none) && decide (kv.2.entryQ = some q)).map (·.1)

/-- A request of a binding whose words are held and that is not yet ready. Log 132, DEDUCED. -/
def awaitsReady (h : Hold) : Bool :=
  h.used && h.descOk && !h.ready && !h.noReply && decide (h.stage ≤ 1)

/-- The binding whose entry queue this is: one that is removed but has requests to complete comes first (R270). -/
def bindingOfQ (s : State) (q : Nat) : Option Nat :=
  match s.binds.find? fun kv => decide (kv.2.entryQ = q) && kv.2.holds.any fun h => awaitsReady h.2 with
  | some kv => some kv.1
  | none => (s.binds.find? fun kv => kv.2.valid && decide (kv.2.entryQ = q)).map (·.1)

/-- The offset lies in the guard band of a timetable (R35). Log 132, DEDUCED. -/
def inGuard (s : State) (t : Timetable) (off : Nat) : Bool :=
  decide (tickLen s ≤ off + t.report.entry.d)

/-- The first offset e0 + k × II at or after an offset (R149, R150). -/
def entryAtOrAfter (t : Timetable) (off : Nat) : Nat :=
  let e := t.report.entry
  if off ≤ e.e0 then e.e0 else e.e0 + (off - e.e0 + max e.ii 1 - 1) / max e.ii 1 * max e.ii 1

/-- A request joins the ready requests of its queue; it is held by the guard band where the first entry offset at or
after its ac lies in it (R35, R150). Log 131, DEDUCED. Log 132, DEDUCED. -/
def becomeReady (s : State) (q : Nat) (r : ReadyReq) : State :=
  let held := match ctxOfEntryQ s q with
    | some c => if (ttOf s c).ran ∧ inGuard s (ttOf s c) (entryAtOrAfter (ttOf s c) r.off) then
        upd s.tts c fun t => { t with reqHeld := t.reqHeld + 1 }
      else s.tts
    | none => s.tts
  { s with tts := held, queues := upd s.queues q fun x => { x with ready := x.ready ++ [r] } }

/-- Take n entries of an ENTRY ring: their words and the first one's postmark. Log 131, DEDUCED. -/
def takeEntries (s : State) (who : Named) (q : Nat) : Nat → State × List TWord × Nat
  | 0 => (s, [], 0)
  | n + 1 =>
    let x := queueOf s q
    let r := hostRead s who x.func (entryAddr x x.cons) 32
    let b := match r.2 with
      | some (b, _) => b
      | none => List.replicate 32 0
    let s := { r.1 with queues := upd r.1.queues q fun y =>
      { y with cons := nextIndex y y.cons, entries := y.entries + 1 } }
    let rest := takeEntries s who q n
    (rest.1, entryWord b :: rest.2.1, leAt b 0x18 2)

/-- A request of a ring: F entries that software has posted. Log 131, DEDUCED. -/
def ringReady (s : State) (c q off : Nat) : State :=
  let f := (ttOf s c).report.entry.f
  let x := queueOf s q
  if x.enabled ∧ f ≠ 0 ∧ f ≤ occupancy x then
    let r := takeEntries s (.context c) q f
    if (ctxOf s c).state = .resetting then countDead r.1 q 1
    else becomeReady r.1 q { tick := tickCount s, off := off, words := r.2.1, postmark := BitVec.ofNat 16 r.2.2 }
  else s

/-- Words of a request frame, from its decrypted body (R255). -/
def fieldWords (h : Hold) (descN f : Nat) : List TWord :=
  (List.range f).map fun j =>
    { payload := BitVec.ofNat 160 (leAt h.body (4 * descN + 20 * j) 20), kind := 0 }

/-- The place of a binding whose request becomes ready first, of those ready by an ac (R260). -/
def firstReady (b : Binding) (now : Nat) : Option (Nat × Hold) :=
  (b.holds.filter fun h => awaitsReady h.2 && decide (h.2.readyAc ≤ now)).foldl (fun best h =>
    match best with
    | none => some h
    | some x => if h.2.readyAc < x.2.readyAc then some h else some x) none

/-- A request frame of a binding whose descriptors matched becomes ready at r, and no sooner (R260). -/
def frameReady (s : State) (i q off : Nat) : State :=
  let b := look s.binds i
  match firstReady b (tickCount s * tickLen s + off) with
  | some (n, h) =>
    let s := { s with binds := upd s.binds i fun b =>
      { b with holds := upd b.holds n fun h => { h with ready := true } } }
    becomeReady s q { tick := h.readyAc / tickLen s, off := h.readyAc % tickLen s, words := fieldWords h b.descN b.fIn,
                      postmark := (ctxOf s b.ctx).postmark, hold := some (i, n) }
  | none => s

/-- REQUEST_READY (R150). New requests of a context in reset are dropped (R383). -/
def requestReady (s : State) (q off : Nat) : State :=
  let s := { s with tick := { s.tick with off := off } }
  match bindingOfQ s q with
  | some i => frameReady s i q off
  | none =>
    match ctxOfEntryQ s q with
    | some c => ringReady s c q off
    | none => s

def execRequestReady (q off : Nat) (s : State) : Out1 :=
  done s (if (queueOf s q).kind = 5 then requestReady s q off else s)

/-- Entry offsets of a pass: e0 + k × II below L − D (R149). -/
def isEntryOffset (s : State) (t : Timetable) (off : Nat) : Bool :=
  let e := t.report.entry
  decide (e.e0 ≤ off) && decide ((off - e.e0) % max e.ii 1 = 0) && !inGuard s t off && decide (off < tickLen s)

/-- Contexts of a context's load-balancing group, by rising context; the context alone while off (R161). Log
137, DEDUCED. -/
def balanceGroup (s : State) (c : Nat) : List Nat :=
  let t := ttOf s c
  if t.dlbActive ∧ t.group ≠ 0 then
    (s.tts.filter fun kv => decide (kv.2.state ≠ .none) && decide (kv.2.group = t.group) &&
      decide (funcOfCtx s kv.1 = funcOfCtx s c)).map (·.1)
  else [c]

/-- Members of lower index whose entry at this offset is still to come: they choose first (R160). Log 137,
DEDUCED. -/
def lowerMembers (s : State) (c off : Nat) : Nat :=
  ((balanceGroup s c).filter fun c' =>
    let t := ttOf s c'
    decide (t.member < (ttOf s c).member) && t.ran && isEntryOffset s t off &&
      decide (t.lastEntry ≠ some off)).length

/-- Ready requests of a list of contexts' queues that are ready by an offset, in arrival order: queue and
request. Log 131, DEDUCED. -/
def readyOf (s : State) (cs : List Nat) (off : Nat) : List (Nat × ReadyReq) :=
  let all := cs.flatMap fun c =>
    match (ttOf s c).entryQ with
    | some q => ((queueOf s q).ready.filter fun r => decide (r.tick < tickCount s) || decide (r.off ≤ off)).map
        fun r => (q, r)
    | none => []
  sortBy (fun a b => decide (a.2.tick * 2 ^ 32 + a.2.off ≤ b.2.tick * 2 ^ 32 + b.2.off)) all

/-- Words on their way into the entry port. Log 202, DEDUCED. -/
def placeEntry (s : State) (c off : Nat) : List TWord → Nat → State
  | [], _ => s
  | w :: l, i =>
    let e := (ttOf s c).report.entry
    placeEntry (hubEmit s (partOfCtx c) e.hub e.port (off + i) w) c off l (i + 1)

/-- The timetable after an entry with its words. -/
def entered (t : Timetable) (f : Flight) (words : List TWord) : Timetable :=
  { t with
    entries := insert t.entries f.off words
    flight := t.flight ++ [{ f with left := t.report.exit.f }]
    lastEntry := some f.off
    reqIn := if f.idle then t.reqIn else t.reqIn + 1
    idle := if f.idle then t.idle + 1 else t.idle
    entered := if f.idle then t.entered else t.entered + 1 }

/-- A hold place whose request enters. -/
def holdEntered (s : State) (hold : Option (Nat × Nat)) (off : Nat) : Table Binding :=
  match hold with
  | some (i, n) => upd s.binds i fun b =>
      { b with holds := upd b.holds n fun h =>
          { h with stage := max h.stage 2, entryTick := tickCount s, entryOff := off } }
  | none => s.binds

/-- ENTRY_OFFSET (R150): a ready request enters, or the port carries the fill words. -/
def entryOffset (s : State) (c off : Nat) : State :=
  let s := { s with tick := { s.tick with off := off } }
  match (readyOf s (balanceGroup s c) off)[lowerMembers s c off]? with
  | some (q, r) =>
    let s := { s with
      queues := upd s.queues q fun x => { x with ready := x.ready.erase r }
      binds := holdEntered s r.hold off
      tts := upd s.tts c fun t => entered t { off := off, hold := r.hold, postmark := r.postmark } r.words }
    placeEntry s c off r.words 0
  | none =>
    let s := { s with tts := upd s.tts c fun t => entered t { off := off, idle := true } t.report.fill }
    placeEntry s c off (ttOf s c).report.fill 0

/-- Words the replay buffer of a hub die holds: 4 MiB in the 23-byte layout of R99. Log 90, DEDUCED. Log 91,
DEDUCED. -/
def replayWords : Nat := 4194304 / 23

/-- Words of the overrun pass that entered before an offset. Log 91, DEDUCED. -/
def wordsBefore (t : Timetable) (off : Nat) : Nat :=
  ((t.replay.filter fun kv => decide (kv.1 < off)).map fun kv => kv.2.length).sum

/-- An entry of a replay carries the words of the overrun tick, or fill words beyond the buffer (R373). Log 90,
DEDUCED. Log 91, DEDUCED. -/
def replayEntry (s : State) (c off : Nat) : State :=
  let t := ttOf s c
  let held := (look? t.replay off).getD t.report.fill
  let words := if wordsBefore t off + held.length ≤ replayWords then held else t.report.fill
  placeEntry { s with
      tick := { s.tick with off := off }
      tts := upd s.tts c fun t => { t with flight := t.flight ++ [{ off := off, idle := true, left := t.report.exit.f }]
                                           lastEntry := some off } } c off words 0

/-- Entries of a pass come at rising offsets. -/
def laterEntry (t : Timetable) (off : Nat) : Bool :=
  match t.lastEntry with
  | some o => decide (o < off)
  | none => true

/-- The timetable makes a pass, has an entry queue, and this is its next entry offset or a later one. -/
def mayEnter (s : State) (c off : Nat) : Bool :=
  let t := ttOf s c
  t.ran && !t.closed && t.entryQ.isSome && isEntryOffset s t off && laterEntry t off

def execEntryOffset (ctx off : Nat) (s : State) : Out1 :=
  done s (if mayEnter s ctx off = false then s
    else if replaying s ctx then replayEntry s ctx off
    else entryOffset s ctx off)

/-! ## Exits (R149, R375, R376) -/

/-- The entry whose result stands in the exit port at an offset. -/
def flightAt (t : Timetable) (off : Nat) : Option Flight :=
  t.flight.find? fun f => t.report.exit.offsets.any fun o => decide (f.off + o = off)

/-- One result word fewer to come; the first one that goes `out` makes its entry one with an exit (R377). -/
def landed (t : Timetable) (f : Flight) (out : Bool) : Timetable :=
  { t with
    flight := if f.left ≤ 1 then t.flight.erase f else t.flight.replace f { f with left := f.left - 1 }
    exited := if out ∧ f.left = t.report.exit.f then t.exited + 1 else t.exited }

/-- The F_OUT result words of a reply: words that the entry did not give are not stated, so free. Log 133,
DEDUCED. Log 134, DEDUCED. -/
def replyWords (s : State) (n : Nat) (l : List TWord) : List TWord :=
  l.take n ++ (List.range (n - l.length)).map fun k => { payload := Config.freeBits (s.fresh + k) 160 }

/-- A result word of a request frame; with the entry's last one the reply is produced. Log 133, DEDUCED. Log
134, DEDUCED. -/
def holdResult (s : State) (i n : Nat) (w : TWord) (last : Bool) : Table Binding :=
  upd s.binds i fun b => { b with holds := upd b.holds n fun h =>
    if h.used ∧ !h.noReply then
      if last then { h with results := replyWords s b.fOut (h.results ++ [w]), stage := 3, reply := .produced }
      else { h with results := h.results ++ [w] }
    else h }

/-- A result word that a ring's entry produced. -/
def ringResult (s : State) (c : Nat) (f : Flight) (w : TWord) : State :=
  let t := ttOf s c
  if f.postmark ≠ (ctxOf s c).postmark then incReg s (bFlt + 0x1C) 1
  else match t.exitQ with
    | none => s
    | some q =>
      if 1 < t.report.chips then
        { s with tts := upd s.tts c fun t =>
            { t with heldExits := t.heldExits ++ [{
              q := q, word := w, postmark := f.postmark, pass := t.job.pass, entry := f.off }] } }
      else exitEntry s q w f.postmark.toNat

/-- Work after a fault's barrier is discarded in a tenant context (R376). -/
def pastBarrier (s : State) (c : Nat) : Bool :=
  (ttOf s c).barrierTick.isSome && !(part s (partOfCtx c)).radio

/-- EXIT_RESULT (R149, R150, R375, R432): the word that stands in the exit port's register is the result; where the
model's array has put none there, the command's own word stands for it. Log 130, DEDUCED. Log 133, DEDUCED. Log 244,
DESIGN CHOICE. -/
def exitResult (s : State) (c : Nat) (word : TWord) (off : Nat) : State :=
  let t := ttOf s c
  let key := hubInKey t.report.exit.hub t.report.exit.port
  let w := (hubWordAt s key off).getD word
  let s := { s with tick := { s.tick with off := off } }
  let s := hubTake s key off
  match flightAt t off with
  | none => s
  | some f =>
    let out := !f.idle && !pastBarrier s c
    let s := { s with tts := upd s.tts c fun t => landed t f out }
    if out = false then s
    else match f.hold with
      | some (i, n) => { s with binds := holdResult s i n w (decide (f.left ≤ 1)), fresh := s.fresh + (look s.binds i).fOut }
      | none => ringResult s c f w

def execExitResult (ctx : Nat) (word : TWord) (off : Nat) (s : State) : Out1 :=
  done s (if (ttOf s ctx).ran then exitResult s ctx word off else s)

end Sys2Proof.Machine
end

