-- ==== Sys2Proof/Machine/Plan.lean ====
section
/-!
DEFINITION. The slice plan and the cell table (R24–R28, R292, R293, R431): what stands in force at a
boundary, whether a timetable's cells fit it, PLAN_SWAP and RADIO_RESERVE.
-/

namespace Sys2Proof.Machine

/-! ## Plans -/

/-- A slice plan with its cell table. -/
structure Plan where
  starts : List Nat := []
  cells : Table Byte := []
  deriving DecidableEq, Repr, Inhabited

/-- The owner a cell byte names (R292). -/
def ownerOfByte (b : Byte) : Option Nat := if b.getLsbD 5 then some (bits b.toNat 4 0) else none

/-- Owner of a cell in a table. -/
def cellOwner (t : Table Byte) (slice quad : Nat) : Option Nat := ownerOfByte (look t (160 * slice + quad))

/-- The byte of a cell that partition p owns. -/
def cellByte (p : Nat) (radio : Bool) : Byte := BitVec.ofNat 8 (32 + p % 32 + 64 * ofBool radio)

/-- Partitions that own a slice of a quadrant, by slice. -/
def ownersIn (t : Table Byte) (n quad : Nat) : List Nat :=
  ((List.range n).filterMap fun i => cellOwner t i quad).eraseDups

def planNow (s : State) : Plan := { starts := activeStarts s, cells := s.cellA }

def shadowN (s : State) : Nat := bits (reg s (bTck + 0x40)) 12 8
/-- Log 69, DEDUCED. -/
def shadowStarts (s : State) : List Nat := (List.range (shadowN s)).map fun i => reg s (bTck + 0x140 + 4 * i)

/-- First offset after slice i. -/
def sliceEnd (len : Nat) (starts : List Nat) (i : Nat) : Nat := starts.getD (i + 1) len

/-- A reservation written into a cell table (R431). -/
def reserveQuad (t : Table Byte) (p : Nat) (slices : BitVec 16) (quad : Nat) : Table Byte :=
  (List.range 16).foldl (fun t i =>
    if slices.getLsbD i then put t (160 * i + quad) (cellByte p true)
    else if cellOwner t i quad = some p then put t (160 * i + quad) 0
    else t) t

/-- Log 70, DEDUCED. -/
def reserveCells (t : Table Byte) (p : Nat) (slices : BitVec 16) (qmask : BitVec 160) : Table Byte :=
  (setBitsOf 160 qmask.toNat).foldl (fun t q => reserveQuad t p slices q) t

/-- A cell-table change that an accepted command makes at its boundary. Log 68, DEDUCED. -/
def planEffect (shadow : Table Byte) (pl : Plan) : Effect → Plan
  | .planSwap _ starts => { starts := starts, cells := shadow }
  | .reserve p slices qmask => { pl with cells := reserveCells pl.cells p slices qmask }
  | _ => pl

def isPlanSwap : Effect → Bool
  | .planSwap _ _ => true
  | _ => false

def isReserve : Effect → Bool
  | .reserve _ _ _ => true
  | _ => false

/-- Effects due at or before the boundary that opens a tick. -/
def dueBy (s : State) (tick : Nat) (f : Effect → Bool) : List Effect :=
  (s.effects.filter fun e => decide (e.due ≤ tick) && f e.effect).map (·.effect)

/-- The plan and cells in force at the boundary that opens `tick`: plan swaps first, then reservations in
the order accepted (R32, R431). -/
def planAt (s : State) (tick : Nat) : Plan :=
  let l := dueBy s tick isPlanSwap ++ dueBy s tick isReserve
  l.foldl (planEffect s.cellS) (planNow s)

/-! ## Whether a timetable's cells fit -/

/-- Slice i of the quadrant begins with a changeover (R27). -/
def changesAt (pl : Plan) (i quad : Nat) : Bool :=
  let n := pl.starts.length
  decide (cellOwner pl.cells i quad ≠ cellOwner pl.cells ((i + n - 1) % max n 1) quad)

/-- An interval of offsets lies in cells that p owns and outside changeovers. -/
def intervalFits (len : Nat) (pl : Plan) (p quad : Nat) (iv : Nat × Nat) : Bool :=
  decide (iv.2 < len) && (List.range pl.starts.length).all fun i =>
    let a := pl.starts.getD i 0
    decide (iv.2 < a) || decide (sliceEnd len pl.starts i ≤ iv.1) ||
      (decide (cellOwner pl.cells i quad = some p) &&
        (!changesAt pl i quad || decide (a + 256 ≤ iv.1) || decide (iv.2 < a)))

def ownsAll (pl : Plan) (p quad : Nat) : Bool :=
  (List.range pl.starts.length).all fun i => decide (cellOwner pl.cells i quad = some p)

/-- Row 5 of R155. -/
def cellsFit (len : Nat) (pl : Plan) (p : Nat) (r : Report) : Bool :=
  r.cells.all fun qc =>
    qc.2.all (intervalFits len pl p qc.1) && (!r.standing || ownsAll pl p qc.1)

/-- The timetable fires or routes in slice i of a quadrant. -/
def occupiesCell (len : Nat) (pl : Plan) (r : Report) (i quad : Nat) : Bool :=
  r.cells.any fun qc => decide (qc.1 = quad) && qc.2.any fun iv =>
    decide (pl.starts.getD i 0 ≤ iv.2) && decide (iv.1 < sliceEnd len pl.starts i)

/-- Quadrants of a timetable. -/
def quadsOf (r : Report) : List Nat := r.cells.map (·.1)

/-! ## Sets and what they hold -/

/-- The Siding image of partition p in a tile (R73, R165). -/
def sideSet (t : Tile) (p : Nat) : Table Byte :=
  match t.sets.find? (·.part = p) with
  | some x => x.side
  | none => []

/-- A tile image holds a VALID slot of context c. -/
def holdsCtx (img : Table Byte) (c : Nat) : Bool :=
  (List.range 8).any fun ix => let sl := slotImg img ix; sl.valid && decide (sl.ctx = c)

/-- The Siding of p in some tile of a quadrant holds a slot of context c. -/
def sideHolds (s : State) (p quad c : Nat) : Bool :=
  s.tiles.any fun kv => decide (quadOfTile kv.1 = quad) && holdsCtx (sideSet kv.2 p) c

/-- The Mainline of p in some tile of a quadrant holds a slot of context c. -/
def mainHolds (s : State) (p quad c : Nat) : Bool :=
  s.tiles.any fun kv => decide (quadOfTile kv.1 = quad) && holdsCtx (mainSet kv.2 p) c

/-- Library entries whose parts fill the Sidings of p in the named quadrants. -/
def sideEntries (s : State) (p : Nat) (qmask : BitVec 160) : List Nat :=
  ((look s.sdg p).lib.filterMap fun kv =>
    if qmask.getLsbD kv.1 ∧ kv.2 ≠ 0 then some (kv.2 - 1) else none).eraseDups

/-- Context that an entry's slots name: that of the first VALID slot of its first part. -/
def entryCtx (e : LibEntry) : Option Nat :=
  e.parts.findSome? fun pt =>
    let img : Table Byte := pt.2.2.zipIdx.map fun bi => (bi.2, bi.1)
    (List.range 8).findSome? fun ix => let sl := slotImg img ix; if sl.valid then some sl.ctx else none

/-- The set in the Sidings of a group replaces the timetable of context c of p, or drops it: present in the old
set and absent from the new (R177). -/
def outgoing (s : State) (p : Nat) (qmask : BitVec 160) (c : Nat) : Bool :=
  let r := (ttOf s c).report
  decide ((ttOf s c).state ≠ .none) && decide ((ttOf s c).state ≠ .staged) && decide (partOfCtx c = p) &&
    (quadsOf r).any (fun q => qmask.getLsbD q) &&
    ((sideEntries s p qmask).any (fun e => decide (entryCtx (look s.lib e) = some c) &&
        decide ((look s.lib e).report.digest ≠ r.digest)) ||
      ((quadsOf r).any fun q => qmask.getLsbD q && mainHolds s p q c) &&
        (quadsOf r).all fun q => !qmask.getLsbD q || !sideHolds s p q c)

/-- A replacement of context c's timetable is armed for the tick boundary that opens `tick` (R28). -/
def replacedAt (s : State) (tick c : Nat) : Bool :=
  (look s.sdg (partOfCtx c)).groups.any fun g =>
    decide (g.tick = tick) && decide (g.slice = 0) && outgoing s (partOfCtx c) g.qmask c

/-- Timetables that hold cells: every admitted one, staged ones too (R156). -/
def holding (s : State) : List Nat := ctxsWhere s fun _ => true

/-! ## PLAN_SWAP (R28, R293) -/

/-- Offset intervals of a quadrant that radio partitions own, merged: (start, end, partition). -/
def radioIntervals (len : Nat) (pl : Plan) (quad : Nat) : List (Nat × Nat × Nat) :=
  (List.range pl.starts.length).foldr (fun i acc =>
    let b := look pl.cells (160 * i + quad)
    match ownerOfByte b with
    | some p =>
      if b.getLsbD 6 then
        let a := pl.starts.getD i 0
        let z := sliceEnd len pl.starts i
        match acc with
        | (a', z', p') :: l => if p' = p ∧ a' = z then (a, z', p) :: l else (a, z, p) :: acc
        | [] => [(a, z, p)]
      else acc
    | none => acc) []

/-- Quadrants and partitions that a reservation due at a boundary names. -/
def reservedAt (s : State) (tick : Nat) : List (Nat × Nat) :=
  s.effects.flatMap fun e =>
    match e.effect with
    | .reserve p _ qmask => if e.due = tick then (setBitsOf 160 qmask.toNat).map (·, p) else []
    | _ => []

def quads : List Nat := List.range 160

/-- The first PLAN code that a swap to plan `pl` at `tick` meets, in the order of R28, R73, R182, R293. Log 67,
DEDUCED. -/
def planCode (s : State) (pl : Plan) (tick : Nat) : Nat :=
  let len := tickLen s
  let now := planNow s
  let named := reservedAt s tick
  let keep (l : List (Nat × Nat × Nat)) (q : Nat) := l.filter fun x => decide ((q, x.2.2) ∉ named)
  let n := pl.starts.length
  if (holding s).any (fun c => !cellsFit len pl (partOfCtx c) (ttOf s c).report && !replacedAt s tick c) then 2
  else if planOk len (shadowStarts s) = false then 6
  else if quads.any (fun q => decide (2 < (ownersIn pl.cells n q).length)) then 1
  else if s.libTiles.any (fun kv => decide (kv.2.tiles ≠ 0) && !ownsAll pl kv.2.part kv.1) then 4
  else if quads.any (fun q => (List.range n).any fun i =>
      match ownerOfByte (look pl.cells (160 * i + q)) with
      | some p => !(part s p).radio && decide ((part s p).state ≠ .opened)
      | none => false) then 5
  else if quads.any (fun q => decide (keep (radioIntervals len pl q) q ≠ keep (radioIntervals len now q) q)) then 3
  else 0

/-- The plan a swap at the next boundary would bring, with the reservations due there. -/
def swapPlan (s : State) : Plan :=
  (dueBy s (nextTick s) isReserve).foldl (planEffect s.cellS) { starts := shadowStarts s, cells := s.cellS }

/-- Log 67, DEDUCED. Log 68, DEDUCED. Log 69, DEDUCED. -/
def planSwapBody (h : CmdHdr) (s : State) (i : Nat) : Reply :=
  let c := planCode s (swapPlan s) (nextTick s)
  if c ≠ 0 then refuse s (stPlan c)
  else acceptAt (addEffect s h i (nextTick s) (.planSwap (shadowN s) (shadowStarts s))) (nextTick s) 0

/-- PLAN_SWAP. -/
def execPlanSwap (h : CmdHdr) (s : State) : Out1 :=
  done s (takeCommand s h { opcode := 0x0101, agent := 1, pends := true } true true (planSwapBody h))

/-! ## RADIO_RESERVE (R431) -/

/-- The first refusal of a reservation of p at `tick`, as a PLAN code, or 0. Log 70, DEDUCED. -/
def reserveCode (s : State) (p tick : Nat) (slices : BitVec 16) (qmask : BitVec 160) : Nat :=
  let pl := planAt s tick
  let len := tickLen s
  let n := pl.starts.length
  let qs := setBitsOf 160 qmask.toNat
  let new := reserveCells pl.cells p slices qmask
  let busy (q i o : Nat) : Bool := (ctxsWhere s fun _ => true).any fun c =>
    decide (partOfCtx c = o) && occupiesCell len pl (ttOf s c).report i q
  let lost (q i : Nat) : Bool := (holding s).any fun c =>
    decide (partOfCtx c = p) && occupiesCell len pl (ttOf s c).report i q && !replacedAt s tick c
  if qs.any fun q => (List.range n).any fun i => slices.getLsbD i &&
      match cellOwner pl.cells i q with
      | some o => decide (o ≠ p) && (part s o).radio
      | none => false then 3
  else if qs.any fun q => (List.range n).any fun i => slices.getLsbD i &&
      match cellOwner pl.cells i q with
      | some o => !(part s o).radio && busy q i o
      | none => false then 2
  else if qs.any fun q => (List.range n).any fun i =>
      !slices.getLsbD i && decide (cellOwner pl.cells i q = some p) && lost q i then 2
  else if qs.any fun q => decide (2 < (ownersIn new n q).length) then 1
  else if qs.any fun q => decide ((look s.libTiles q).tiles ≠ 0) &&
      !ownsAll { pl with cells := new } (look s.libTiles q).part q then 4
  else 0

/-- Log 70, DEDUCED. -/
def radioReserveBody (h : CmdHdr) (p : Nat) (slices : BitVec 16) (boundary : Nat) (qmask : BitVec 160)
    (s : State) (i : Nat) : Reply :=
  if (part s p).state ≠ .opened ∨ (part s p).radio = false then refuse s stState
  else if late4096 s boundary then refuseAt s stLate boundary 0
  else
      let b := if boundary = 0 then tickAfter4096 s else boundary
      let c := reserveCode s p b slices qmask
      if c ≠ 0 then refuse s (stPlan c)
      else acceptAt (addEffect s h i b (.reserve p slices qmask)) b 0

/-- RADIO_RESERVE. -/
def execRadioReserve (h : CmdHdr) (part : Nat) (slices : BitVec 16) (boundary : Nat) (qmask : BitVec 160)
    (s : State) : Out1 :=
  done s (takeCommand s h { opcode := 0x0102, agent := 1, pends := true }
    (decide (part < 32) && decide (boundary < 2 ^ 64)) true
    (radioReserveBody h part slices boundary qmask))

end Sys2Proof.Machine
end

