-- ==== Sys2Proof/Machine/Cbor.lean ====
section
/-!
DEFINITION. The encoding of timetable reports (R434): one CBOR item under RFC 8949 in the core
deterministic encoding of its section 4.2.1. Items that no report field takes (negative integers, tags,
floating numbers, indefinite lengths) are rejected where they stand.
-/

namespace Sys2Proof.Machine

/-- A data item. -/
inductive Cbor where
  | nat (n : Nat)
  | bytes (b : List Byte)
  | text (b : List Byte)
  | arr (l : List Cbor)
  | map (l : List (List Byte × Cbor))
  | bool (b : Bool)
  deriving Inhabited

/-- The argument that follows an initial byte, in its shortest form only. -/
def cborArg (info : Nat) (l : List Byte) : Option (Nat × List Byte) :=
  let take (n low : Nat) : Option (Nat × List Byte) :=
    if n ≤ l.length ∧ low ≤ ofBe (l.take n) then some (ofBe (l.take n), l.drop n) else none
  if info < 24 then some (info, l)
  else if info = 24 then take 1 24
  else if info = 25 then take 2 256
  else if info = 26 then take 4 65536
  else if info = 27 then take 8 (2 ^ 32)
  else none

/-- Major type, argument and the bytes after the head of an item. -/
def cborHead : List Byte → Option (Nat × Nat × List Byte)
  | [] => none
  | b :: l => (cborArg (b.toNat % 32) l).map fun ar => (b.toNat / 32, ar.1, ar.2)

/-- n bytes off the front. -/
def splitBytes (n : Nat) (l : List Byte) : Option (List Byte × List Byte) :=
  if n ≤ l.length then some (l.take n, l.drop n) else none

/-- Order of keys in a deterministic map: by their encoded bytes, which is by length first. -/
def keyBefore (a b : List Byte) : Bool :=
  if a.length ≠ b.length then decide (a.length < b.length)
  else decide (ofBe a < ofBe b)

/-- Keys strictly rise. -/
def keysRise : List (List Byte × Cbor) → Bool
  | [] => true
  | [_] => true
  | a :: b :: l => keyBefore a.1 b.1 && keysRise (b :: l)

mutual
/-- One item, and the bytes after it. -/
def cborItem : Nat → List Byte → Option (Cbor × List Byte)
  | 0, _ => none
  | f + 1, l =>
    match cborHead l with
    | some (0, a, r) => some (.nat a, r)
    | some (2, a, r) => (splitBytes a r).map fun x => (.bytes x.1, x.2)
    | some (3, a, r) => (splitBytes a r).map fun x => (.text x.1, x.2)
    | some (4, a, r) => (cborItems f a r).map fun x => (.arr x.1, x.2)
    | some (5, a, r) =>
      match cborPairs f a r with
      | some (kv, r) => if keysRise kv then some (.map kv, r) else none
      | none => none
    | some (7, a, r) => if a = 20 then some (.bool false, r) else if a = 21 then some (.bool true, r) else none
    | _ => none
/-- n items. Log 102, DEDUCED. -/
def cborItems : Nat → Nat → List Byte → Option (List Cbor × List Byte)
  | _, 0, l => some ([], l)
  | 0, _ + 1, _ => none
  | f + 1, n + 1, l =>
    match cborItem f l with
    | some (x, r) => (cborItems f n r).map fun y => (x :: y.1, y.2)
    | none => none
/-- n pairs of a text key and an item. -/
def cborPairs : Nat → Nat → List Byte → Option (List (List Byte × Cbor) × List Byte)
  | _, 0, l => some ([], l)
  | 0, _ + 1, _ => none
  | f + 1, n + 1, l =>
    match cborItem f l with
    | some (.text k, r) =>
      match cborItem f r with
      | some (v, r) => (cborPairs f n r).map fun y => ((k, v) :: y.1, y.2)
      | none => none
    | _ => none
end

/-- The bytes are one well-formed item in the deterministic encoding, and nothing follows it. Log 102, DEDUCED.
-/
def cborDecode (l : List Byte) : Option Cbor :=
  match cborItem (2 * l.length + 2) l with
  | some (x, []) => some x
  | _ => none

/-! ## Reading items -/

/-- The UTF-8 bytes of a name of R151; all its characters are ASCII. -/
def nameBytes (n : String) : List Byte := n.toList.map fun c => BitVec.ofNat 8 c.toNat

def Cbor.asNat (hi : Nat) : Cbor → Option Nat
  | .nat n => if n ≤ hi then some n else none
  | _ => none

def Cbor.asBool : Cbor → Option Bool
  | .bool b => some b
  | _ => none

def Cbor.asBytes (n : Nat) : Cbor → Option (List Byte)
  | .bytes b => if b.length = n then some b else none
  | _ => none

def Cbor.asArr : Cbor → Option (List Cbor)
  | .arr l => some l
  | _ => none

/-- An array whose every element reads as `f` says. -/
def Cbor.listOf {α : Type} (f : Cbor → Option α) : Cbor → Option (List α)
  | .arr l => l.mapM f
  | _ => none

/-- A map with exactly these keys; it answers how to read them. -/
def Cbor.fields (names : List String) : Cbor → Option (List (List Byte × Cbor))
  | .map kv =>
    if kv.length = names.length ∧ names.all (fun n => kv.any fun x => decide (x.1 = nameBytes n)) then some kv
    else none
  | _ => none

/-- The value at a key. -/
def atKey (kv : List (List Byte × Cbor)) (n : String) : Option Cbor :=
  (kv.find? fun x => decide (x.1 = nameBytes n)).map (·.2)

/-- A field read by `f`. -/
def field {α : Type} (kv : List (List Byte × Cbor)) (n : String) (f : Cbor → Option α) : Option α :=
  (atKey kv n).bind f

end Sys2Proof.Machine
end

