-- ==== Sys2Proof/Machine/Report.lean ====
section
/-!
DEFINITION. The timetable report of R151 as R434 encodes it: every section and field, with its type and
range. A report that does not read is refused with BAD_PARAM.
-/

namespace Sys2Proof.Machine

/-- R434 calls many fields an unsigned integer and gives no range. The model holds each to the width its register or
record gives it: offsets and CLOSE_AC below 2^21, PORT at most 255, counts below 2^32, totals below 2^64; a report
beyond them is refused. Log 246, DESIGN CHOICE. -/
def u21 : Nat := 2 ^ 21 - 1
def u32 : Nat := 2 ^ 32 - 1
def u64 : Nat := 2 ^ 64 - 1

/-- A word in the 23-byte layout of R99. -/
def wordOf23 (b : List Byte) : TWord :=
  { payload := BitVec.ofNat 160 (leAt b 0 20)
    kind := BitVec.ofNat 4 (leAt b 20 1)
    queue := BitVec.ofNat 3 (leAt b 20 1 / 16)
    tag := BitVec.ofNat 16 (leAt b 21 2) }

/-- The 23-byte layout of a word. -/
def bytesOf23 (w : TWord) : List Byte :=
  leBytes 20 w.payload.toNat ++ leBytes 1 (w.kind.toNat + 16 * w.queue.toNat) ++ leBytes 2 w.tag.toNat

/-- An HBM stream descriptor from its 48 bytes (R147). -/
def descOf (hub : Nat) (b : List Byte) : HbmDesc :=
  { hub := hub
    valid := bitOf (leAt b 0 4) 0
    write := bitOf (leAt b 0 4) 1
    pc := bits (leAt b 0 4) 15 8
    firstSlot := bits (leAt b 4 4) 18 0
    slotStride := bits (leAt b 8 4) 18 0
    count := bits (leAt b 0xC 4) 18 0
    lineBase := bits (leAt b 0x10 4) 23 0
    lstride0 := signedOf 32 (leAt b 0x14 4)
    lcount0 := bits (leAt b 0x18 4) 23 0
    lstride1 := signedOf 32 (leAt b 0x1C 4)
    queue := BitVec.ofNat 3 (leAt b 0x20 4)
    kind := BitVec.ofNat 4 (bits (leAt b 0x20 4) 6 3)
    tagBase := BitVec.ofNat 16 (bits (leAt b 0x20 4) 31 16)
    tagStep := BitVec.ofNat 16 (leAt b 0x24 2)
    port := leAt b 0x28 1 }

/-! ## Elements of the arrays -/

def readPairs (x : Cbor) : Option (Nat × Nat) := do
  let l ← x.asArr
  match l with
  | [a, b] => return (← a.asNat u64, ← b.asNat u64)
  | _ => none

/-- An interval of offsets, both ends included. -/
def readInterval (x : Cbor) : Option (Nat × Nat) := do
  let (a, b) ← readPairs x
  if a ≤ b ∧ b ≤ u21 then return (a, b) else none

def readCell (x : Cbor) : Option (Nat × List (Nat × Nat)) := do
  let l ← x.asArr
  match l with
  | [q, iv] => return (← q.asNat 159, ← iv.listOf readInterval)
  | _ => none

def readTileUse (x : Cbor) : Option TileUse := do
  let l ← x.asArr
  match l with
  | [d, t, sl, p, f, o] =>
    let u : TileUse := { die := ← d.asNat 39, tile := ← t.asNat 255, slot := ← sl.asNat 7, pers := ← p.asNat 3,
                         firing := ← f.asNat 1, others := ← o.listOf (Cbor.asNat 2047) }
    if kindOfTile u.tile ≠ 0 ∧ (u.slot ≠ 0 ∨ u.pers ≠ 3) then none else return u
  | _ => none

def readStep (x : Cbor) : Option SchedStep := do
  let l ← x.asArr
  match l with
  | [a, n, e, c, g] =>
    return { ac := ← a.asNat u21, len := ← n.asNat u21, entry := ← e.asNat 47, action := ← c.asNat 7,
             arg := ← g.asNat 63 }
  | _ => none

def readSched (x : Cbor) : Option SlotSched := do
  let l ← x.asArr
  match l with
  | [d, t, sl, st] =>
    return { die := ← d.asNat 39, tile := ← t.asNat 255, slot := ← sl.asNat 7, steps := ← st.listOf readStep }
  | _ => none

def readTrips (x : Cbor) : Option (List Nat) := do
  let l ← x.asArr
  match l with
  | [d, t, sl, c, m] => return [← d.asNat 39, ← t.asNat 255, ← sl.asNat 7, ← c.asNat 3, ← m.asNat u64]
  | _ => none

/-- An end of a crossing: an array die with its tile and link, or a hub die with its port. R434 gives no unit for the
network and host dies (40 to 55) that end a crossing of kind 6: any unit, link 0. Log 245, DESIGN CHOICE. -/
def readEnd (x : Cbor) : Option PortRef := do
  let l ← x.asArr
  match l with
  | [d, n, k] =>
    let r : PortRef := { die := ← d.asNat 63, unit := ← n.asNat 255, link := ← k.asNat 4 }
    if r.die < 40 ∨ r.link = 0 then return r else none
  | _ => none

def readCrossing (x : Cbor) : Option Crossing := do
  let l ← x.asArr
  match l with
  | [a, k, p, q, n] =>
    let k ← k.asNat 6
    if k = 0 then none
    else return { ac := ← a.asNat u21, kind := k, snd := ← readEnd p, rcv := ← readEnd q, lat := ← n.asNat u21 }
  | _ => none

def readTag (x : Cbor) : Option (Nat × Nat × Nat) := do
  let l ← x.asArr
  match l with
  | [t, c, f] => return (← t.asNat 65535, ← c.asNat u21, ← f.asNat u21)
  | _ => none

def readTagSched (x : Cbor) : Option TagSched := do
  let l ← x.asArr
  match l with
  | [d, t, sl, g] =>
    return { die := ← d.asNat 39, tile := ← t.asNat 255, slot := ← sl.asNat 7, tags := ← g.listOf readTag }
  | _ => none

def readTrunkWord (x : Cbor) : Option TrunkWordUse := do
  let l ← x.asArr
  match l with
  | [p, i, j, a, z, f, n] =>
    return { port := ← p.asNat 39, slot := ← i.asNat u21, word := ← j.asNat 3, earliest := ← a.asNat u21,
             latest := ← z.asNat u21, peer := ← f.asNat 0x3FFFF, latFix := ← n.asNat u32 }
  | _ => none

def readDesc (x : Cbor) : Option HbmDesc := do
  let l ← x.asArr
  match l with
  | [h, b] => return descOf (← h.asNat 7) (← b.asBytes 48)
  | _ => none

/-- FIELD_ID, FORMAT and WORDS in the ranges of R255. -/
def readFieldMap (x : Cbor) : Option (Nat × Nat × Nat) := do
  let l ← x.asArr
  match l with
  | [i, f, w] =>
    let n ← w.asNat 4095
    if n = 0 then none else return (← i.asNat 255, ← f.asNat 9, n)
  | _ => none

def readTriple (hi : Nat) (x : Cbor) : Option (Nat × Nat × Nat) := do
  let l ← x.asArr
  match l with
  | [d, i, m] => return (← d.asNat 63, ← i.asNat hi, ← m.asNat u32)
  | _ => none

def readSlotUse (x : Cbor) : Option (Nat × Nat) := do
  let l ← x.asArr
  match l with
  | [p, n] => return (← p.asNat 255, ← n.asNat u32)
  | _ => none

/-! ## Sections -/

def portNames : List String := ["HUB", "PORT", "E0", "II", "F", "D", "FIELDS"]

def readPort (exit : Bool) (x : Cbor) : Option PortUse := do
  let kv ← x.fields (if exit then "OFFSETS" :: portNames else portNames)
  let off ← if exit then field kv "OFFSETS" (Cbor.listOf (Cbor.asNat u21)) else some []
  return {
    hub := ← field kv "HUB" (Cbor.asNat 7)
    port := ← field kv "PORT" (Cbor.asNat 255)
    e0 := ← field kv "E0" (Cbor.asNat u21)
    ii := ← field kv "II" (Cbor.asNat u21)
    f := ← field kv "F" (Cbor.asNat u32)
    d := ← field kv "D" (Cbor.asNat u21)
    fields := ← field kv "FIELDS" (Cbor.listOf readFieldMap)
    offsets := off }

def readHeader (r : Report) (x : Cbor) : Option Report := do
  let kv ← x.fields ["FORMAT_VERSION", "KREAL_VERSION", "TIMETABLE_DIGEST", "MODEL_DIGEST", "CLASS", "MODE",
    "EXACT_REDUCTION", "STATELESS", "PERIOD", "MAP_DIGEST", "ARITH_ID", "CHIPS", "MEMBER"]
  let v ← field kv "FORMAT_VERSION" (Cbor.asNat 1)
  let cls ← field kv "CLASS" (Cbor.asNat 1)
  let mode ← field kv "MODE" (Cbor.asNat 1)
  let less ← field kv "STATELESS" Cbor.asBool
  let chips ← field kv "CHIPS" (Cbor.asNat 64)
  let member ← field kv "MEMBER" (Cbor.asNat 63)
  if v ≠ 1 ∨ chips = 0 ∨ chips ≤ member ∨ (mode = 1 ∧ less) then none
  else return { r with
    kreal := ← field kv "KREAL_VERSION" (Cbor.asNat u32)
    digest := ← field kv "TIMETABLE_DIGEST" (Cbor.asBytes 48)
    model := ← field kv "MODEL_DIGEST" (Cbor.asBytes 48)
    radio := decide (cls = 0)
    standing := decide (mode = 0)
    exactRed := ← field kv "EXACT_REDUCTION" Cbor.asBool
    stateless := less
    period := ← field kv "PERIOD" (Cbor.asNat 4)
    mapDigest := ← field kv "MAP_DIGEST" (Cbor.asBytes 48)
    arithId := ← field kv "ARITH_ID" (Cbor.asNat u32)
    chips := chips
    member := member }

def readOccupancy (r : Report) (x : Cbor) : Option Report := do
  let kv ← x.fields ["CELLS", "TILES"]
  return { r with
    cells := ← field kv "CELLS" (Cbor.listOf readCell)
    tiles := ← field kv "TILES" (Cbor.listOf readTileUse) }

def readFiring (r : Report) (x : Cbor) : Option Report := do
  let kv ← x.fields ["SCHEDULE", "SCHED_TOTAL", "MAX_TRIPS"]
  return { r with
    schedule := ← field kv "SCHEDULE" (Cbor.listOf readSched)
    schedTotal := ← field kv "SCHED_TOTAL" (Cbor.asNat u64)
    maxTrips := ← field kv "MAX_TRIPS" (Cbor.listOf readTrips) }

/-- TRUNK_WORDS: an empty map when CHIPS is 1. -/
def readTrunk (r : Report) (x : Cbor) : Option Report := do
  let kv ← x.fields ["TRUNK_WORDS"]
  let t ← atKey kv "TRUNK_WORDS"
  if r.chips = 1 then
    let _ ← t.fields []
    return r
  else
    let kv ← t.fields ["JOB_ID", "MEMBERS", "BRAKE_LEAD", "WORDS"]
    let ms ← field kv "MEMBERS" (Cbor.listOf (Cbor.asNat 0x3FFFF))
    if ms.length ≠ r.chips then none
    else return { r with
      jobId := BitVec.ofNat 64 (← field kv "JOB_ID" (Cbor.asNat u64))
      members := ms
      brakeLead := ← field kv "BRAKE_LEAD" (Cbor.asNat u32)
      trunkWords := ← field kv "WORDS" (Cbor.listOf readTrunkWord) }

def readHbm (r : Report) (x : Cbor) : Option Report := do
  let kv ← x.fields ["DESCRIPTORS", "SLOT_USE"]
  return { r with
    descs := ← field kv "DESCRIPTORS" (Cbor.listOf readDesc)
    slotUse := ← field kv "SLOT_USE" (Cbor.listOf readSlotUse) }

def readQueues (r : Report) (x : Cbor) : Option Report := do
  let kv ← x.fields ["ENTRY", "EXIT", "FILL"]
  let e ← field kv "ENTRY" (readPort false)
  let fill ← field kv "FILL" (Cbor.listOf (Cbor.asBytes 23))
  if fill.length ≠ e.f then none
  else return { r with entry := e, exit := ← field kv "EXIT" (readPort true), fill := fill.map wordOf23 }

/-- The report, or none where TT_ADMIT and LIB_INSTALL refuse it with BAD_PARAM (R434). Log 102, DEDUCED. Log
103, DEDUCED. -/
def readReport (b : List Byte) : Option Report := do
  let x ← cborDecode b
  let kv ← x.fields ["Header", "Occupancy", "Firing", "Routes", "Tags", "Trunk", "HBM", "Queues", "Close", "Power"]
  let r ← field kv "Header" (readHeader {})
  let r ← field kv "Occupancy" (readOccupancy r)
  let r ← field kv "Firing" (readFiring r)
  let routes ← field kv "Routes" (Cbor.fields ["CROSSINGS"])
  let tags ← field kv "Tags" (Cbor.fields ["TAG_SCHEDULE"])
  let r ← field kv "Trunk" (readTrunk r)
  let r ← field kv "HBM" (readHbm r)
  let r ← field kv "Queues" (readQueues r)
  let close ← field kv "Close" (Cbor.fields ["CLOSE_AC"])
  let power ← field kv "Power" (Cbor.fields ["ACTIVITY"])
  return { r with
    crossings := ← field routes "CROSSINGS" (Cbor.listOf readCrossing)
    tagSched := ← field tags "TAG_SCHEDULE" (Cbor.listOf readTagSched)
    closeAc := ← field close "CLOSE_AC" (Cbor.asNat u21)
    activity := ← field power "ACTIVITY" (Cbor.listOf (readTriple 15)) }

end Sys2Proof.Machine
end

