-- ==== Sys2Proof/Machine/Admission.lean ====
section
/-!
DEFINITION. Admission (R155): the disabled-unit map (R58), where in the image each item lies (R152), the
thirteen rows in their order, the boundary of the first pass (R173, R176), and what an admission leaves in
the State (R156, R173).
-/

namespace Sys2Proof.Machine

/-! ## The disabled-unit map (R58) -/

/-- Disabled tiles of a die, rising. -/
def disabledOf (s : State) (d : Nat) : List Nat :=
  (sortBy (fun a b => decide (a ≤ b)) ((s.disabled.filter fun k => decide (k / 256 = d)).map (· % 256))).take 8

/-- DIE_MAP, 656 bytes. -/
def mapImage (s : State) : List Byte :=
  leBytes 2 1 ++ leBytes 2 ((List.range 40).map fun d => (disabledOf s d).length).sum ++ leBytes 4 0 ++
    leBytes 8 s.retired.toNat ++
    (List.range 40).flatMap fun d =>
      let l := disabledOf s d
      l.flatMap (fun t => leBytes 2 (0x8000 + t)) ++ List.replicate (16 - 2 * l.length) 0

/-- DIE_MAP_DIGEST. -/
def mapDigest (s : State) : List Byte := sha384 (mapImage s)

/-- DIE_HOLE of a quadrant (R59). -/
def holeMask (s : State) (quad : Nat) : Nat :=
  (List.range 256).foldl (fun acc t =>
    let k := 256 * (quad / 4) + t
    if quadOfTile k = quad ∧ tileDead s k then acc ||| 2 ^ localIndex t else acc) 0

/-! ## Items of an image (R152) -/

/-- Bytes that a TILES item takes in the image. The spec does not say how much of a memory or edge tile's set is
an entry; the model takes the whole set. Log 105, DESIGN CHOICE. -/
def itemSize (u : TileUse) : Nat :=
  match kindOfTile u.tile with
  | 0 => 2048
  | 1 => 768
  | _ => 512

/-- The items of a timetable with their places in the image. Log 105, DESIGN CHOICE. -/
def imageItems (l : List TileUse) (off : Nat) : List (TileUse × Nat) :=
  match l with
  | [] => []
  | u :: l => (u, off) :: imageItems l (off + itemSize u)

def itemsLength (r : Report) : Nat := (r.tiles.map itemSize).sum

/-- Queue bindings, which end the image. Log 104, DESIGN CHOICE. -/
def bindingsOf (r : Report) (image : List Byte) : Option Nat × Option Nat × Option Nat :=
  Config.queueBindings (image.drop (itemsLength r + 48 * r.descs.length))

/-- The report with the stream descriptors that the part loads, which are those of the image: by hub die and
pseudo-channel (R152). A hub die holds the descriptors of its own stack (R147). Log 247, DEDUCED. -/
def asLoaded (r : Report) (image : List Byte) : Report :=
  { r with descs := (List.range r.descs.length).map fun i =>
      let b := slice image (itemsLength r + 48 * i) 48
      descOf (bits (leAt b 0 4) 15 13) b }

/-- A set as a table with the bytes of an item written at its place. Log 105, DESIGN CHOICE. -/
def writeItem (set : Table Byte) (u : TileUse) (bytes : List Byte) : Table Byte :=
  writeBytes set (if kindOfTile u.tile = 0 then slotBase u.slot else 0) (slice bytes 0 (itemSize u))

/-- The item as a slot image on its own. -/
def itemSlot (u : TileUse) (bytes : List Byte) : Table Byte × SlotImg :=
  let t := writeItem [] u bytes
  (t, slotImg t (if kindOfTile u.tile = 0 then u.slot else 0))

/-! ## Row 7: slots -/

/-- Source codes of a switch entry by kind of tile (R70). -/
def switchOk (kind sw : Nat) : Bool :=
  let src := [bits sw 2 0, bits sw 5 3, bits sw 8 6, bits sw 11 9, bits sw 14 12]
  (kind = 2 || !src.contains 6) && (kind = 1 || !src.contains 7) &&
    (kind ≠ 2 || (bits sw 20 16 = 0 && !src.contains 5))

/-- PARAM holds no reserved value and no non-zero reserved bit (R108, R109). -/
def paramOk (t : Table Byte) (sl : SlotImg) : Bool :=
  let b := slotBase sl.ix + 0x20
  if 2 ≤ sl.pers then leTab t b 32 = 0
  else
    bitOf (leTab t b 1) 7 = false && bitOf (leTab t (b + 1) 1) 3 = false && leTab t (b + 2) 2 / 1024 = 0 &&
      leTab t (b + 6) 1 / 32 = 0 && leTab t (b + 7) 1 / 32 = 0 && leTab t (b + 0xC) 20 = 0 &&
      sl.cshift ≤ 16 && sl.cout ≤ 16 && sl.ascale % 4 = 0 && sl.outFmt ≤ 3

/-- Special-function codes that the slot's FIRE and FIRE_IF entries name. -/
def firedCodes (t : Table Byte) (sl : SlotImg) : List Nat :=
  (List.range 48).filterMap fun pos =>
    let e := seqEntry t sl.ix pos
    if e.action = 1 ∨ e.action = 2 then
      some (bits (leTab t (slotBase sl.ix + 0x200 + 32 * e.arg) 1) 3 0)
    else none

/-- Input format and OUT_FMT of a special-function code (R88, R108). -/
def sfFormatOk (sl : SlotImg) (c : Nat) : Bool :=
  if c ≤ 7 then (sl.format = 8 && sl.outFmt = 0) || (sl.format = 7 && sl.outFmt = 1)
  else if c = 8 ∨ c = 10 then sl.format = 9 && sl.outFmt = 3
  else c = 9 && sl.format = 5 && sl.outFmt = 0

/-- A slot may be admitted by itself (R77, R79, R85, R109). -/
def slotAlone (t : Table Byte) (sl : SlotImg) : Bool :=
  sl.format ≤ 9 && 256 ≤ sl.lsLen && sl.lsBase + sl.lsLen ≤ 65536 && paramOk t sl &&
    (!sl.exact || (sl.accMask = 0xF && sl.format ≠ 8 && sl.format ≠ 9)) &&
    (2 ≤ sl.pers ||
      (!((sl.ascEn || sl.wscEn) && decide (7 ≤ sl.format)) && (!sl.mergeEn || sl.exact))) &&
    (2 ≤ sl.pers ||
      (decide (sl.outFmt = 3) == decide (sl.format = 9) &&
        !(sl.outFmt = 2 && !sl.exact && decide (sl.format ∈ [0, 1, 2, 3, 4, 7, 8])))) &&
    (sl.pers ≠ 1 || (sl.round = 0 && (firedCodes t sl).all (sfFormatOk sl)))

/-- Resources of slots of different contexts are disjoint (R79). -/
def slotsApart (a b : SlotImg) : Bool :=
  (a.lsBase + a.lsLen ≤ b.lsBase || b.lsBase + b.lsLen ≤ a.lsBase) && a.qmask &&& b.qmask = 0 &&
    a.accMask &&& b.accMask = 0

/-- Array dies on which the timetable has tiles. -/
def diesOf (r : Report) : List Nat := (r.tiles.map (·.die)).eraseDups

/-- Firing discipline by the dies a timetable spans (R84). -/
def disciplineOk (r : Report) (kind : Nat) (sl : SlotImg) : Bool :=
  if kind ≠ 0 then !sl.tagFiring else sl.tagFiring == decide (1 < (diesOf r).length)

/-- Another admitted timetable of the partition holds the same slot or set (R73). -/
def heldByOther (s : State) (c : Nat) (gone : List Nat) (u : TileUse) : Bool :=
  (ctxsWhere s fun _ => true).any fun c' =>
    decide (c' ≠ c) && decide (c' ∉ gone) && decide (partOfCtx c' = partOfCtx c) &&
      (ttOf s c').report.tiles.any fun v => decide (v.die = u.die ∧ v.tile = u.tile) &&
        (decide (kindOfTile u.tile ≠ 0) || decide (v.slot = u.slot))

/-- VALID slots of other contexts' admitted timetables in the partition's sets of a tile: those in the Mainline, and
those staged in the Siding. -/
def otherSlots (s : State) (c : Nat) (gone : List Nat) (k : Nat) : List SlotImg :=
  let t := tileOf s k
  ([mainSet t (partOfCtx c), sideSet t (partOfCtx c)].flatMap fun m => (List.range 8).filterMap fun ix =>
    let sl := slotImg m ix
    if sl.valid ∧ sl.ctx ≠ c ∧ sl.ctx ∉ gone ∧ (ttOf s sl.ctx).state ≠ .none then some sl else none).eraseDups

/-- Core slots that the timetable's own items put into a tile's set. -/
def ownCores (r : Report) (image : List Byte) (u : TileUse) : Nat :=
  ((imageItems r.tiles 0).filter fun v =>
    decide (v.1.die = u.die ∧ v.1.tile = u.tile) && decide ((itemSlot v.1 (image.drop v.2)).2.pers = 2)).length

/-- Row 7 for one item. -/
def itemOk (s : State) (c : Nat) (gone : List Nat) (r : Report) (image : List Byte) (uo : TileUse × Nat) : Bool :=
  let u := uo.1
  let kind := kindOfTile u.tile
  let k := tileKey u.die u.tile
  let (t, sl) := itemSlot u (image.drop uo.2)
  let others := otherSlots s c gone k
  !heldByOther s c gone u &&
    (List.range 64).all (fun i => switchOk kind (leTab t (slotBase sl.ix + 0x40 + 4 * i) 4)) &&
    disciplineOk r kind sl &&
    (kind ≠ 0 || (slotAlone t sl && others.all (slotsApart sl) &&
      (sl.pers ≠ 2 || (others.filter fun o => decide (o.pers = 2)).length + ownCores r image u ≤ 2)))

/-- Digests of the admitted radio timetables, those of `gone` left out. -/
def radioDigests (s : State) (gone : List Nat) : List (List Byte) :=
  ((ctxsWhere s fun t => t.report.radio).filter fun c => decide (c ∉ gone)).map fun c => (ttOf s c).report.digest

/-- FEC_LOAD of a network die (R289): bits per tick of the admitted radio timetables. Log 229, DESIGN CHOICE. -/
def fecLoads (l : List (List Byte)) (die : Nat) (encode : Bool) : Nat :=
  (l.map fun d => (Config.fecLoad die encode d).toNat).sum

/-- FEC_CEIL_DEC, 50 Gb/s × the tick period; FEC_CEIL_ENC is twice that (R282). -/
def decCeiling (s : State) : Nat := 50 * periodNs (periodCode s)

/-- The FEC engines hold a radio timetable beside those admitted (R282): at most 12 jobs in 128 ac and the loads under
their ceilings, on every network die. Log 108, DEDUCED. -/
def fecFits (s : State) (gone : List Nat) (r : Report) : Bool :=
  let l := r.digest :: radioDigests s gone
  (List.range 8).all fun die => decide (Config.fecPeak die l ≤ 12) && decide (fecLoads l die false ≤ decCeiling s) &&
    decide (fecLoads l die true ≤ 2 * decCeiling s)

/-- Log 108, DEDUCED. -/
def row7 (s : State) (c : Nat) (gone : List Nat) (r : Report) (image : List Byte) : Bool :=
  (imageItems r.tiles 0).all (itemOk s c gone r image) && (!r.radio || fecFits s gone r)

/-! ## Rows 5, 6 and 8 to 13 -/

/-- The tile serves the library of its quadrant (R182). Log 106, DEDUCED. -/
def isLibTile (s : State) (k : Nat) : Bool :=
  let mems := (List.range 256).filter fun t => decide (kindOfTile t = 1 ∧ quadOfTile t = quadOfTile (k % 256))
  let sorted := sortBy (fun a b => decide (localIndex a ≤ localIndex b)) mems
  decide (kindOfTile (k % 256) = 1) &&
    bitOf (look s.libTiles (quadOfTile k)).tiles.toNat (sorted.idxOf (k % 256))

/-- Row 6, and the tiles a timetable may not use because a library lies in them (R59, R182). Log 106, DEDUCED.
-/
def row6 (s : State) (r : Report) : Bool :=
  let ends := r.crossings.flatMap fun x => [x.snd, x.rcv]
  let keys := r.tiles.map (fun u => tileKey u.die u.tile) ++
    (ends.filter fun e => decide (e.die < 40)).map fun e => tileKey e.die e.unit
  keys.all fun k => !tileDead s k && !isLibTile s k

/-- Slots of a descriptor. -/
def slotsOf (d : HbmDesc) : List Nat := (List.range d.count).map (descSlot d)

/-- Slot j overlaps a beat of the pseudo-channel (R29, R145). Log 110, DEDUCED. -/
def slotInBeat (len pc j : Nat) : Bool :=
  (List.range 3).any fun i =>
    let a := 3 * j + i
    decide (beatPhase pc ≤ a) && decide ((a - beatPhase pc) % 5856 < 128) &&
      decide (a - (a - beatPhase pc) % 5856 + 128 ≤ len)

/-- Slots allotted on a pseudo-channel to admitted timetables other than those of a list. Log 110, DEDUCED. -/
def allotted (s : State) (gone : List Nat) (pc : Nat) : List Nat :=
  ((ctxsWhere s fun _ => true).filter fun c => decide (c ∉ gone)).flatMap fun c =>
    ((ttOf s c).report.descs.filter fun d => d.valid && decide (d.pc = pc)).flatMap slotsOf

/-- Descriptors a hub die would hold on a pseudo-channel in the set. -/
def descCount (s : State) (gone : List Nat) (r : Report) (p pc : Nat) : Nat :=
  let here (x : Report) := (x.descs.filter fun d => d.valid && decide (d.pc = pc)).length
  here r + (((ctxsWhere s fun _ => true).filter fun c => decide (c ∉ gone ∧ partOfCtx c = p)).map fun c =>
    here (ttOf s c).report).sum

/-- Row 8. Log 110, DEDUCED. -/
def row8 (s : State) (p : Nat) (gone : List Nat) (r : Report) : Bool :=
  let len := tickLen s
  let ds := r.descs.filter (·.valid)
  ds.all (fun d =>
    decide ((pcOf s d.pc).owner = .partition ∧ (pcOf s d.pc).part = p) &&
      decide (descCount s gone r p d.pc ≤ 64) &&
      (slotsOf d).all fun j => decide (3 * j + 3 ≤ len) && !slotInBeat len d.pc j && decide (j % 16 ≠ 15) &&
        decide (j ∉ allotted s gone d.pc)) &&
  (ds.map (·.pc)).eraseDups.all fun pc =>
    ((ds.filter fun d => decide (d.pc = pc)).flatMap slotsOf).Nodup

/-- Partition that owns an array end at an offset, under a plan. -/
def endOwner (len : Nat) (pl : Plan) (e : PortRef) (off : Nat) : Option Nat :=
  ((List.range pl.starts.length).find? fun i =>
    decide (pl.starts.getD i 0 ≤ off) && decide (off < sliceEnd len pl.starts i)).bind fun i =>
      cellOwner pl.cells i (quadOfTile (tileKey e.die e.unit))

/-- Die, unit, link, direction (1 out of the die or into a hub port's link, 0 in) and ac of one word's place in a
port. -/
abbrev PortCycle := Nat × Nat × Nat × Nat × Nat

/-- Port cycles of a crossing: at its sender and its receiver. The switch of a hub die takes words from in sides and
gives them to out sides. Log 107, DEDUCED. -/
def crossingCycles (x : Crossing) : List PortCycle :=
  let side (out : Nat) := if x.kind = 4 then 1 - out else out
  [(x.snd.die, x.snd.unit, x.snd.link, side 1, x.ac),
   (x.rcv.die, x.rcv.unit, x.rcv.link, side 0, x.ac + crossingLat x.kind)]

/-- Entry offsets of a report in a tick (R149). -/
def entryOffsets (len : Nat) (r : Report) : List Nat :=
  let n := if len ≤ r.entry.e0 + r.entry.d then 0 else (len - r.entry.d - r.entry.e0 + r.entry.ii - 1) / max r.entry.ii 1
  (List.range n).map fun k => r.entry.e0 + k * r.entry.ii

/-- Port cycles of entries and exits (R149). -/
def entryCycles (len : Nat) (r : Report) : List PortCycle :=
  (entryOffsets len r).flatMap fun e =>
    (List.range r.entry.f).map (fun i => (56 + r.entry.hub, r.entry.port, 0, 1, e + i)) ++
      r.exit.offsets.map fun o => (56 + r.exit.hub, r.exit.port, 0, 0, e + o)

/-- Port cycles of the HBM slots (R148). -/
def slotCycles (r : Report) : List PortCycle :=
  (r.descs.filter (·.valid)).flatMap fun d => (List.range d.count).flatMap fun n => (List.range 3).map fun k =>
    (56 + d.hub, d.port, 0, if d.write then 0 else 1, 3 * descSlot d n + (if d.write then 0 else 192) + k)

/-- Every port cycle of a timetable. -/
def cyclesOf (len : Nat) (r : Report) : List PortCycle :=
  r.crossings.flatMap crossingCycles ++ slotCycles r ++ entryCycles len r

/-- Slice of a plan that holds an offset. -/
def sliceIn (len : Nat) (pl : Plan) (off : Nat) : Option Nat :=
  (List.range pl.starts.length).find? fun i =>
    decide (pl.starts.getD i 0 ≤ off) && decide (off < sliceEnd len pl.starts i)

/-- A hub-switch port is not in another partition's use in the slice of an offset: a port belongs in each slice to
the partition whose admitted timetables use it there. Log 107, DEDUCED. -/
def hubPortFree (s : State) (pl : Plan) (p : Nat) (gone : List Nat) (e : PortRef) (off : Nat) : Bool :=
  let len := tickLen s
  (ctxsWhere s fun _ => true).all fun c' => decide (partOfCtx c' = p) || decide (c' ∈ gone) ||
    (cyclesOf len (ttOf s c').report).all fun y =>
      decide (¬(y.1 = e.die ∧ y.2.1 = e.unit)) || decide (sliceIn len pl y.2.2.2.2 ≠ sliceIn len pl off)

/-- An end of a crossing belongs to the partition in its slice (R50). -/
def endOwned (s : State) (pl : Plan) (p : Nat) (gone : List Nat) (e : PortRef) (off : Nat) : Bool :=
  if e.die < 40 then decide (endOwner (tickLen s) pl e off = some p)
  else if 56 ≤ e.die then hubPortFree s pl p gone e off
  else true

/-- A crossing joins two ports that R46 joins, at the latency of R47, and that belong to the partition in the slices
it takes place in (R50). Log 107, DEDUCED. -/
def crossingOwned (s : State) (pl : Plan) (p : Nat) (gone : List Nat) (x : Crossing) : Bool :=
  crossingFits x && endOwned s pl p gone x.snd x.ac && endOwned s pl p gone x.rcv (x.ac + crossingLat x.kind)

/-- No port cycle of a list is allotted to another admitted timetable (R48). -/
def cyclesFree (s : State) (c : Nat) (gone : List Nat) (mine : List PortCycle) : Bool :=
  (ctxsWhere s fun _ => true).all fun c' => decide (c' = c ∨ c' ∈ gone) ||
    (cyclesOf (tickLen s) (ttOf s c').report).all fun y => decide (y ∉ mine)

/-- LAT_FIX of a trunk port (R366). -/
def latFix (s : State) (port : Nat) : Nat := bits (reg s (bTrk + 0x1000 + 0x100 * port)) 28 16

/-- Trunk words of a report (R353). -/
def trunkOk (s : State) (gone : List Nat) (c : Nat) (r : Report) : Bool :=
  r.trunkWords = [] || (!r.radio && r.trunkWords.all fun w =>
    let tp := look s.trunk w.port
    decide (tp.state = .up) && decide (latFix s w.port = w.latFix) && decide (tp.peerId = w.peer) &&
      decide (w.slot % 16 ≠ 15) &&
      ((ctxsWhere s fun _ => true).all fun c' => decide (c' = c ∨ c' ∈ gone) ||
        (ttOf s c').report.trunkWords.all fun v => decide (¬(v.port = w.port ∧ v.slot = w.slot))))

/-- Row 9. Log 107, DEDUCED. -/
def row9 (s : State) (pl : Plan) (c : Nat) (gone : List Nat) (r : Report) : Bool :=
  r.crossings.all (crossingOwned s pl (partOfCtx c) gone) &&
    cyclesFree s c gone (r.crossings.flatMap crossingCycles ++ slotCycles r) && trunkOk s gone c r

/-- A queue of a kind that belongs to a function, where one is named. Log 104, DESIGN CHOICE. -/
def bindingOk (s : State) (f kind : Nat) : Option Nat → Bool
  | none => true
  | some q => decide ((queueOf s q).kind = kind ∧ (queueOf s q).func = f)

/-- Hub dies of the carriers of a radio partition (R278). -/
def carrierHubs (s : State) (p : Nat) : List Nat :=
  ((s.carriers.filter fun kv => kv.2.valid && decide (kv.2.part = p)).map fun kv => kv.2.port / 2).eraseDups

/-- FEC ports that a radio timetable's crossings name lie on the hub die of its carriers (R278). -/
def fecPortsOn (r : Report) (hub : Nat) : Bool :=
  r.crossings.all fun x => [x.snd, x.rcv].all fun e =>
    decide (e.die < 56) || decide (e.die - 56 = hub) ||
      (List.range 8).all fun p => decide (e.unit ≠ Config.fecPort (e.die - 56) p 0 ∧ e.unit ≠ Config.fecPort (e.die - 56) p 1)

/-- Row 10. -/
def row10 (s : State) (c : Nat) (gone : List Nat) (r : Report) (image : List Byte) : Bool :=
  let f := funcOfCtx s c
  let (eq, xq, cq) := bindingsOf r image
  bindingOk s f 5 eq && bindingOk s f 6 xq && bindingOk s f 7 cq &&
    cyclesFree s c gone (entryCycles (tickLen s) r) &&
    (!r.radio || (carrierHubs s (partOfCtx c)).all fun h =>
      decide (h = r.entry.hub ∧ h = r.exit.hub) && fecPortsOn r h)

/-- Occupancy of a timetable in quadrant-ac (R306). -/
def occupancyOf (len : Nat) (r : Report) : Nat :=
  if r.standing then len * r.cells.length
  else (r.cells.map fun qc => (qc.2.map fun iv => iv.2 + 1 - iv.1).sum).sum

/-- A resume of context c is accepted and still to come. Log 109, DEDUCED. -/
def resumePending (s : State) (c : Nat) : Bool :=
  s.effects.any fun e => match e.effect with
    | .resume c' => decide (c' = c)
    | _ => false

/-- The timetable counts toward tick share (R306, R314): running, staged, or about to resume. Log 109, DEDUCED.
-/
def countsTick (s : State) (c : Nat) : Bool :=
  decide ((ttOf s c).state = .running) || decide ((ttOf s c).state = .staged) ||
    decide ((ttOf s c).state = .withdrawing) || resumePending s c

/-- Use of the tick-share quota of a function. Log 109, DEDUCED. -/
def useTick (s : State) (f : Nat) (gone : List Nat) : Nat :=
  (((ctxsWhere s fun _ => true).filter fun c =>
    decide (funcOfCtx s c = f) && decide (c ∉ gone) && countsTick s c).map fun c =>
      occupancyOf (tickLen s) (ttOf s c).report).sum

/-- Row 11. Log 109, DEDUCED. -/
def row11 (s : State) (c : Nat) (gone : List Nat) (r : Report) : Bool :=
  let f := funcOfCtx s c
  f = 0 || useTick s f (c :: gone) + occupancyOf (tickLen s) r ≤ (vfOf s f).qTick.toNat

/-- Limit of a die in mW (R62, R64). -/
def powerLimit (s : State) (die : Nat) : Nat :=
  reg s (bDie + 0xC00 + 4 * (if die < 40 then 0 else if die < 48 then 1 else if die < 56 then 2 else 3))

/-- Estimated draw of a die in a slice with one more report (R63). -/
def drawOf (s : State) (c : Nat) (gone : List Nat) (r : Report) (die slice : Nat) : Nat :=
  let here (x : Report) := ((x.activity.filter fun a => decide (a.1 = die ∧ a.2.1 = slice)).map (·.2.2)).sum
  here r + (((ctxsWhere s fun _ => true).filter fun c' => decide (c' ≠ c ∧ c' ∉ gone)).map fun c' =>
    here (ttOf s c').report).sum

/-- Row 12: no die's estimate is over its limit in any slice (R63); a radio timetable is not held to it. -/
def row12 (s : State) (c : Nat) (gone : List Nat) (r : Report) : Bool :=
  r.radio || (List.range 64).all fun die => (List.range 16).all fun sl =>
    decide (drawOf s c gone r die sl ≤ powerLimit s die)

/-- Admitted members of a load-balancing group of a function. -/
def groupMembers (s : State) (f g : Nat) (gone : List Nat) : List Nat :=
  (ctxsWhere s fun t => decide (t.group = g)).filter fun c => decide (funcOfCtx s c = f ∧ c ∉ gone)

/-- Row 13 (R160, R161). -/
def row13 (s : State) (c g : Nat) (gone : List Nat) (r : Report) : Bool :=
  g = 0 || (!r.radio && r.standing && r.stateless &&
    let ms := groupMembers s (funcOfCtx s c) g (c :: gone)
    decide (ms.length < 8) && ms.all fun c' => decide ((ttOf s c').report.model = r.model))

/-- A timetable to be admitted: its context, group, report and image, the tick its first pass falls in, and
the contexts whose timetables it replaces. -/
structure Candidate where
  ctx : Nat
  group : Nat := 0
  report : Report
  image : List Byte
  tick : Nat
  gone : List Nat := []

/-- Condition of a row of R155. -/
def rowHolds (s : State) (x : Candidate) (row : Nat) : Bool :=
  let r := x.report
  let c := x.ctx
  let p := partOfCtx c
  let pl := planAt s x.tick
  match row with
  | 1 => tickLocked s && (r.radio || decide (s.level = .full)) && decide (s.level ≠ .beacon)
  | 2 => decide ((part s p).state = .opened) && decide ((ctxOf s c).state = .ready ∨
      ((ctxOf s c).state = .active ∧ c ∈ x.gone)) && ((part s p).radio == r.radio)
  | 3 => decide (r.period = periodCode s) && decide (r.mapDigest = mapDigest s) &&
      decide (r.arithId = reg s (bAri + 0x20))
  | 4 => decide (sha384 x.image = r.digest)
  | 5 => cellsFit (tickLen s) pl p r
  | 6 => row6 s r
  | 7 => row7 s c x.gone r x.image
  | 8 => row8 s p x.gone r
  | 9 => row9 s pl c x.gone r
  | 10 => row10 s c x.gone r x.image
  | 11 => row11 s c x.gone r
  | 12 => row12 s c x.gone r
  | 13 => row13 s c x.group x.gone r
  | _ => true

/-- The first row of a list that fails. -/
def failedRow (s : State) (x : Candidate) (rows : List Nat) : Option Nat :=
  rows.find? fun r => !rowHolds s x r

/-! ## Boundaries of swaps (R175, R176) -/

/-- Offsets from the start of the current tick of the boundaries of `n` further ticks: ticks ahead, slice
and offset; slice 0 is the tick boundary. -/
def boundariesAhead (s : State) (n : Nat) : List (Nat × Nat × Nat) :=
  let st := activeStarts s
  (List.range (n + 1)).flatMap fun d => (List.range st.length).filterMap fun i =>
    if d = 0 ∧ i = 0 then none else some (d, i, d * tickLen s + st.getD i 0)

/-- Slice boundary i is eligible for a tenant swap of a group that adds the given reports (R176). -/
def sliceEligible (s : State) (p : Nat) (qmask : BitVec 160) (adds : List Report) (start : Nat) : Bool :=
  !(part s p).radio &&
    (ctxsWhere s fun t => decide (t.state ≠ .staged)).all (fun c =>
      decide (partOfCtx c ≠ p) ||
        (let ivs := ((ttOf s c).report.cells.filter fun qc => qmask.getLsbD qc.1).flatMap (·.2)
         !(ivs.any (fun iv => decide (iv.1 < start)) && ivs.any fun iv => decide (start ≤ iv.2)))) &&
    adds.all fun r => r.cells.all fun qc => qc.2.all fun iv => decide (start ≤ iv.1)

/-- The first eligible boundary at or after `from'` ac from the start of the current tick: its tick, slice
and offset. -/
def firstEligible (s : State) (p : Nat) (qmask : BitVec 160) (adds : List Report) (from' : Nat) : Nat × Nat × Nat :=
  match (boundariesAhead s (from' / tickLen s + 2)).find? fun b =>
      decide (from' ≤ b.2.2) && (b.2.1 = 0 || sliceEligible s p qmask adds (b.2.2 - b.1 * tickLen s)) with
  | some b => (tickCount s + b.1, b.2.1, b.2.2 - b.1 * tickLen s)
  | none => (nextTick s, 0, 0)

/-! ## Staging (R173) -/

def maskOf (qs : List Nat) : BitVec 160 := BitVec.ofNat 160 (qs.foldl (fun m q => m ||| 2 ^ q) 0)

/-- The first of the tile's two pairs of sets that no owner holds (R73, R101). Log 229, DESIGN CHOICE. -/
def freeBank (t : Tile) : Nat := if t.sets.any (·.bank = 0) then 1 else 0

/-- Change the sets of partition p in a tile. -/
def updSet (t : Tile) (p : Nat) (f : TileSet → TileSet) : Tile :=
  { t with sets :=
      if t.sets.any (·.part = p) then t.sets.map fun x => if x.part = p then f x else x
      else t.sets ++ [f { part := p, bank := freeBank t }] }

/-- A MAINLINE fill of a quadrant: the Siding takes the Mainline's bytes in the named tiles (R167). -/
def fillMain (s : State) (p quad : Nat) (mask : BitVec 64) : State :=
  { s with tiles := mapT s.tiles fun k t =>
      if quadOfTile k = quad ∧ mask.getLsbD (localIndex (k % 256)) ∧ t.sets.any (·.part = p) then
        updSet t p fun x => { x with side := x.main }
      else t }

/-- Write the image's items into the Sidings. -/
def stageItems (s : State) (p : Nat) (image : List Byte) : List (TileUse × Nat) → State
  | [] => s
  | (u, off) :: l =>
    let tiles := upd s.tiles (tileKey u.die u.tile) fun t =>
      updSet t p fun x => { x with side := writeItem x.side u (image.drop off) }
    stageItems { s with tiles := tiles } p image l

/-- Siding state of a partition's quadrant. -/
def sidingOf (s : State) (p quad : Nat) : SidingState := look s.siding (160 * p + quad)
def setSiding (s : State) (p quad : Nat) (st : SidingState) : State :=
  { s with siding := put s.siding (160 * p + quad) st }

/-- Tick that an armed swap without a boundary yet names: a job of several chips before its GO (R361). Log 112,
DEDUCED. -/
def noTick : Nat := 2 ^ 64

/-- Sidings of a list of quadrants become ARMED. Log 112, DEDUCED. -/
def armQuads (s : State) (p : Nat) (qs : List Nat) : State :=
  qs.foldl (fun s q => setSiding s p q .armed) s

/-- The admitted timetable as it stands while staged. -/
def stagedTt (s : State) (x : Candidate) (run : Nat) : Timetable :=
  let b := bindingsOf x.report x.image
  { state := .staged
    report := x.report
    image := x.image
    seq := s.admitSeq + 1
    run := if run = 0 then none else some run
    group := x.group
    member := ((List.range 8).find? fun i => decide (x.group = 0) ||
      (groupMembers s (funcOfCtx s x.ctx) x.group x.gone).all fun c => decide ((ttOf s c).member ≠ i)).getD 0
    dlbEn := (ttOf s x.ctx).dlbEn
    dlbDenied := (vfOf s (funcOfCtx s x.ctx)).ctrlT.getLsbD 0
    entryQ := b.1
    exitQ := b.2.1
    closeQ := b.2.2
    last := (ttOf s x.ctx).last
    job := if x.report.chips > 1 then { state := .waiting } else {} }

/-- Admit a candidate: its context becomes ACTIVE, its timetable staged. -/
def admitTt (s : State) (x : Candidate) (run : Nat) : State :=
  { s with
    tts := put s.tts x.ctx (stagedTt s x run)
    ctxs := upd s.ctxs x.ctx fun c => { c with state := .active, ticks := 0 }
    admitSeq := s.admitSeq + 1 }

end Sys2Proof.Machine
end

