-- ==== Sys2Proof/Machine/ScanImage.lean ====
section
/-!
DEFINITION. Scan images of tiles (R97–R99) and scan bundles (R185, R186). Inside a sequencer position, the
weight register's staging half and the 32 bytes at 0x778 the spec states no layout; the model's own is in
the docstrings below.
-/

namespace Sys2Proof.Machine

/-! ## Sizes -/

/-- Bytes of a set by kind of tile (R73). -/
def setSize (kind : Nat) : Nat := if kind = 0 then 16384 else if kind = 1 then 768 else 512
/-- Bytes of local store or array. -/
def storeSize (kind : Nat) : Nat := if kind = 0 then 65536 else if kind = 1 then 1048576 else 0
def dynSize (kind : Nat) : Nat := if kind = 0 then 2016 else if kind = 1 then 448 else 196
/-- Bytes of a tile's image for one owner (R97). -/
def imageSize (kind : Nat) : Nat := storeSize kind + 2 * setSize kind + dynSize kind

/-- Enabled tiles of a quadrant in ascending local index, as tile keys. -/
def quadTiles (s : State) (quad : Nat) : List Nat :=
  let l := (List.range 256).filter fun t => decide (quadOfTile (256 * (quad / 4) + t) = quad)
  ((sortBy (fun a b => decide (localIndex a ≤ localIndex b)) l).map (256 * (quad / 4) + ·)).filter
    fun k => !tileDead s k

/-! ## Dynamic blocks -/

def zerosTo (n : Nat) (l : List Byte) : List Byte := slice l 0 n

/-- Up to n words, 23 bytes each. -/
def wordsBytes (n : Nat) (l : List TWord) : List Byte := zerosTo (23 * n) ((l.take n).flatMap bytesOf23)

/-- The word that stands in an input register. -/
def standing (t : Tile) (port : Nat) : List TWord := ((look t.inq port).take 1).map (·.2)

def inputBytes (t : Tile) (n : Nat) : List Byte := (List.range n).flatMap fun i => wordsBytes 1 (standing t i)

/-- Which input registers hold a word, one bit each: an all-zero word is a word. Log 125, PRESUMED. -/
def inputMask (t : Tile) (n : Nat) : Nat := ((List.range n).map fun i => ofBool (standing t i ≠ []) * 2 ^ i).sum

/-- The dynamic state that a slot has: that of its image where it has not run since the restart (R75). -/
def scanDyn (t : Tile) (m : Table Byte) (ix : Nat) : SlotDyn :=
  { slotDyn t (slotImg m ix) with started := (look t.slots ix).started }

/-- A sequencer position: position, [0] started and [1] halted, input words popped, of which 20 and 8 matter, acs of
the entry run and inputs taken in it; the model's layout. Log 125, PRESUMED. -/
def posBytes (d : SlotDyn) : List Byte :=
  leBytes 1 d.pos ++ leBytes 1 (ofBool d.started + 2 * ofBool d.halted) ++ leBytes 2 (d.popped % 65520) ++
    leBytes 2 d.ran ++ leBytes 2 d.taken

/-- Log 125, PRESUMED. -/
def ctrBytes (d : SlotDyn) : List Byte := zerosTo 8 (d.ctrs.flatMap fun c => leBytes 2 c.toNat)

/-- An exact accumulator's flags: RANGE, NaN, +∞, −∞, merge mismatch in bits 0 to 4 of its byte. Log 200,
DEDUCED. -/
def exactFlagBytes (a : ExactAcc) : List Byte :=
  leBytes 1 (ofBool a.range + 2 * ofBool a.nan + 4 * ofBool a.pinf + 8 * ofBool a.ninf + 16 * ofBool a.mismatch)

/-- Log 125, PRESUMED. -/
def coreBytes (c : CoreCtx) : List Byte :=
  zerosTo 60 (c.regs.flatMap fun r => leBytes 4 r.toNat) ++ leBytes 4 c.pc ++ wordsBytes 4 c.wb

/-- Slots of a set that hold a core program, rising: their contexts are context 0 and context 1 (R98). -/
def coreSlots (m : Table Byte) : List Nat :=
  (List.range 8).filter fun ix => let sl := slotImg m ix; sl.valid && decide (sl.pers = 2)

/-- The weight register: the block in use, then, in the staging half, the slot (plus 1) and descriptor it
was loaded for, the model's layout. -/
def weightBytesOf (t : Tile) : List Byte :=
  zerosTo 80 t.weightBytes ++
    zerosTo 80 (match t.weight with
      | some (sl, d) => leBytes 1 (sl + 1) ++ leBytes 1 d ++ (t.weightBytes.drop 80)
      | none => [])

/-- Dynamic block of a compute tile (R98). The last 32 bytes hold the active slot, the input registers in use, the
expected tags, TIL_FAULT, and the slots' sticky flags (R119). Log 125, PRESUMED. -/
def computeDyn (t : Tile) (p : Nat) : List Byte :=
  let m := mainSet t p
  let sl (i : Nat) := scanDyn t m i
  (List.range 8).flatMap (fun q => wordsBytes 4 (look t.queues q)) ++
    inputBytes t 4 ++
    leBytes 4 ((List.range 8).map fun q => (look t.queues q).length * 16 ^ q).sum ++
    weightBytesOf t ++
    (List.range 8).flatMap (fun i => zerosTo 32 ((sl i).accs.flatMap fun a => leBytes 8 a.toNat)) ++
    (List.range 4).flatMap (fun i => leBytes 40 (look t.exact i).a.toNat) ++
    zerosTo 16 ((List.range 4).flatMap fun i => exactFlagBytes (look t.exact i)) ++
    (List.range 8).flatMap (fun i => posBytes (sl i)) ++
    (List.range 8).flatMap (fun i => ctrBytes (sl i)) ++
    zerosTo 312 ((coreSlots m).take 2 |>.flatMap fun ix => coreBytes (look t.cores ix)) ++
    zerosTo 48 (t.tags.flatMap fun g => leBytes 2 g.1.toNat ++ leBytes 1 g.2.toNat) ++
    zerosTo 32 (leBytes 1 t.active ++ leBytes 1 (inputMask t 4) ++
      (List.range 8).flatMap (fun i => leBytes 2 (sl i).expect.toNat) ++ leBytes 8 t.fault.toNat ++
      leBytes 4 ((List.range 8).map fun i => (sl i).flags.toNat * 16 ^ i).sum ++
      leBytes 1 ((List.range 8).map fun i => ofBool (sl i).mergeMismatch * 2 ^ i).sum) ++
    List.replicate 72 0

/-- Log 125, PRESUMED. -/
def streamBytes (x : StreamPos) : List Byte :=
  leBytes 8 (x.inner % 65536 + x.outer % 65536 * 2 ^ 16 + wrapInt 20 x.addr * 2 ^ 32)

/-- Dynamic block of a memory tile (R99). Log 125, PRESUMED. -/
def memoryDyn (t : Tile) (p : Nat) : List Byte :=
  let d := scanDyn t (mainSet t p) 0
  (List.range 2).flatMap (fun q => wordsBytes 4 (look t.queues q)) ++ inputBytes t 4 ++
    leBytes 4 ((look t.queues 0).length + 16 * (look t.queues 1).length) ++
    wordsBytes 1 (t.outs.map (·.word)) ++ wordsBytes 1 (t.outs1.map (·.word)) ++ leBytes 2 0 ++
    posBytes d ++ ctrBytes d ++
    (List.range 8).flatMap (fun i => streamBytes (look t.streams i)) ++
    zerosTo 32 (leBytes 8 t.fault.toNat ++
      leBytes 1 (inputMask t 4 + 16 * ofBool (t.outs ≠ []) + 32 * ofBool (t.outs1 ≠ []))) ++ leBytes 8 0

/-- Dynamic block of an edge tile (R99). Log 125, PRESUMED. -/
def edgeDyn (t : Tile) (p : Nat) : List Byte :=
  let d := scanDyn t (mainSet t p) 0
  inputBytes t 5 ++ [0] ++ posBytes d ++ ctrBytes d ++
    zerosTo 32 (leBytes 8 t.fault.toNat ++ leBytes 1 (inputMask t 5)) ++ List.replicate 32 0

def dynBytes (t : Tile) (p kind : Nat) : List Byte :=
  if kind = 0 then computeDyn t p else if kind = 1 then memoryDyn t p else edgeDyn t p

/-- A tile's image for owner p (R97): the bytes that its SCAN words carry. -/
def tileImage (t : Tile) (p kind : Nat) : List Byte :=
  getBytes t.ls 0 (storeSize kind) ++ getBytes (mainSet t p) 0 (setSize kind) ++
    getBytes (sideSet t p) 0 (setSize kind) ++ dynBytes t p kind

/-- A tile's image as it travels: one SCAN word per ac, with QUEUE 0, its number as TAG, and image bytes 20j to 20j +
19 in the payload of word j (R97). -/
def scanWord (image : List Byte) (j : Nat) : TWord :=
  { payload := BitVec.ofNat 160 (leAt image (20 * j) 20), kind := 2, queue := 0, tag := BitVec.ofNat 16 j }

def scanWords (image : List Byte) : List TWord := (List.range ((image.length + 19) / 20)).map (scanWord image)

/-- The first n image bytes that SCAN words carry. -/
def scanBytes (n : Nat) (l : List TWord) : List Byte := (l.flatMap fun w => leBytes 20 w.payload.toNat).take n

/-! ## Restoring -/

/-- Words of a queue from its bytes. -/
def readQueue (b : List Byte) (off n : Nat) : List TWord := (List.range n).map fun i => wordOf23 (slice b (off + 23 * i) 23)

/-- Input registers restored: those that the mask names hold a word. -/
def readInputs (b : List Byte) (off n mask : Nat) : Table (List (Nat × TWord)) :=
  (List.range n).foldl (fun t i =>
    if bitOf mask i then put t i [(0, wordOf23 (slice b (off + 23 * i) 23))] else t) []

def readSlot (b : List Byte) (pos ctr : Nat) : SlotDyn :=
  { pos := leAt b pos 1
    started := bitOf (leAt b (pos + 1) 1) 0
    halted := bitOf (leAt b (pos + 1) 1) 1
    popped := leAt b (pos + 2) 2
    ran := leAt b (pos + 4) 2
    taken := leAt b (pos + 6) 2
    ctrs := (List.range 4).map fun i => BitVec.ofNat 16 (leAt b (ctr + 2 * i) 2) }

def readComputeSlot (b : List Byte) (i : Nat) : SlotDyn :=
  { readSlot b (0x590 + 8 * i) (0x5D0 + 8 * i) with
    expect := BitVec.ofNat 16 (leAt b (0x77A + 2 * i) 2)
    flags := BitVec.ofNat 4 (leAt b 0x792 4 / 16 ^ i)
    mergeMismatch := bitOf (leAt b 0x796 1) i
    accs := (List.range 4).map fun c => BitVec.ofNat 64 (leAt b (0x3E0 + 32 * i + 8 * c) 8) }

/-- Log 200, DEDUCED. -/
def readExactAcc (b : List Byte) (i : Nat) : ExactAcc :=
  let f := leAt b (0x580 + i) 1
  { a := BitVec.ofNat 320 (leAt b (0x4E0 + 40 * i) 40), range := bitOf f 0, nan := bitOf f 1, pinf := bitOf f 2,
    ninf := bitOf f 3, mismatch := bitOf f 4 }

def readCore (b : List Byte) (off : Nat) : CoreCtx :=
  { regs := (List.range 15).map fun i => BitVec.ofNat 32 (leAt b (off + 4 * i) 4)
    pc := leAt b (off + 60) 4
    wb := readQueue b (off + 64) 4 }

def tableOf {α : Type} [Inhabited α] [DecidableEq α] (n : Nat) (f : Nat → α) : Table α :=
  (List.range n).foldl (fun t i => put t i (f i)) []

/-- The dynamic state of a compute tile from its block. -/
def restoreCompute (t : Tile) (p : Nat) (b : List Byte) : Tile :=
  let occ := leAt b 0x33C 4
  let cs := (coreSlots (mainSet t p)).take 2
  let w := leAt b 0x390 1
  { t with
    queues := tableOf 8 fun q => readQueue b (92 * q) (min 4 (bits occ (4 * q + 3) (4 * q)))
    inq := readInputs b 0x2E0 4 (leAt b 0x779 1)
    weight := if w = 0 then none else some (w - 1, leAt b 0x391 1)
    weightBytes := if w = 0 then [] else slice b 0x340 80 ++ slice b 0x392 4
    slots := tableOf 8 (readComputeSlot b)
    exact := tableOf 4 (readExactAcc b)
    cores := cs.zipIdx.foldl (fun c si => put c si.1 (readCore b (0x610 + 156 * si.2))) []
    tags := (List.range 16).filterMap fun i =>
      let m := leAt b (0x748 + 3 * i + 2) 1
      if m = 0 then none else some (BitVec.ofNat 16 (leAt b (0x748 + 3 * i) 2), BitVec.ofNat 8 m)
    active := leAt b 0x778 1 % 8
    fault := BitVec.ofNat 64 (leAt b 0x78A 8)
    outs := [], outs1 := [], landing := [] }

def readStream (b : List Byte) (i : Nat) : StreamPos :=
  let v := leAt b (0x158 + 8 * i) 8
  { inner := bits v 15 0, outer := bits v 31 16, started := decide (v ≠ 0), addr := (bits v 51 32 : Nat) }

/-- An output register restored. -/
def readOutput (b : List Byte) (off : Nat) (held : Bool) : List OutWord :=
  if held then [{ word := wordOf23 (slice b off 23) }] else []

def restoreMemory (t : Tile) (b : List Byte) : Tile :=
  let occ := leAt b 0x114 1
  { t with
    queues := put (put [] 0 (readQueue b 0 (min 4 (occ % 16)))) 1 (readQueue b 92 (min 4 (occ / 16)))
    inq := readInputs b 0xB8 4 (leAt b 0x1A0 1)
    outs := readOutput b 0x118 (bitOf (leAt b 0x1A0 1) 4)
    outs1 := readOutput b 0x12F (bitOf (leAt b 0x1A0 1) 5)
    landing := []
    slots := put [] 0 (readSlot b 0x148 0x150)
    streams := tableOf 8 (readStream b)
    fault := BitVec.ofNat 64 (leAt b 0x198 8) }

def restoreEdge (t : Tile) (b : List Byte) : Tile :=
  { t with
    inq := readInputs b 0 5 (leAt b 0x8C 1)
    slots := put [] 0 (readSlot b 0x74 0x7C)
    fault := BitVec.ofNat 64 (leAt b 0x84 8) }

/-- Reserved bytes of a dynamic block are zero (R98, R99). -/
def dynReservedOk (kind : Nat) (b : List Byte) : Bool :=
  let zero (off n : Nat) : Bool := (slice b off n).all fun x => decide (x = 0)
  if kind = 0 then zero 0x798 72 else if kind = 1 then zero 0x146 2 && zero 0x1B8 8 else zero 0x73 1 && zero 0xA4 32

/-- Both sets of owner p restored from an image. -/
def restoreSets (t : Tile) (p kind : Nat) (b : List Byte) : Tile :=
  let n := setSize kind
  updSet t p fun x =>
    { x with
      main := putBytes [] 0 (slice b (storeSize kind) n)
      side := putBytes [] 0 (slice b (storeSize kind + n) n) }

/-- A tile restored from its image: both sets and the dynamic state. -/
def restoreTile (t : Tile) (p kind : Nat) (b : List Byte) : Tile :=
  let t := { restoreSets t p kind b with ls := putBytes [] 0 (slice b 0 (storeSize kind)) }
  let d := slice b (storeSize kind + 2 * setSize kind) (dynSize kind)
  if kind = 0 then restoreCompute t p d else if kind = 1 then restoreMemory t d else restoreEdge t d

/-! ## Quadrants -/

/-- The plaintext of a scan: the images of the enabled tiles (R185). -/
def scanPlain (s : State) (p quad : Nat) : List Byte :=
  (quadTiles s quad).flatMap fun k => tileImage (tileOf s k) p (kindOfTile (k % 256))

def scanLength (s : State) (quad : Nat) : Nat := ((quadTiles s quad).map fun k => imageSize (kindOfTile (k % 256))).sum

/-- The images of a plaintext, tile by tile. -/
def scanItems (b : List Byte) : List Nat → List (Nat × List Byte)
  | [] => []
  | k :: l => let n := imageSize (kindOfTile (k % 256)); (k, slice b 0 n) :: scanItems (b.drop n) l

/-- USED (R185): tiles whose sets hold a VALID slot or whose dynamic state is not zero. -/
def usedMask (s : State) (p quad : Nat) : Nat :=
  (quadTiles s quad).foldl (fun m k =>
    let t := tileOf s k
    let kind := kindOfTile (k % 256)
    let valid (img : Table Byte) := (List.range (if kind = 0 then 8 else 1)).any fun i => (slotImg img i).valid
    if valid (mainSet t p) || valid (sideSet t p) || t.ls ≠ [] || (dynBytes t p kind).any (fun x => decide (x ≠ 0))
    then m ||| 2 ^ localIndex (k % 256) else m) 0

/-- Clear a quadrant for p to zero: both its sets and the dynamic state (R187). -/
def clearQuad (s : State) (p quad : Nat) : State :=
  { s with tiles := mapT s.tiles fun k t =>
      if quadOfTile k = quad then { sets := t.sets.filter (·.part ≠ p) } else t }

/-! ## Bundles (R185, R186) -/

/-- Key that seals a domain's bundles: the installed one, or the one the SC generated (R299). -/
def scanKey (s : State) (dom : Nat) : List Byte :=
  let d := look s.domains dom
  if d.scan = [] then Config.keyBytes d.scanGen 32 else d.scan

/-- Header fields of a bundle. -/
structure BundleHdr where
  kind : Nat := 1
  part : Nat := 0
  radio : Bool := false
  incomplete : Bool := false
  period : Nat := 0
  quad : Nat := 0xFFFF
  dom : Nat := 0
  arith : Nat := 0
  id : Nat := 0
  seq : Nat := 0
  tick : Nat := 0
  hole : Nat := 0
  used : Nat := 0
  plain : Nat := 0
  map : List Byte := []
  deriving DecidableEq, Repr, Inhabited

def chunkCount (n : Nat) : Nat := (n + 4095) / 4096

def hdrBytes (h : BundleHdr) : List Byte :=
  leBytes 2 1 ++ leBytes 2 h.kind ++ leBytes 1 (h.part + 32 * ofBool h.radio + 64 * ofBool h.incomplete) ++
    leBytes 1 h.period ++ leBytes 2 h.quad ++ leBytes 4 h.dom ++ leBytes 4 h.arith ++ leBytes 8 h.id ++
    leBytes 8 h.seq ++ leBytes 8 h.tick ++ leBytes 8 h.hole ++ leBytes 8 h.used ++ leBytes 8 h.plain ++
    zerosTo 48 h.map ++ leBytes 4 (chunkCount h.plain) ++ List.replicate 12 0

/-- Nonce of chunk k: the bundle ID, then k (R185). Log 126, DEDUCED. -/
def chunkNonce (id k : Nat) : List Byte := beBytes 8 id ++ beBytes 4 k

/-- A bundle: header, then each chunk's ciphertext and tag. Log 126, DEDUCED. -/
def bundleBytes (key : List Byte) (h : BundleHdr) (plain : List Byte) : List Byte :=
  let aad := hdrBytes h
  aad ++ (List.range (chunkCount plain.length)).flatMap fun k =>
    let c := gcmSeal key (chunkNonce h.id k) aad ((plain.drop (4096 * k)).take 4096)
    c.1 ++ c.2

/-- Length of a bundle with n bytes of plaintext. -/
def bundleLength (n : Nat) : Nat := 128 + n + 16 * chunkCount n

/-- Chunks of a sealed plaintext of n bytes, opened one by one. Log 126, DEDUCED. -/
def openChunks (key aad : List Byte) (id k : Nat) : Nat → List Byte → Option (List Byte)
  | 0, _ => some []
  | f + 1, b =>
    let n := min 4096 (b.length - 16)
    match gcmOpen key (chunkNonce id k) aad (b.take n) ((b.drop n).take 16) with
    | none => none
    | some x => (openChunks key aad id (k + 1) f (b.drop (n + 16))).map (x ++ ·)

/-- The header of partition p's quadrant as the part writes it now. -/
def headerNow (s : State) (p quad kind id seq : Nat) (tick : Nat) (incomplete : Bool) (plain : Nat) : BundleHdr :=
  { kind := kind, part := p, radio := (part s p).radio, incomplete := incomplete, period := periodCode s,
    quad := quad, dom := domOfPart s p, arith := reg s (bAri + 0x20), id := id, seq := seq, tick := tick,
    hole := if quad < 160 then holeMask s quad else 0, used := if quad < 160 then usedMask s p quad else 0,
    plain := plain, map := mapDigest s }

end Sys2Proof.Machine
end

