-- ==== Sys2Proof/Machine/SwapOps.lean ====
section
/-!
DEFINITION. What a swap does when it takes effect (R174, R177): sets exchange, outgoing timetables are
withdrawn, incoming ones begin, tiles restart (R75); and the ends of a timetable's life (R159).
-/

namespace Sys2Proof.Machine

/-! ## Records written at boundaries (R159) -/

/-- A SUSPENDED or WITHDRAWN record: it covers no pass, so its counters are zero. Log 129, DEDUCED. -/
def plainRec (s : State) (c type : Nat) (last : Bool) : CloseRec :=
  let t := ttOf s c
  { type := type, last := last, postmark := (ctxOf s c).postmark, ctx := c, radio := t.report.radio,
    standing := t.report.standing, exactRed := t.report.exactRed, tick := s.tick.count, digest8 := digest8 t }

/-- A held record reaches its queue once its pass may be published (R157, R376). -/
def releaseRecs (s : State) (c : Nat) (ok : Nat → Bool) : State :=
  let t := ttOf s c
  let s := (t.heldRecs.filter fun x => ok x.1).foldl (fun s x => writeRec s c x.2) s
  { s with tts := upd s.tts c fun t => { t with heldRecs := t.heldRecs.filter fun x => !ok x.1 } }

/-- Held exit entries likewise. -/
def releaseExits (s : State) (c : Nat) (ok : Nat → Bool) : State :=
  let t := ttOf s c
  let s := (t.heldExits.filter fun x => ok x.pass).foldl (fun s x => exitEntry s x.q x.word x.postmark.toNat) s
  { s with tts := upd s.tts c fun t => { t with heldExits := t.heldExits.filter fun x => !ok x.pass } }

/-- A timetable is over: WITHDRAWN with LAST = 1; its context becomes READY unless it is being reset. Log 129,
DEDUCED. -/
def endTimetable (s : State) (c : Nat) : State :=
  if (ttOf s c).state = .none then s
  else
    let r := plainRec s c 4 true
    let s := writeRec s c r
    let s := { s with
      tts := upd s.tts c fun t => { dlbEn := t.dlbEn, dlbDenied := t.dlbDenied, last := r }
      ctxs := upd s.ctxs c fun x => { x with state := if x.state = .active then .ready else x.state } }
    orReg s (ttbBase (partOfCtx c) + 0x4) 0x2

/-- A timetable is suspended: its SUSPENDED record (R159), and no reply to the requests whose results it still owes
(R270). Log 129, DEDUCED. -/
def suspendTt (s : State) (c : Nat) (cut : Bool) : State :=
  let s := writeRec s c (plainRec s c 3 false)
  let s := dropReplies { s with tts := upd s.tts c fun t => { t with state := .suspended, ran := false, cut := cut } } c
  orReg s (ttbBase (partOfCtx c) + 0x4) 0x20

/-! ## Restarts (R75) -/

/-- The sequencing of a tile restarts; it acts next at offset `ac`. What R75 does not keep is gone: inputs and results
in the pipelines, the entry and the firing in progress (R34, R137). A write popped before still lands (R92). Log
193, DEDUCED. -/
def restartTile (t : Tile) (ac : Nat) : Tile :=
  { t with
    ac := ac, active := 0, mulReady := ac, sfReady := ac, outs := [], outs1 := [], landing := []
    ls := t.landing.foldl (fun m l => storeBytes m l.2.2.1 l.2.2.2) t.ls
    slots := mapT t.slots fun _ d => { d with
      started := false, halted := false, popped := 0, half := none, pipe := [], ran := 0, taken := 0, sel := none
      firings := 0, endAt := 0, lastDue := 0 }
    cores := mapT t.cores fun _ c => { c with left := 0, spent := 0, ended := false, running := false, busy := 0 } }

/-- The counters of a pass at its start. Log 193, DEDUCED. -/
def freshPass (t : Timetable) : Timetable :=
  { t with ran := true, closed := false, doneSlots := [], schedCount := 0, reqIn := 0, reqHeld := 0, idle := 0, hbmRd := 0, hbmWr := 0,
           faults := 0, flags := 0, lines := [], barrierTick := none, entered := 0, exited := 0, flight := [],
           lastEntry := none, entries := [] }

/-- The first pass of a staged timetable begins (R156). Log 98, DEDUCED. -/
def startFirst (s : State) (c : Nat) : State :=
  let s := { s with tts := upd s.tts c fun t =>
    { freshPass t with state := .running, job := { t.job with state := if t.report.chips > 1 then .running else t.job.state } } }
  orReg s (ttbBase (partOfCtx c) + 0x4) 0x1

/-! ## Exchange (R174) -/

/-- The tiles of a quadrant run p's program: p owns it in the slice in progress, and it is not changing over. -/
def runsFor (s : State) (p q : Nat) : Bool := decide (ownerNow s q = some p) && decide (q ∉ s.changing)

/-- Mainline and Siding of partition p trade places in the named quadrants; the tiles that run p's program restart
(R75). What their slots have raised and ended stays with their timetables (R120, R157), and a word on its way to a
tile without a program is lost there (R72). -/
def exchangeSets (s : State) (p : Nat) (qmask : BitVec 160) (ac : Nat) : State :=
  let live (q : Nat) : Bool := qmask.getLsbD q && runsFor s p q
  let ks := (s.tiles.filter fun kv => live (quadOfTile kv.1) && kv.2.sets.any fun x => decide (x.part = p)).map (·.1)
  let s := saveSlots s fun q => if live q then some p else none
  let s := { s with tiles := mapT s.tiles fun k t =>
      if qmask.getLsbD (quadOfTile k) ∧ t.sets.any (·.part = p) then
        let u := updSet t p fun x => { x with main := x.side, side := x.main, flip := !x.flip }
        if k ∈ ks then restartTile u ac else u
      else t }
  ks.foldl strayIdle s

/-- The timetable of a library entry, as a candidate for admission (R180). Log 124, DEDUCED. -/
def entryCandidate (s : State) (gone : List Nat) (tick e : Nat) : Option Candidate :=
  let x := look s.lib e
  (entryCtx x).map fun c => { ctx := c, report := x.report, image := x.image, tick := tick, gone := gone }

/-- A library entry's timetable is admitted and begins, where its context has none. Log 124, DEDUCED. -/
def adopt (s : State) (e : Nat) : State :=
  match entryCandidate s [] (tickCount s) e with
  | some x => if (ttOf s x.ctx).state = .none then startFirst (admitTt s x 0) x.ctx else s
  | none => s

/-- Contexts whose timetables a swap of the group drops or replaces. -/
def outgoingOf (s : State) (p : Nat) (qmask : BitVec 160) : List Nat :=
  (ctxsWhere s fun _ => true).filter (outgoing s p qmask)

/-- A swap group takes effect. -/
def takeSwap (s : State) (p : Nat) (g : SwapGroup) (ac : Nat) : State :=
  let outs := outgoingOf s p g.qmask
  let ents := sideEntries s p g.qmask
  let s := outs.foldl endTimetable (exchangeSets s p g.qmask ac)
  let s := ents.foldl adopt s
  let s := (g.adds.filter fun c => decide ((ttOf s c).state = .staged)).foldl startFirst s
  orReg (incReg { s with
      sdg := upd s.sdg p fun d =>
        { d with groups := d.groups.filter fun h => decide (h ≠ g), lib := d.lib.filter fun kv => !g.qmask.getLsbD kv.1 }
      siding := mapT s.siding fun k v => if k / 160 = p ∧ g.qmask.getLsbD (k % 160) ∧ v = .armed then .stale else v
      effects := s.effects.filter fun e => !isSwapIn p (fun h => decide (h = g)) [g] e.effect }
    (bSdg + 0x18) 1) (bSdg + 0x24) 0x1

/-- Every quadrant of a group is ARMED, as its effect requires (R175). -/
def groupReady (s : State) (p : Nat) (g : SwapGroup) : Bool :=
  (setBitsOf 160 g.qmask.toNat).all fun q => decide (sidingOf s p q = .armed)

/-- Contexts staged in the Sidings of a group, all of whose quadrants lie in it. -/
def stagedIn (s : State) (p : Nat) (qmask : BitVec 160) : List Nat :=
  (ctxsWhere s fun t => decide (t.state = .staged) && (quadsOf t.report).all fun q => qmask.getLsbD q).filter
    fun c => decide (partOfCtx c = p)

end Sys2Proof.Machine
end

