-- ==== Sys2Proof/Machine/Siding.lean ====
section
/-!
DEFINITION. Fills, swaps, shunting plans, the resident library and scans (R166–R188), as commands and as
the events that complete them.
-/

namespace Sys2Proof.Machine

/-! ## Fills (R167–R173) -/

/-- Beats of a tile's set. Log 115, DESIGN CHOICE. -/
def beatsOf (kind : Nat) : Nat := setSize kind / 32

/-- Beats of a fill of the masked tiles of a quadrant; a disabled tile's beats are carried too (R170). Log 111,
DESIGN CHOICE. Log 115, DESIGN CHOICE. -/
def fillBeats (quad : Nat) (mask : BitVec 64) : Nat :=
  (((List.range 256).filter fun t => decide (quadOfTile (256 * (quad / 4) + t) = quad) &&
    mask.getLsbD (localIndex t)).map fun t => beatsOf (kindOfTile t)).sum

/-- The tick and offset `d` ac from the start of the current tick. -/
def placeOf (s : State) (d : Nat) : Nat × Nat := (tickCount s + d / tickLen s, d % tickLen s)

/-- Ac from the start of the current tick to a tick and offset. -/
def distanceTo (s : State) (tick off : Nat) : Nat := (tick - tickCount s) * tickLen s + off

/-- Ac from the start of a fill to READY (R167, R169, R172). Which free slots an HBM fill takes is the
Stationmaster's choice: its time is at least that of one line per ac, and beyond it a free value. Log 111,
DESIGN CHOICE. Log 115, DESIGN CHOICE. -/
def fillTime (s : State) (source quad : Nat) (mask : BitVec 64) : Nat :=
  let b := fillBeats quad mask
  if source = 0 then 56 + (b + 4) / 5
  else if source = 2 then 128
  else 192 + b / 2 + 40 + (Config.freeBits s.fresh 32).toNat

/-- The part of a library entry for a quadrant: mask and bytes. -/
def libPart (e : LibEntry) (quad : Nat) : Option (BitVec 64 × List Byte) :=
  (e.parts.find? (·.1 = quad)).map (·.2)

/-- The entry can serve a fill of the quadrant by partition p from a source. Log 117, DEDUCED. -/
def entryServes (s : State) (p source quad entry : Nat) (mask : BitVec 64) : Bool :=
  let e := look s.lib entry
  source = 2 ||
    (e.used && !e.writing && decide (e.part = p) && (source ≠ 0 || e.tileRes) &&
      match libPart e quad with
      | some (m, _) => decide (mask &&& m = mask)
      | none => false)

/-- A fill of this Siding cannot be accepted (R166, R171). -/
def sidingBusy (st : SidingState) : Bool :=
  decide (st = .none ∨ st = .filling ∨ st = .armed ∨ st = .shunting ∨ st = .scanning)

/-- Library tiles that a TILES fill of a part reads, all three at once (R167). -/
def fillTiles (s : State) (source quad entry : Nat) : List Nat :=
  if source = 0 then (((look s.lib entry).lies.find? (·.1 = quad)).map (·.2)).getD [] else []

/-- A fill uses the loader of a quadrant or one of a list of library tiles (R171). -/
def fillUses (s : State) (quad : Nat) (tiles : List Nat) (g : Fill) : Bool :=
  decide (g.quad = quad) || (fillTiles s g.source g.quad g.entry).any fun k => decide (k ∈ tiles)

/-- Earliest ac, from the start of the current tick, at which the loader of a quadrant and the library tiles of a
fill are free. Log 115, DESIGN CHOICE. -/
def loaderFree (s : State) (quad : Nat) (tiles : List Nat) (off : Nat) : Nat :=
  (s.fills.filter (fillUses s quad tiles)).foldl (fun a f => max a (distanceTo s f.readyTick f.readyOff)) off

/-- Lowest refusal of tenants below the full level (R171, R389). Log 54, DEDUCED. -/
def tenantHalted (s : State) (p : Nat) : Bool := !(part s p).radio && decide (s.level ≠ .full)

/-- LEVEL comes before the body's own refusals (R433). Log 53, DEDUCED. Log 114, DEDUCED. Log 117, DEDUCED. -/
def sdgFillBody (h : CmdHdr) (p source quad entry : Nat) (mask : BitVec 64) (s : State) (i : Nat) : Reply :=
  if tenantHalted s p then refuseAt s stLevel (levelCode s.level) 0
  else if (part s p).state ≠ .opened ∨ sidingBusy (sidingOf s p quad) ∨ entryServes s p source quad entry mask = false then
    refuse s stState
  else
    let d := placeOf s (loaderFree s quad (fillTiles s source quad entry) h.off + fillTime s source quad mask)
    let f : Fill := { part := p, quad := quad, source := source, entry := entry, mask := mask,
                      readyTick := d.1, readyOff := d.2, seq := s.admitSeq }
    acceptAt (addEffect { s with fills := s.fills ++ [f], fresh := s.fresh + 1 } h i noTick (.fill p quad)) d.1 d.2

/-- SDG_FILL. SOURCE 3, HOST, is refused (R173). -/
def execSdgFill (h : CmdHdr) (part source quad entry : Nat) (mask : BitVec 64) (s : State) : Out1 :=
  done s (takeCommand s h { opcode := 0x0401, agent := 1, pends := true }
    (decide (part < 32 ∧ source < 3 ∧ quad < 160 ∧ entry < 4096)) true
    (sdgFillBody h part source quad entry mask))

/-- The first fill of a partition and quadrant in a given stage, by the order accepted. -/
def findFill (s : State) (p quad : Nat) (running : Bool) : Option Fill :=
  s.fills.find? fun f => decide (f.part = p ∧ f.quad = quad ∧ f.running = running)

/-- The loader is free, and so are the library tiles of a TILES fill, for which no fill accepted before it waits
(R171). Log 116, DEDUCED. -/
def fillMayStart (s : State) (f : Fill) : Bool :=
  let mine := fillTiles s f.source f.quad f.entry
  s.fills.all (fun g => !g.running || !fillUses s f.quad mine g) &&
    (s.fills.takeWhile fun g => decide (g ≠ f)).all fun g =>
      (fillTiles s g.source g.quad g.entry).all fun k => decide (k ∉ mine)

/-- A waiting fill starts: its time is fixed by its own length (R169, R172). Log 116, DEDUCED. -/
def fillStart (s : State) (f : Fill) (off : Nat) : State :=
  let t := if f.source = 1 then max (distanceTo s f.readyTick f.readyOff) (off + 1)
    else off + fillTime s f.source f.quad f.mask
  let d := placeOf s t
  let s := setSiding { s with tick := { s.tick with off := off } } f.part f.quad .filling
  { s with fills := s.fills.map fun g => if g = f then { g with running := true, readyTick := d.1, readyOff := d.2 } else g }

/-- Bytes of a part go into the Sidings of the masked tiles, in ascending local index. Log 114, DEDUCED. -/
def fillBytes (s : State) (p : Nat) (mask partMask : BitVec 64) (bytes : List Byte) : List Nat → State
  | [] => s
  | t :: l =>
    let kind := kindOfTile (t % 256)
    if partMask.getLsbD (localIndex (t % 256)) then
      let s := if mask.getLsbD (localIndex (t % 256)) ∧ !tileDead s t then
          setTile s t fun x => updSet x p fun y => { y with side := putBytes [] 0 (slice bytes 0 (setSize kind)) }
        else s
      fillBytes s p mask partMask (bytes.drop (setSize kind)) l
    else fillBytes s p mask partMask bytes l

/-- All tiles of a quadrant in ascending local index. -/
def tilesOfQuad (quad : Nat) : List Nat :=
  let l := (List.range 256).filter fun t => decide (quadOfTile (256 * (quad / 4) + t) = quad)
  (sortBy (fun a b => decide (localIndex a ≤ localIndex b)) l).map (256 * (quad / 4) + ·)

/-- Lines of a home copy before and in a part. Log 122, DESIGN CHOICE. -/
def homeLines (e : LibEntry) (quad : Nat) : List (Nat × Nat) :=
  let before := (e.parts.takeWhile (·.1 ≠ quad)).map fun x => x.2.2.length / 64
  match libPart e quad with
  | some (_, b) => (e.home.drop before.sum).take (b.length / 64)
  | none => []

/-- Read a home copy line by line; a fault is the page owner's (R207, R210). -/
def readHome (s : State) (who : Named) : List (Nat × Nat) → State × List Byte
  | [] => (s, [])
  | (pc, line) :: l =>
    let r := readLine s who pc line
    let rest := readHome r.1 who l
    (rest.1, r.2.1 ++ rest.2)

/-- The bytes a fill brings, from its source. Log 114, DEDUCED. -/
def fillSource (s : State) (f : Fill) : State × BitVec 64 × List Byte :=
  let e := look s.lib f.entry
  match libPart e f.quad with
  | some (m, b) =>
    if f.source = 1 then
      let r := readHome s (.partition f.part) (homeLines e f.quad)
      (r.1, m, r.2)
    else (s, m, b)
  | none => (s, 0, [])

/-- The digest recorded at install matches (R169, R170). -/
def digestOk (s : State) (f : Fill) (bytes : List Byte) : Bool :=
  f.source = 2 || match libPart (look s.lib f.entry) f.quad with
    | some (_, b) => decide (sha384 bytes = sha384 b)
    | none => false

/-- A Siding reaches READY, or ARMED where a pending swap names it (R166). -/
def sidingReady (s : State) (p quad : Nat) : State :=
  let armed := (look s.sdg p).groups.any fun g => g.qmask.getLsbD quad
  orReg (setSiding s p quad (if armed then .armed else .ready)) (bSdg + 0x24) 0x8

/-- Log 88, DEDUCED. -/
def dropFill (s : State) (f : Fill) : State :=
  { s with
    fills := s.fills.filter fun g => decide (g ≠ f)
    effects := s.effects.filter fun e => decide (e.effect ≠ .fill f.part f.quad) }

/-- A fill ends FAILED, by its digest check or aborted (R170). Log 116, DEDUCED. -/
def fillFailed (s : State) (f : Fill) : State :=
  orReg (incReg (setSiding s f.part f.quad .failed) (bSdg + 0x20) 1) (bSdg + 0x24) 0x10

/-- An entry is reduced to its home copy (R170, R182). -/
def loseTiles (e : LibEntry) : LibEntry := { e with tileRes := false, lies := [] }

/-- FILL_START (R169, R171): a waiting fill whose Siding can take it. The loader checks the source first, which may
have lost its tiles since: the fill then ends FAILED. Log 116, DEDUCED. -/
def execFillStart (part quad off : Nat) (s : State) : Out1 :=
  done s (match findFill s part quad false with
    | some f =>
      if fillMayStart s f = false ∨ sidingBusy (sidingOf s part quad) then s
      else if entryServes s part f.source quad f.entry f.mask then fillStart s f off
      else fillFailed (dropFill { s with tick := { s.tick with off := off } } f) f
    | none => s)

def fillComplete (s : State) (f : Fill) : State :=
  let src := fillSource s f
  let ok := digestOk s f src.2.2
  let s := dropFill src.1 f
  let s := if f.source = 2 then fillMain s f.part f.quad f.mask
    else fillBytes s f.part f.mask src.2.1 src.2.2 (tilesOfQuad f.quad)
  if ok then
    let s := { s with sdg := upd s.sdg f.part fun d =>
      { d with lib := put d.lib f.quad (if f.source = 2 then 0 else f.entry + 1) } }
    sidingReady s f.part f.quad
  else fillFailed { s with lib := upd s.lib f.entry loseTiles } f

/-- FILL_COMPLETE (R169, R170). -/
def execFillComplete (part quad : Nat) (s : State) : Out1 :=
  done s (match findFill s part quad true with
    | some f => fillComplete s f
    | none => s)

/-! ## Swaps (R174–R176) -/

/-- Ac, from the start of the current tick, at which the quadrants of a group are all READY; none where some
quadrant cannot be armed. Log 118, DEDUCED. -/
def groupReadyAt (s : State) (p : Nat) (qmask : BitVec 160) : Option Nat :=
  (setBitsOf 160 qmask.toNat).foldl (fun acc q =>
    match acc with
    | none => none
    | some a =>
      if sidingOf s p q = .ready then some a
      else match s.fills.find? fun f => decide (f.part = p ∧ f.quad = q) with
        | some f => if sidingOf s p q = .armed then none else some (max a (distanceTo s f.readyTick f.readyOff))
        | none => none) (some 0)

/-- Rows of R155 that a switch to a library entry's timetable still has to meet (R180). Log 123, DEDUCED. -/
def switchRows : List Nat := [1, 2, 5, 8, 9, 10, 11, 12, 13]

/-- The timetables of the library entries in a group may be admitted at a tick. -/
def entriesAdmissible (s : State) (p : Nat) (qmask : BitVec 160) (tick : Nat) : Bool :=
  (sideEntries s p qmask).all fun e =>
    match entryCandidate s (outgoingOf s p qmask) tick e with
    | some x => failedRow s x switchRows = none
    | none => true

/-- Reports that a group's incoming sets add. -/
def addedReports (s : State) (p : Nat) (qmask : BitVec 160) : List Report :=
  (stagedIn s p qmask).map (fun c => (ttOf s c).report) ++
    (sideEntries s p qmask).map fun e => (look s.lib e).report

/-- Arm a group: READY quadrants become ARMED, the others as their fills complete. Log 113, DEDUCED. -/
def armGroup (s : State) (p : Nat) (g : SwapGroup) : State :=
  { s with
    sdg := upd s.sdg p fun d => { d with groups := d.groups ++ [g] }
    siding := mapT s.siding fun k v => if k / 160 = p ∧ g.qmask.getLsbD (k % 160) ∧ v = .ready then .armed else v }

/-- A late swap is carried forward (R175, R190). -/
def noteDeferred (s : State) : State := orReg (incReg s (bSdg + 0x1C) 1) (bSdg + 0x24) 0x2

/-- Accept a swap at a boundary; one that is late counts as deferred then. Log 118, DEDUCED. -/
def acceptSwap (h : CmdHdr) (p strict : Nat) (late : Bool) (qmask : BitVec 160) (s : State) (i : Nat)
    (b : Nat × Nat × Nat) : Reply :=
  if entriesAdmissible s p qmask b.1 = false then refuse s stState
  else
    let ctxs := stagedIn s p qmask ++ (sideEntries s p qmask).filterMap fun e => entryCtx (look s.lib e)
    let g : SwapGroup := { tick := b.1, slice := b.2.1, strict := decide (strict = 1), qmask := qmask, adds := ctxs }
    let s := if late then noteDeferred s else s
    acceptAt (addEffect (armGroup s p g) h i b.1 (.swapIn p b.1 b.2.1)) b.1 b.2.2

/-- Log 53, DEDUCED. -/
def sdgSwapBody (h : CmdHdr) (p strict slice boundary : Nat) (qmask : BitVec 160) (s : State) (i : Nat) : Reply :=
  if tenantHalted s p then refuseAt s stLevel (levelCode s.level) 0
  else if (part s p).state ≠ .opened then refuse s stState
  else match groupReadyAt s p qmask with
    | none => refuse s stState
    | some ready =>
      let need := max (h.off + 256) (if ready = 0 then 0 else ready + 1)
      let adds := addedReports s p qmask
      let next := firstEligible s p qmask adds need
      if boundary = 0 then acceptSwap h p strict false qmask s i next
      else
        let starts := activeStarts s
        let at' := distanceTo s boundary (starts.getD slice 0)
        if boundary < tickCount s ∨ (boundary = tickCount s ∧ slice = 0) ∨ at' < need then
          if strict = 1 then refuseAt s stLate boundary slice
          else acceptSwap h p strict true qmask s i next
        else if starts.length ≤ slice ∨ (slice ≠ 0 ∧ sliceEligible s p qmask adds (starts.getD slice 0) = false) then
          refuse s stState
        else acceptSwap h p strict false qmask s i (boundary, slice, starts.getD slice 0)

/-- SDG_SWAP. -/
def execSdgSwap (h : CmdHdr) (part strict slice boundary : Nat) (qmask : BitVec 160) (s : State) : Out1 :=
  done s (takeCommand s h { opcode := 0x0402, agent := 1, pends := true }
    (decide (part < 32 ∧ strict < 2 ∧ slice < 16 ∧ boundary < 2 ^ 64 ∧ (boundary = 0 → slice = 0))) true
    (sdgSwapBody h part strict slice boundary qmask))

/-! ## Shunting plans (R179) -/

/-- No timetable of a list has cells both before and after an offset. -/
def noneAcross (l : List Report) (start : Nat) : Bool :=
  l.all fun r =>
    let ivs := r.cells.flatMap (·.2)
    !(ivs.any (fun iv => decide (iv.1 < start)) && ivs.any fun iv => decide (start ≤ iv.2))

/-- The named slices exist in the plan that will be in force, exchange an even number of times and lie at boundaries
eligible for the set that becomes active there: the Siding's at the first, third and so on, which adds its timetables,
the Mainline's at the others (R176, R179). Log 96, DEDUCED. -/
def shuntOk (s : State) (p : Nat) (mask : BitVec 16) (qmask : BitVec 160) : Bool :=
  let st := (planAt s (nextTick s)).starts
  let l := setBitsOf 16 mask.toNat
  let side := addedReports s p qmask
  decide (l.length % 2 = 0) && l.zipIdx.all fun x => decide (x.1 < st.length) && noneAcross side (st.getD x.1 0) &&
    sliceEligible s p qmask (if x.2 % 2 = 0 then side else []) (st.getD x.1 0)

/-- A plan swap takes effect at the next boundary and ends the running shunting plans there. Log 96, DEDUCED. -/
def planSwapDue (s : State) : Bool := !(dueBy s (nextTick s) isPlanSwap).isEmpty

/-- The Siding can enter a shunting plan: READY, or SHUNTING in a plan that a plan swap ends. Log 96, DEDUCED.
-/
def shuntable (s : State) (p q : Nat) : Bool :=
  decide (sidingOf s p q = .ready) || (planSwapDue s && decide (sidingOf s p q = .shunting))

/-- Log 53, DEDUCED. Log 96, DEDUCED. -/
def shuntStartBody (h : CmdHdr) (p : Nat) (mask : BitVec 16) (qmask : BitVec 160) (s : State) (i : Nat) : Reply :=
  let d := look s.sdg p
  if tenantHalted s p then refuseAt s stLevel (levelCode s.level) 0
  else if (part s p).state ≠ .opened ∨ (part s p).radio ∨ (d.shuntOn ∧ planSwapDue s = false) ∨
      shuntOk s p mask qmask = false ∨ entriesAdmissible s p qmask (nextTick s) = false ∨
      (setBitsOf 160 qmask.toNat).any (fun q => !shuntable s p q) then refuse s stState
  else acceptAt (addEffect s h i (nextTick s) (.shuntStart p mask qmask)) (nextTick s) 0

/-- SHUNT_START. MASK names slices 1 to 15. -/
def execShuntStart (h : CmdHdr) (part : Nat) (mask : BitVec 16) (qmask : BitVec 160) (s : State) : Out1 :=
  done s (takeCommand s h { opcode := 0x0403, agent := 1, pends := true }
    (decide (part < 32) && !mask.getLsbD 0) true (shuntStartBody h part mask qmask))

def shuntStopBody (h : CmdHdr) (p : Nat) (s : State) (i : Nat) : Reply :=
  if (look s.sdg p).shuntOn then
    acceptAt (addEffect s h i (nextTick s) (.shuntStop p)) (nextTick s) 0
  else refuse s stState

/-- SHUNT_STOP. -/
def execShuntStop (h : CmdHdr) (part : Nat) (s : State) : Out1 :=
  done s (takeCommand s h { opcode := 0x0404, agent := 1, pends := true } (decide (part < 32)) true
    (shuntStopBody h part))

/-! ## The resident library (R180–R182) -/

/-- Memory tiles of a quadrant, by ordinal in ascending local index. -/
def memTiles (quad : Nat) : List Nat := (tilesOfQuad quad).filter fun k => decide (kindOfTile (k % 256) = 1)

/-- Library tiles that partition p holds on a die (R182). -/
def libTilesOn (s : State) (p die : Nat) : List Nat :=
  (List.range 4).flatMap fun i =>
    let x := look s.libTiles (4 * die + i)
    if x.part = p then (setBitsOf 12 x.tiles.toNat).map fun o => (memTiles (4 * die + i)).getD o 0 else []

/-- Bytes that the parts of installed entries take of a library tile: a third of each part striped over it. -/
def stripedOn (s : State) (k : Nat) : Nat :=
  (s.lib.map fun kv => (kv.2.lies.map fun x =>
    if k ∈ x.2 then (((kv.2.parts.find? (·.1 = x.1)).map (·.2.2.length)).getD 0 + 2) / 3 else 0).sum).sum

/-- The library tiles over which a part is striped at install: the first three of its die with room. Log 122,
DESIGN CHOICE. -/
def tilesFor (s : State) (p : Nat) (pt : Nat × BitVec 64 × List Byte) : Nat × List Nat :=
  (pt.1, ((libTilesOn s p (pt.1 / 4)).filter fun k =>
    decide (stripedOn s k + (pt.2.2.length + 2) / 3 ≤ 1048576)).take 3)

/-- The parts of an entry are laid into library tiles, part by part. -/
def layParts (s : State) (e : Nat) (p : Nat) (parts : List (Nat × BitVec 64 × List Byte)) : State :=
  parts.foldl (fun s pt => { s with lib := upd s.lib e fun x => { x with lies := x.lies ++ [tilesFor s p pt] } }) s

/-- Tile residence at install: every part lies on three library tiles of its die (R167). Log 122, DESIGN CHOICE. -/
def takeResidence (s : State) (e : Nat) : State :=
  let x := look s.lib e
  let s := layParts s e x.part x.parts
  { s with lib := upd s.lib e fun x =>
      if x.lies.all fun l => decide (l.2.length = 3) then { x with tileRes := true } else loseTiles x }

/-- The library tile is still one of partition p's. -/
def stillLib (s : State) (p k : Nat) : Bool := decide (k ∈ libTilesOn s p (k / 256))

/-- Entries with a part on tiles that are library tiles no more are reduced to their home copies (R182). -/
def renewResidence (s : State) : State :=
  { s with lib := mapT s.lib fun _ e =>
      if e.lies.all fun l => l.2.all (stillLib s e.part) then e else loseTiles e }

/-- Quadrant parts of an image: quadrant, mask of its tiles and their sets (R180). -/
def partsOfImage (r : Report) (image : List Byte) : List (Nat × BitVec 64 × List Byte) :=
  let items := imageItems r.tiles 0
  let quadOf (u : TileUse) := quadOfTile (tileKey u.die u.tile)
  ((r.tiles.map quadOf).eraseDups).map fun q =>
    let here := items.filter fun x => decide (quadOf x.1 = q)
    let tiles := (tilesOfQuad q).filter fun k => here.any fun x => decide (tileKey x.1.die x.1.tile = k)
    (q, BitVec.ofNat 64 (tiles.foldl (fun m k => m ||| 2 ^ localIndex (k % 256)) 0),
      tiles.flatMap fun k =>
        let set := (here.filter fun x => decide (tileKey x.1.die x.1.tile = k)).foldl
          (fun t x => writeItem t x.1 (image.drop x.2)) []
        getBytes set 0 (setSize (kindOfTile (k % 256))))

/-- Shared lines of a partition's pseudo-channels that no home copy holds, lowest first. Log 122, DESIGN CHOICE. -/
def sharedLines (s : State) (p n : Nat) : List (Nat × Nat) :=
  let used := s.lib.flatMap fun kv => kv.2.home
  let pages := s.pages.filter fun kv =>
    decide (kv.2.kind = .shared) && decide ((pcOf s (kv.1 / 512)).owner = .partition ∧ (pcOf s (kv.1 / 512)).part = p)
  ((pages.flatMap fun kv => (List.range 32768).map fun i => (kv.1 / 512, 32768 * (kv.1 % 512) + i)).filter
    fun x => decide (x ∉ used)).take n

def libCount (s : State) : Nat := (s.lib.filter fun kv => kv.2.used || kv.2.writing).length

def freeEntry (s : State) : Option Nat :=
  (List.range 4096).find? fun e => !(look s.lib e).used && !(look s.lib e).writing

/-- The context an install is checked against: the one its slots name, or else slot 0 of the partition. Log 124,
DEDUCED. -/
def installCtx (p : Nat) (parts : List (Nat × BitVec 64 × List Byte)) : Nat :=
  (entryCtx { parts := parts }).getD (64 * p)

/-- Rows that LIB_INSTALL checks (R180). -/
def installRows : List Nat := [3, 4, 6, 7]

/-- Log 123, DEDUCED. -/
def libInstallBody (h : CmdHdr) (p imageAddr reportAddr il rl : Nat) (s : State) (i : Nat) : Reply :=
  let rb := hostRead s (.function 0) 0 reportAddr rl
  match rb.2.bind fun b => readReport b.1 with
  | none => refuse rb.1 stBadParam
  | some r =>
    let ib := hostRead rb.1 (.function 0) 0 imageAddr il
    let s := ib.1
    let image := (ib.2.map (·.1)).getD []
    let r := asLoaded r image
    let parts := partsOfImage r image
    let x : Candidate := { ctx := installCtx p parts, report := r, image := image, tick := nextTick s }
    let n := (parts.map fun q => q.2.2.length / 64).sum
    let lines := sharedLines s p n
    match failedRow s x installRows with
    | some row => refuse s (stRow row)
    | none =>
      match freeEntry s with
      | none => refuse s stNoResource
      | some e =>
        if lines.length < n then refuse s stNoResource
        else
          let entry : LibEntry :=
            { part := p, report := r, parts := parts, image := image, writing := true, home := lines,
              token := h.token, src := h.src, index := i }
          finishLater { s with lib := put s.lib e entry }

/-- LIB_INSTALL. -/
def execLibInstall (h : CmdHdr) (part image report imageLen reportLen : Nat) (s : State) : Out1 :=
  done s (takeCommand s h { opcode := 0x0405, agent := 1 }
    (decide (part < 32 ∧ image < 2 ^ 64 ∧ report < 2 ^ 64 ∧ imageLen < 2 ^ 32 ∧ reportLen < 2 ^ 32))
    (hostOk s 0 image imageLen && hostOk s 0 report reportLen)
    (libInstallBody h part image report imageLen reportLen))

/-- The home copy's lines, written by the library installer. -/
def writeHome (s : State) : List (Nat × Nat) → List Byte → State
  | [], _ => s
  | (pc, line) :: l, b => writeHome (writeLine s pc line (b.take 64)) l (b.drop 64)

/-- SDG_LIB_COUNT (R189). -/
def setLibCount (s : State) : State :=
  setReg s (bSdg + 0x100) ((s.lib.filter fun kv => kv.2.used).length +
    2 ^ 16 * (s.lib.filter fun kv => kv.2.used && kv.2.tileRes).length)

/-- Log 123, DEDUCED. -/
def libDone (s : State) (e : Nat) (x : LibEntry) : State :=
  let s := writeHome s x.home (x.parts.flatMap (·.2.2))
  let s := takeResidence { s with lib := upd s.lib e fun y => { y with used := true, writing := false } } e
  let s := setLibCount s
  writeStatus s x.src
    { opcode := 0x0405, token := x.token, index := x.index, agent := 1, result0 := e,
      postmark := (vfOf s (cmdFunc s x.src)).postmark.toNat }

/-- LIB_INSTALL_DONE (R180). -/
def execLibInstallDone (entry : Nat) (s : State) : Out1 :=
  done s (if (look s.lib entry).writing then libDone s entry (look s.lib entry) else s)

/-- A fill or a Siding still needs the entry. -/
def entryInUse (s : State) (e : Nat) : Bool :=
  s.fills.any (fun f => decide (f.source ≠ 2 ∧ f.entry = e)) ||
    s.sdg.any fun kv => kv.2.groups.any fun g => decide (e ∈ sideEntries s kv.1 g.qmask)

def libRemoveBody (e : Nat) (s : State) (_ : Nat) : Reply :=
  if (look s.lib e).used = false then refuse s stState
  else if entryInUse s e then refuse s stInUse
  else accept (setLibCount { s with
    lib := erase s.lib e
    sdg := mapT s.sdg fun _ d => { d with lib := d.lib.filter fun kv => decide (kv.2 ≠ e + 1) } })

/-- LIB_REMOVE. -/
def execLibRemove (h : CmdHdr) (entry : Nat) (s : State) : Out1 :=
  done s (takeCommand s h { opcode := 0x0406, agent := 1 } (decide (entry < 4096)) true (libRemoveBody entry))

/-- The tile can join p's library: enabled, and used by no admitted timetable. -/
def tileFree (s : State) (k : Nat) : Bool :=
  !tileDead s k && (ctxsWhere s fun _ => true).all fun c =>
    (ttOf s c).report.tiles.all fun u => decide (tileKey u.die u.tile ≠ k)

def libtileAssignBody (p quad : Nat) (tiles : BitVec 16) (s : State) (_ : Nat) : Reply :=
  let x := look s.libTiles quad
  if (part s p).state ≠ .opened ∨ ownsAll (planNow s) p quad = false ∨ (x.tiles ≠ 0 ∧ x.part ≠ p) ∨
      (setBitsOf 12 tiles.toNat).any (fun i => !tileFree s ((memTiles quad).getD i 0)) then refuse s stState
  else
    let y : LibTiles := { tiles := x.tiles ||| tiles.setWidth 12, part := p }
    accept (setLibCount (renewResidence { s with libTiles := put s.libTiles quad y }))

/-- LIBTILE_ASSIGN. -/
def execLibtileAssign (h : CmdHdr) (part quad : Nat) (tiles : BitVec 16) (s : State) : Out1 :=
  done s (takeCommand s h { opcode := 0x0407, agent := 1 }
    (decide (part < 32 ∧ quad < 160 ∧ tiles.toNat < 2 ^ 12)) true (libtileAssignBody part quad tiles))

/-- The library tiles left after a release. -/
def tilesLeft (x : LibTiles) (tiles : BitVec 16) : LibTiles :=
  let t := x.tiles &&& ~~~(tiles.setWidth 12)
  if t = 0 then {} else { x with tiles := t }

def libtileReleaseBody (quad : Nat) (tiles : BitVec 16) (s : State) (_ : Nat) : Reply :=
  accept (setLibCount (renewResidence { s with libTiles := upd s.libTiles quad (tilesLeft · tiles) }))

/-- LIBTILE_RELEASE. -/
def execLibtileRelease (h : CmdHdr) (quad : Nat) (tiles : BitVec 16) (s : State) : Out1 :=
  done s (takeCommand s h { opcode := 0x0408, agent := 1 } (decide (quad < 160 ∧ tiles.toNat < 2 ^ 12)) true
    (libtileReleaseBody quad tiles))

/-! ## Scans (R183–R188) -/

/-- SDG_SCAN_STATUS of a scan (R190). -/
def scanStatus (s : State) (p quad : Nat) (isIn : Bool) (result : Nat) : State :=
  setReg s (bSdg + 0x700) (quad + 2 ^ 8 * ofBool isIn + 2 ^ 9 * result + 2 ^ 12 * p)

/-- p owns every slice of the quadrant and no timetable of p has cells in it (R183). Log 53, DEDUCED. -/
def scanAllowed (s : State) (p quad : Nat) : Bool :=
  decide ((part s p).state = .opened) && ownsAll (planNow s) p quad &&
    (ctxsWhere s fun _ => true).all fun c => decide (partOfCtx c ≠ p) || decide (quad ∉ quadsOf (ttOf s c).report)

/-- Tiles of a quadrant taken for a scan, or given back. -/
def markScan (s : State) (quad : Nat) (on : Bool) : State :=
  (quadTiles s quad).foldl (fun s k => setTile s k fun t => { t with scanning := on }) s

/-- A scan-out or dump scan starts: bundle ID and sequence number are drawn (R185, R186). -/
def startScanOut (s : State) (p quad kind dest : Nat) : State :=
  let dom := domOfPart s p
  let sc : Scan :=
    { part := p, quad := quad, kind := kind, addr := dest, before := sidingOf s p quad, bundleId := (look s.domains dom).bundleCtr + 1,
      seq := (look s.sdg p).scanSeq + 1, startTick := s.tick.count }
  let s := { s with
    scans := s.scans ++ [sc]
    domains := upd s.domains dom fun d => { d with bundleCtr := d.bundleCtr + 1 }
    sdg := upd s.sdg p fun d => { d with scanSeq := d.scanSeq + 1 } }
  scanStatus (if sidingBusy (sidingOf s p quad) then s else setSiding s p quad .scanning) p quad false 0

/-- A scan was refused (R190). -/
def noteScanFail (s : State) : State := orReg s (bSdg + 0x24) 0x40

/-- Where the refusal of a scan command is its body's own or LEVEL, SCAN_FAIL sets (R183, R190). Log 248, DEDUCED. -/
def scanReply (r : Reply) : Reply :=
  if r.status ∈ [stLevel, stState, stDigest, stMismatch] then { r with state := noteScanFail r.state } else r

/-- A scan command is taken. -/
def takeScan (s : State) (h : CmdHdr) (row : OpRow) (params address : Bool) (body : State → Nat → Reply) : State :=
  takeWith s h row fun s i => scanReply (judge s h row params address body i)

def scanOutBody (h : CmdHdr) (p quad dest : Nat) (s : State) (i : Nat) : Reply :=
  if tenantHalted s p then refuseAt s stLevel (levelCode s.level) 0
  else if scanAllowed s p quad = false ∨ sidingBusy (sidingOf s p quad) then refuse s stState
  else acceptAt (addEffect (markScan (startScanOut s p quad 1 dest) quad true) h i noTick (.scan p quad))
    (tickCount s) h.off

/-- SCAN_OUT. -/
def execScanOut (h : CmdHdr) (part quad dest : Nat) (s : State) : Out1 :=
  done s (takeScan s h { opcode := 0x0409, agent := 1, pends := true }
    (decide (part < 32 ∧ quad < 160 ∧ dest < 2 ^ 64)) (hostOk s 0 dest (bundleLength (scanLength s quad)))
    (scanOutBody h part quad dest))

def scanDumpBody (h : CmdHdr) (p quad dest : Nat) (s : State) (i : Nat) : Reply :=
  if quad ∈ (look s.sdg p).dumpable ∧ s.scans.all (fun x => decide (¬(x.part = p ∧ x.quad = quad))) then
    acceptAt (addEffect (markScan (startScanOut s p quad 2 dest) quad true) h i noTick (.scan p quad))
      (tickCount s) h.off
  else refuse s stState

/-- SCAN_DUMP (R183): accepted at beacon too. -/
def execScanDump (h : CmdHdr) (part quad dest : Nat) (s : State) : Out1 :=
  done s (takeScan s h { opcode := 0x040A, agent := 1, pends := true, atBeacon := true }
    (decide (part < 32 ∧ quad < 160 ∧ dest < 2 ^ 64)) (hostOk s 0 dest (bundleLength (scanLength s quad)))
    (scanDumpBody h part quad dest))

/-- What the checks of R187 find in a bundle. -/
inductive BundleCheck where
  | ok (seq hole : Nat) (plain : List Byte)
  | badTag
  | mismatch
  deriving DecidableEq, Repr

/-- Tiles of a quadrant whose images a bundle with this hole mask holds, in ascending local index (R185). -/
def tilesUnder (quad hole : Nat) : List Nat := (tilesOfQuad quad).filter fun k => !bitOf hole (localIndex (k % 256))

/-- Open a bundle in host-pool memory: header, and the plaintext where every chunk's tag verifies (R185, R188). -/
def openBundle (s : State) (p : Nat) (b : List Byte) : Option (List Byte × List Byte) :=
  let hdr := slice b 0 128
  let plen := leAt hdr 0x38 8
  if b.length < bundleLength plen then none
  else (openChunks (scanKey s (domOfPart s p)) hdr (leAt hdr 0x10 8) 0 (chunkCount plen)
    ((b.drop 128).take (bundleLength plen - 128))).map fun x => (hdr, x)

/-- The images fit the tiles they came from, with reserved bytes of zero. -/
def imagesOk (quad hole : Nat) (plain : List Byte) : Bool :=
  let ks := tilesUnder quad hole
  decide (plain.length = (ks.map fun k => imageSize (kindOfTile (k % 256))).sum) &&
    (scanItems plain ks).all fun x => let k := kindOfTile (x.1 % 256)
      dynReservedOk k (slice x.2 (storeSize k + 2 * setSize k) (dynSize k))

/-- The checks of R187. The images lie by the hole mask of the quadrant they came from, which may have other holes than
the target. Log 127, DEDUCED. -/
def checkBundle (s : State) (p quad : Nat) (b : List Byte) : BundleCheck :=
  if leAt b 0 2 ≠ 1 ∨ leAt b 8 4 ≠ domOfPart s p then .badTag
  else match openBundle s p b with
    | none => .badTag
    | some (hdr, plain) =>
      if leAt hdr 0x0C 4 ≠ reg s (bAri + 0x20) ∨ leAt hdr 5 1 ≠ periodCode s ∨
          leAt hdr 0x30 8 &&& holeMask s quad ≠ 0 ∨
          ((vfOf s (funcOfPart s p)).ctrlT.getLsbD 2 ∧ leAt hdr 0x18 8 ≠ (look s.sdg p).scanSeq) ∨
          imagesOk quad (leAt hdr 0x28 8) plain = false then .mismatch
      else .ok (leAt hdr 0x18 8) (leAt hdr 0x28 8) plain

/-- A refused scan-in clears the quadrant and leaves it STALE (R187). Log 127, DEDUCED. -/
def refuseScanIn (s : State) (p quad result : Nat) : State :=
  scanStatus (setSiding (clearQuad s p quad) p quad .stale) p quad true result

/-- Log 127, DEDUCED. -/
def scanInBody (h : CmdHdr) (p quad src len : Nat) (s : State) (i : Nat) : Reply :=
  if tenantHalted s p then refuseAt s stLevel (levelCode s.level) 0
  else if scanAllowed s p quad = false ∨ sidingBusy (sidingOf s p quad) then refuse s stState
  else
    let r := hostRead s (.function 0) 0 src len
    match checkBundle r.1 p quad ((r.2.map (·.1)).getD []) with
    | .badTag => refuse (refuseScanIn r.1 p quad 3) stDigest
    | .mismatch => refuse (refuseScanIn r.1 p quad 4) stMismatch
    | .ok seq hole plain =>
      let sc : Scan := { part := p, quad := quad, isIn := true, addr := src, len := len, seq := seq,
                         startTick := s.tick.count, plain := plain, hole := hole }
      let s := scanStatus (setSiding (markScan { r.1 with scans := r.1.scans ++ [sc] } quad true) p quad .scanning) p quad true 0
      acceptAt (addEffect s h i noTick (.scan p quad)) (tickCount s) h.off

/-- SCAN_IN. -/
def execScanIn (h : CmdHdr) (part quad src len : Nat) (s : State) : Out1 :=
  done s (takeScan s h { opcode := 0x040B, agent := 1, pends := true }
    (decide (part < 32 ∧ quad < 160 ∧ src < 2 ^ 64 ∧ 128 ≤ len ∧ len < 2 ^ 64)) (hostOk s 0 src len)
    (scanInBody h part quad src len))

/-- Log 128, DEDUCED. -/
def dropScan (s : State) (x : Scan) : State :=
  let s := markScan s x.quad false
  { s with
    scans := s.scans.filter fun y => decide (y ≠ x)
    effects := s.effects.filter fun e => decide (e.effect ≠ .scan x.part x.quad) }

/-- The bundle of a scan is written to host-pool memory. -/
def writeBundle (s : State) (x : Scan) (incomplete : Bool) (plain : List Byte) : State :=
  let hdr := headerNow s x.part x.quad x.kind x.bundleId x.seq x.startTick.toNat incomplete plain.length
  hostWrite s 0 none x.addr (bundleBytes (scanKey s (domOfPart s x.part)) hdr plain)

/-- Restore both sets and the dynamic state of every enabled tile whose image the bundle holds (R187). -/
def restoreQuad (s : State) (p quad hole : Nat) (plain : List Byte) : State :=
  (scanItems plain (tilesUnder quad hole)).foldl (fun s x =>
    if tileDead s x.1 then s else setTile s x.1 fun t => restoreTile t p (kindOfTile (x.1 % 256)) x.2) s

/-- The Siding after a scan: as before a scan-out, which leaves it as it was, STALE after a scan-in (R170, R187). -/
def sidingAfter (s : State) (x : Scan) : State :=
  if x.isIn then setSiding s x.part x.quad .stale
  else if sidingOf s x.part x.quad = .scanning then setSiding s x.part x.quad x.before else s

/-- A scan completes. A scan-in clears first what the bundle holds no image of. -/
def scanDone (s : State) (x : Scan) : State :=
  let s := dropScan s x
  let s := if x.isIn then restoreQuad (clearQuad s x.part x.quad) x.part x.quad x.hole x.plain
    else writeBundle s x false (scanPlain s x.part x.quad)
  orReg (scanStatus (sidingAfter s x) x.part x.quad x.isIn 1) (bSdg + 0x24) 0x20

/-- A changeover aborts a dump scan; its bundle is closed INCOMPLETE (R183). Log 128, DEDUCED. -/
def abortScan (s : State) (x : Scan) : State :=
  let s := dropScan s x
  let s := if x.isIn then s else writeBundle s x true []
  noteScanFail (scanStatus (sidingAfter s x) x.part x.quad x.isIn 2)

/-- SCAN_COMPLETE (R184, R185, R187). -/
def execScanComplete (part quad : Nat) (s : State) : Out1 :=
  done s (match s.scans.find? fun x => decide (x.part = part ∧ x.quad = quad) with
    | some x => scanDone s x
    | none => s)

end Sys2Proof.Machine
end

