-- ==== Sys2Proof/Machine/Dumps.lean ====
section
/-!
DEFINITION. Collection before a clear and the dump store (R380–R382), and the read-and-clear of a context
(R383).
-/

namespace Sys2Proof.Machine

/-! ## Read and clear (R383) -/

/-- Slots of context c in a compute tile. -/
def slotsOfCtx (t : Tile) (c : Nat) : List SlotImg :=
  ((List.range 8).map (slotImg (mainSet t (partOfCtx c)))).filter fun sl => sl.valid && decide (sl.ctx = c)

/-- Queues, exact accumulators and tags that the context's slots claim. -/
def claimedQueues (l : List SlotImg) : List Nat := (List.range 8).filter fun q => l.any fun sl => bitOf sl.qmask q
def claimedAccs (l : List SlotImg) : List Nat := (List.range 4).filter fun a => l.any fun sl => bitOf sl.accMask a
def claimsTag (l : List SlotImg) (g : BitVec 16 × BitVec 8) : Bool :=
  l.any fun sl => decide (g.2.toNat &&& sl.tagq ≠ 0)

/-- The bytes read from a tile for context c. -/
def clearStream (t : Tile) (c : Nat) : List Byte :=
  let l := slotsOfCtx t c
  l.flatMap (fun sl => getBytes t.ls sl.lsBase sl.lsLen) ++
    (claimedQueues l).flatMap (fun q => wordsBytes 4 (look t.queues q)) ++
    (claimedAccs l).flatMap (fun a => leBytes 40 (look t.exact a).a.toNat) ++
    (l.filter (·.pers = 2)).flatMap (fun sl => coreBytes (look t.cores sl.ix)) ++
    (t.tags.filter (claimsTag l)).flatMap fun g => leBytes 2 g.1.toNat ++ leBytes 1 g.2.toNat

/-- The tile after context c's state in it is zeroed; its slots stay in the set. -/
def clearCtxTile (t : Tile) (c : Nat) : Tile :=
  let l := slotsOfCtx t c
  { t with
    ls := t.ls.filter fun b => !l.any fun sl => decide (sl.lsBase ≤ b.1 ∧ b.1 < sl.lsBase + sl.lsLen)
    queues := t.queues.filter fun q => decide (q.1 ∉ claimedQueues l)
    exact := t.exact.filter fun a => decide (a.1 ∉ claimedAccs l)
    cores := t.cores.filter fun k => !l.any fun sl => decide (sl.ix = k.1)
    slots := t.slots.filter fun k => !l.any fun sl => decide (sl.ix = k.1)
    tags := t.tags.filter fun g => !claimsTag l g }

/-- Read-and-clear finished in every tile. -/
def clearCtxTiles (s : State) (c : Nat) : State :=
  { s with tiles := mapT s.tiles fun k t => if kindOfTile (k % 256) = 0 then clearCtxTile t c else t }

/-- Quadrants of a timetable whose state is still its own: the others have changed over since, and hold it no more
(R33). -/
def quadsKept (s : State) (c : Nat) : List Nat :=
  (quadsOf (ttOf s c).report).filter (runsFor s (partOfCtx c))

/-- A timetable that has faulted or overrun has stopped: its quadrants may be collected until their first changeover
(R33, R183). -/
def markDumpable (s : State) (c : Nat) : State :=
  { s with sdg := upd s.sdg (partOfCtx c) fun d => { d with dumpable := (d.dumpable ++ quadsKept s c).eraseDups } }

/-! ## The state bundle (R381) -/

def stateSection (type count : Nat) (body : List Byte) : List Byte :=
  if body = [] then [] else leBytes 2 type ++ leBytes 2 0 ++ leBytes 4 count ++ leBytes 8 body.length ++ body

/-- A word of a hardware queue still inside the dies. -/
def queueWordRec (q pos postmark dir : Nat) (w : TWord) : List Byte :=
  leBytes 2 q ++ leBytes 2 pos ++ leBytes 2 postmark ++ leBytes 1 dir ++ [0] ++ bytesOf23 w ++ [0]

def entryWordsOf (s : State) (c : Nat) : List (List Byte) :=
  match (ttOf s c).entryQ with
  | some q => ((queueOf s q).ready.flatMap fun r => r.words.map fun w => (r.postmark, w)).zipIdx.map fun x =>
      queueWordRec q x.2 x.1.1.toNat 0 x.1.2
  | none => []

def exitWordsOf (s : State) (c : Nat) : List (List Byte) :=
  (ttOf s c).heldExits.zipIdx.map fun x => queueWordRec x.1.q x.2 x.1.postmark.toNat 1 x.1.word

/-- Messages of a die: those in units, then the saved ones; with the unit or 0xFF. -/
def messagesOf (e : Engines) : List (Nat × Msg) :=
  (e.units.filterMap fun kv => kv.2.msg.map fun m => (kv.1, m)) ++ (e.saved ++ e.waiting).map fun m => (0xFF, m)

/-- Messages of a list of contexts, with die and unit. -/
def unitMessages (s : State) (cs : List Nat) : List (Nat × Nat × Msg) :=
  s.engines.flatMap fun kv => ((messagesOf kv.2).filter fun um => decide (um.2.ctx ∈ cs)).map fun um => (kv.1, um)

def saveSlotRec (x : Nat × Nat × Msg) : List Byte :=
  let m := x.2.2
  leBytes 1 x.1 ++ leBytes 1 x.2.1 ++ leBytes 2 (m.slot.getD 0) ++ leBytes 2 m.ctx ++ leBytes 2 0 ++
    leBytes 8 m.done ++ leBytes 8 m.len ++ leBytes 16 m.counter.toNat ++ leBytes 16 m.ghash.toNat ++ leBytes 8 0

/-- Hold places of a list of contexts: binding, place and hold. -/
def unitHolds (s : State) (cs : List Nat) : List (Nat × Nat × Hold) :=
  s.binds.flatMap fun kv =>
    if kv.2.ctx ∈ cs then (kv.2.holds.filter (·.2.used)).map fun h => (kv.1, h) else []

def holdRec (x : Nat × Nat × Hold) : List Byte :=
  let h := x.2.2
  leBytes 2 x.1 ++ leBytes 1 x.2.1 ++ leBytes 1 h.stage ++ leBytes 8 h.reqId.toNat ++ leBytes 12 h.nonce.toNat ++
    leBytes 8 h.replySeq ++ leBytes 4 h.body.length ++ List.replicate 12 0

def replyRec (x : Nat × Nat × Hold) : List Byte :=
  let h := x.2.2
  leBytes 2 x.1 ++ leBytes 1 x.2.1 ++ List.replicate 5 0 ++ leBytes 8 h.frame.length ++ padded16 h.frame

def clearRec (k c : Nat) (t : Tile) : List Byte :=
  let b := clearStream t c
  leBytes 1 (k / 256) ++ leBytes 1 (k % 256) ++
    leBytes 1 ((slotsOfCtx t c).map fun sl => 2 ^ sl.ix).sum ++ [0] ++ leBytes 2 c ++ leBytes 2 0 ++
    leBytes 8 b.length ++ padded16 b

/-- Compute tiles in which context c has slots. -/
def tilesOfCtx (s : State) (c : Nat) : List (Nat × Tile) :=
  s.tiles.filter fun kv => decide (kindOfTile (kv.1 % 256) = 0) && slotsOfCtx kv.2 c ≠ []

/-- Plaintext of a state bundle for a unit's contexts; with the read-and-clear stream for a context reset. -/
def statePlain (s : State) (cs : List Nat) (withClear : Bool) : List Byte :=
  let qw := cs.flatMap fun c => entryWordsOf s c ++ exitWordsOf s c
  let ms := unitMessages s cs
  let hs := unitHolds s cs
  let rs := hs.filter fun x => x.2.2.frame ≠ []
  let ts := if withClear then cs.flatMap fun c => (tilesOfCtx s c).map fun kt => (c, kt) else []
  stateSection 1 qw.length qw.flatten ++ stateSection 2 ms.length (ms.flatMap saveSlotRec) ++
    stateSection 3 hs.length (hs.flatMap holdRec) ++ stateSection 4 rs.length (rs.flatMap replyRec) ++
    stateSection 5 ts.length (ts.flatMap fun x => clearRec x.2.1 x.1 x.2.2)

/-! ## The dump area (R380) -/

/-- Length of the sealed dump area in bytes. -/
def dumpAreaLen (s : State) : Nat := bits (reg s (bFlt + 0x28)) 11 0 * 2 ^ 20
def dumpAreaBase (s : State) : Nat := reg64 s (bFlt + 0x20)

/-- Write one bundle of a dump into the area, or drop it and mark the dump INCOMPLETE. Log 210, DEDUCED. -/
def gatherBundle (s : State) (g : Gathering) (p quad kind : Nat) (incomplete : Bool) (plain : List Byte) :
    State × Gathering :=
  let dom := domOfPart s p
  let id := (look s.domains dom).bundleCtr + 1
  let hdr := headerNow s p quad kind id (look s.sdg p).scanSeq (tickCount s) incomplete plain.length
  let b := bundleBytes (scanKey s dom) hdr plain
  let a := dumpAreaBase s + g.used
  let fits := decide (g.used + b.length ≤ dumpAreaLen s) && hostOk s 0 a b.length
  let s := { s with domains := upd s.domains dom fun d => { d with bundleCtr := d.bundleCtr + 1 } }
  let d := { g.dump with
    bundles := g.dump.bundles ++ [(a, if fits then b.length else 0, id, kind, quad, incomplete || !fits)]
    incomplete := g.dump.incomplete || incomplete || !fits
    sealedPresent := g.dump.sealedPresent || fits }
  (if fits then hostWrite s 0 none a b else s, { dump := d, used := g.used + if fits then b.length else 0 })

/-- The sealed part is wanted. -/
def sealedWanted (s : State) : Bool := decide (dumpAreaLen s ≠ 0)

/-- Gather the state bundle of a unit. Log 211, DEDUCED. -/
def gatherState (s : State) (g : Gathering) (p : Nat) (cs : List Nat) (withClear : Bool) : State × Gathering :=
  if sealedWanted s = false then (s, g)
  else if 16 ≤ g.dump.bundles.length then (s, { g with dump := { g.dump with incomplete := true } })
  else gatherBundle s g p 0xFFFF 3 false (statePlain s cs withClear)

/-- The quadrant's state is still whole: a scan may collect it (R33, R183). -/
def quadWhole (s : State) (p quad : Nat) : Bool :=
  ownsAll (planNow s) p quad || decide (quad ∈ (look s.sdg p).dumpable)

/-- A dump of context c records the state that changeovers took before it as lost (R33, R380). -/
def noteLost (s : State) (c : Nat) (g : Gathering) : Gathering :=
  if (quadsOf (ttOf s c).report).all fun q => decide (q ∈ quadsKept s c) then g
  else { g with dump := { g.dump with incomplete := true } }

/-- Gather the dump scans of a list of quadrants; at most 16 bundles fit the table. -/
def gatherQuads (s : State) (g : Gathering) (p : Nat) : List Nat → State × Gathering
  | [] => (s, g)
  | q :: l =>
    if sealedWanted s = false then (s, g)
    else if 16 ≤ g.dump.bundles.length then (s, { g with dump := { g.dump with incomplete := true } })
    else
      let whole := quadWhole s p q
      let r := gatherBundle s g p q 2 (!whole) (if whole then scanPlain s p q else [])
      gatherQuads r.1 r.2 p l

/-! ## The public part (R382) -/

/-- Queues of the timetables of a list of contexts. Log 211, DEDUCED. -/
def unitQueues (s : State) (cs : List Nat) : List Nat :=
  (cs.flatMap fun c =>
    let t := ttOf s c
    [t.entryQ, t.exitQ, t.closeQ].filterMap id).eraseDups

/-- Queue summary: flags are [0] enabled, [1] doorbell error, the model's layout. Log 210, DEDUCED. -/
def queueSummary (s : State) (cs : List Nat) : List (Nat × Nat × Nat × Nat × Nat × BitVec 16) :=
  ((unitQueues s cs).take 64).map fun q =>
    let x := queueOf s q
    (q, x.kind, ofBool x.enabled + 2 * ofBool x.dbErr, x.prod, x.cons, (vfOf s x.func).postmark)

/-- Engine summary: state 1 in a unit, 0 otherwise, the model's code. Log 210, DEDUCED. -/
def engineSummary (s : State) (cs : List Nat) : List (Nat × Nat × Nat × Nat × Nat) :=
  ((unitMessages s cs).take 32).map fun x => (x.1, x.2.1, x.2.2.slot.getD 0, x.2.2.ctx, if x.2.1 = 0xFF then 0 else 1)

/-- Mask of context slots. -/
def ctxMaskOf (cs : List Nat) : BitVec 64 := BitVec.ofNat 64 (cs.foldl (fun m c => m ||| 2 ^ (c % 64)) 0)

/-- The next dump identifier, never 0. -/
def nextDumpId (s : State) : BitVec 16 := if s.dumpSeq + 1 = 0 then 1 else s.dumpSeq + 1

/-- Log records of a unit that no dump holds yet. -/
def recOfUnit (p : Option Nat) (cs : List Nat) (r : FaultRec) : Bool :=
  decide (r.dumpId = 0) &&
    match r.ctx with
    | some c => decide (c ∈ cs)
    | none => decide (r.part = p)

/-- Begin a dump of a unit: its public part as it stands now. The postmarks of a quarantine's suspects do not advance.
Log 210, DEDUCED. -/
def beginDump (s : State) (kind : Nat) (p : Option Nat) (cs : List Nat) : Gathering :=
  { dump :=
      { kind := kind, id := nextDumpId s, radio := (p.map fun p => (part s p).radio).getD false, tick := s.tick.count,
        part := p.getD 0xFF, func := (p.map (funcOfPart s)).getD 0, ctxMask := ctxMaskOf cs,
        queues := queueSummary s cs, engines := engineSummary s cs,
        marks := cs.map fun c => (c % 64, (ctxOf s c).postmark, (ctxOf s c).postmark + (if kind = 4 then 0 else 1)),
        recs := (s.fltLog.filter (recOfUnit p cs)).take 30,
        versions := s.life.versions ++ [BitVec.ofNat 32 (reg s (bAri + 0x20))], mapDigest := mapDigest s } }

/-- The dump enters the store of 16, and its records name it; KIND 12 notice to the unit's function. Log 210,
DEDUCED. -/
def storeDump (s : State) (g : Gathering) (cs : List Nat) : State :=
  let d := g.dump
  let p := if d.part = 0xFF then none else some d.part
  let s := { s with
    dumps := (d :: s.dumps).take 16
    dumpSeq := d.id
    fltLog := s.fltLog.map fun r => if recOfUnit p cs r then { r with dumpId := d.id } else r
    regs := regsPut s.regs (bFlt + 0x14) (regOf s.regs (bFlt + 0x14) ||| (0x20 + 0x40 * ofBool d.incomplete)) }
  notice s d.func { kind := 12, part := d.part, detail := leBytes 2 d.id.toNat ++ leBytes 1 (ofBool d.incomplete) }

end Sys2Proof.Machine
end

