-- ==== Sys2Proof/Machine/Activities.lean ====
section
/-!
DEFINITION. Maintenance activities: their entries and the conflicts between them (R338, R339, R341).
-/

namespace Sys2Proof.Machine

/-- Relation of two activity codes in the matrix of R338. -/
inductive Clash where
  | never | always | same
  deriving DecidableEq, Repr

def clashRow (code : Nat) : List Clash :=
  match code with
  | 1 => [.same, .same, .never, .always, .never, .never, .always, .never]
  | 2 => [.same, .always, .never, .never, .never, .never, .never, .never]
  | 3 => [.never, .never, .same, .never, .never, .never, .never, .never]
  | 4 => [.always, .never, .never, .always, .never, .always, .always, .always]
  | 5 => [.never, .never, .never, .never, .same, .never, .never, .never]
  | 6 => [.never, .never, .never, .always, .never, .always, .always, .never]
  | 7 => [.always, .never, .never, .always, .never, .always, .always, .never]
  | _ => [.never, .never, .never, .always, .never, .never, .never, .always]

/-- Two scopes are the same (R338): two retrains on one stack; a scrub pass whose mask holds the retrained
pseudo-channel; otherwise equal scopes. -/
def sameScope (code scope : Nat) (mask : BitVec 256) (scrubMask : BitVec 256) (a : Act) : Bool :=
  if code = 1 ∧ a.code = 1 then decide (scope / 32 = a.scope.toNat / 32)
  else if code = 1 ∧ a.code = 2 then scrubMask.getLsbD scope
  else if code = 2 ∧ a.code = 1 then mask.getLsbD a.scope.toNat
  else decide (scope = a.scope.toNat)

/-- The running activity that one of this code and scope would conflict with: its entry and itself. -/
def conflictAct (s : State) (code scope : Nat) (mask : BitVec 256) : Option (Nat × Act) :=
  s.acts.find? fun kv => kv.2.valid && decide (kv.2.outcome = 0) &&
    match (clashRow code).getD (kv.2.code - 1) .never with
    | .never => false
    | .always => true
    | .same => sameScope code scope mask ((s.scrub.map (·.mask)).getD 0) kv.2

/-- RESULT0 of a CONFLICT. -/
def actResult (code scope start : Nat) : Nat := code + scope * 2 ^ 16 + start * 2 ^ 40

/-- The lowest entry that is free for a new activity (R339). Log 61, DEDUCED. -/
def freeAct (s : State) : Nat :=
  ((List.range 32).find? fun i => let a := look s.acts i; !a.valid || decide (a.outcome ≠ 0)).getD 0

/-- Start an activity in an entry. Log 61, DEDUCED. -/
def startAct (s : State) (i code scope : Nat) (auto : Bool) : State :=
  let a : Act := { code := code, valid := true, auto := auto, scope := BitVec.ofNat 24 scope,
                   start := s.tick.count.setWidth 24 }
  { s with acts := put s.acts i a }

/-- An activity ends: 1 done, 2 aborted. Log 61, DEDUCED. -/
def endAct (s : State) (i outcome : Nat) : State :=
  { s with
    acts := upd s.acts i fun a => { a with outcome := outcome }
    regs := regsPut s.regs (bCmd + 0xC) (regOf s.regs (bCmd + 0xC) ||| 0x1) }

/-- The entry of the running activity of a code and scope. -/
def findAct (s : State) (code scope : Nat) : Option Nat :=
  (s.acts.find? fun kv => kv.2.valid && decide (kv.2.outcome = 0) && decide (kv.2.code = code) &&
    decide (kv.2.scope.toNat = scope)).map (·.1)

/-- End the running activity of a code and scope, where there is one. -/
def endActOf (s : State) (code scope outcome : Nat) : State :=
  match findAct s code scope with
  | some i => endAct s i outcome
  | none => s

/-- Start an activity or refuse with CONFLICT. `ok` is the state with the activity's own part begun. -/
def withActivity (s : State) (code scope : Nat) (mask : BitVec 256) (ok : Nat → State → Reply) : Reply :=
  match conflictAct s code scope mask with
  | some (i, a) => refuseAt s stConflict (actResult a.code a.scope.toNat a.start.toNat) i
  | none => ok (freeAct s) s

/-- The tick and offset in which an accepted activity starts (R333). -/
def startedNow (h : CmdHdr) (s : State) : Reply := acceptAt s (tickCount s) h.off

end Sys2Proof.Machine
end

