-- ==== Sys2Proof/Machine/Memory.lean ====
section
/-!
DEFINITION. The memory engine (R199–R206, R211), epochs, the assignment of pseudo-channels and pages
(R195–R199), host-pool accesses (R205–R209) and scrubbing.
-/

namespace Sys2Proof.Machine

/-! ## Epochs (R202, R206) -/

/-- Key of a hub die's block of a domain; 1024 is the blank key. -/
def blockKey (hub dom : Nat) : Nat := 2048 * hub + dom

/-- Values that remain of a block. -/
def blockLeft (b : Block) : Nat := b.left + b.left2

/-- A block after one value is drawn. -/
def drawn (b : Block) : Block :=
  let b := { b with next := b.next + 1, left := b.left - 1 }
  let b := if b.left = 0 then { b with next := b.next2, left := b.left2, next2 := 0, left2 := 0 } else b
  { b with asked := decide (blockLeft b ≤ 1024) }

/-- Draw an epoch where more than `keep` values remain. Log 33, DEDUCED. -/
def drawEpoch (s : State) (hub dom keep : Nat) : Option (Nat × State) :=
  let b := look s.blocks (blockKey hub dom)
  if keep < blockLeft b then some (b.next, { s with blocks := upd s.blocks (blockKey hub dom) drawn }) else none

/-- A block after a grant of 2,048 values from `first` on. -/
def granted (b : Block) (first : Nat) : Block :=
  if b.left = 0 then { b with next := first, left := 2048, asked := false }
  else { b with next2 := first, left2 := 2048, asked := false }

/-- Pages sealed under a domain, or, as domain 1,024, under the blank key. -/
def sealedUnder (s : State) (dom : Nat) (kv : Nat × Page) : Bool :=
  (pcOf s (kv.1 / 512)).sealed && decide (sealDom kv.2 = dom) && (kv.2.blank || decide (kv.2.kind ≠ .free))

/-- No region of a domain is still under the old key. -/
def allMoved (s : State) (dom : Nat) : Bool :=
  s.pages.all fun kv => !sealedUnder s dom kv || decide (kv.2.gen = (look s.domains dom).gen)

/-- The old key is erased when the last region has moved (R206, R218). -/
def keyMoved (s : State) (dom : Nat) : State :=
  if (look s.domains dom).state = .replacing ∧ allMoved s dom then
    let s := { s with domains := upd s.domains dom fun d => { d with state := .active, oldKey := none } }
    if dom < blankDom then orReg s (bSeal + 0x28) 0x10 else s
  else s

/-- A new memory key: the generation flips, epochs start again, and every region of the domain waits for its rekey, one
that is being rekeyed too, since that goes on under the old key; a page in Clearing waits once it has cleared (R206).
-/
def replaceKey (s : State) (dom : Nat) : State :=
  let moved := s.pages.any (sealedUnder s dom)
  { s with
    fresh := s.fresh + 1
    domains := upd s.domains dom fun d =>
      { d with
        memKey := s.fresh
        oldKey := if moved then some d.memKey else none
        gen := !d.gen
        epoch := 0
        state := if moved then .replacing else d.state }
    pages := mapT s.pages fun k pg =>
      if sealedUnder s dom (k, pg) ∧ pg.kind ≠ .clearing then { pg with rekeyWaiting := true } else pg }

/-- The next grant would take the counter past 0xFFFF_FFFF. -/
def epochsOver (e : Nat) : Bool := decide (2 ^ 32 ≤ e + 2048)

/-- A grant of a domain's epochs, or of the blank key's; the key is replaced when its counter runs out. -/
def grantDomain (s : State) (hub dom : Nat) : State :=
  let s := if epochsOver (look s.domains dom).epoch then replaceKey s dom else s
  let e := (look s.domains dom).epoch
  { s with
    domains := upd s.domains dom fun d => { d with epoch := e + 2048 }
    blocks := upd s.blocks (blockKey hub dom) fun b => granted b e }

/-- A hub die asks when 1,024 values or fewer remain, and the SC runs. -/
def grantDue (s : State) (hub dom : Nat) : Bool :=
  decide (hub < 8) && decide (blockLeft (look s.blocks (blockKey hub dom)) ≤ 1024) && agentUp s 2

/-- EPOCH_GRANT (R202, R206). Log 33, DEDUCED. -/
def execEpochGrant (hub dom : Nat) (s : State) : Out1 :=
  done s (if grantDue s hub dom ∧ dom ≤ blankDom ∧ (look s.domains dom).state ≠ .empty then grantDomain s hub dom else s)

/-! ## Who the engine names -/

/-- The owner of a page, or of its pseudo-channel where the page has none (R210). Log 27, DEDUCED. -/
def pageOwner (s : State) (pc page : Nat) : Named :=
  let pg := pageAt s pc page
  let x := pcOf s pc
  match pg.kind with
  | .context => .context pg.owner
  | .function => .function pg.owner
  | _ => if x.owner = .partition then .partition x.part else .function 0

/-- Lines of a page with listed metadata, from a line on, in rising order. -/
def listedLines (s : State) (pc page : Nat) (from' : Nat) : List Nat :=
  ((s.lines.filter fun kv => decide (kv.1 / 2 ^ 24 = pc ∧ kv.1 % 2 ^ 24 / 32768 = page ∧
    from' ≤ kv.1 % 2 ^ 24 % 32768)).map fun kv => kv.1 % 2 ^ 24)

/-! ## Rekeying (R204, R206) -/

/-- Regions of a pseudo-channel that wait for a rekey: page number and region. Log 26, DEDUCED. -/
def waitingRegions (s : State) (pc : Nat) : List (Nat × Page) :=
  (s.pages.filter fun kv => decide (kv.1 / 512 = pc) && kv.2.rekeyWaiting).map fun kv => (kv.1 % 512, kv.2)

def isRekeying (s : State) (pc : Nat) : Bool :=
  s.pages.any fun kv => decide (kv.1 / 512 = pc) && kv.2.rekeying

/-- The region that goes next: of those that have reached the rekey mark or that a command names, the one whose
highest counter is greatest, ties to the lowest page; then those that a new key waits for, in page order (R204, R206).
Log 26, DEDUCED. -/
def nextRegion (s : State) (pc : Nat) : Option (Nat × Page) :=
  let w := waitingRegions s pc
  let marked := w.filter fun x => decide (0x800000 ≤ x.2.hi) || x.2.act
  match marked with
  | [] => w.head?
  | x :: l => some (l.foldl (fun best y => if best.2.hi < y.2.hi then y else best) x)

/-- A region's rekey begins under an epoch. -/
def beginRekey (s : State) (pc page e : Nat) : State :=
  { s with pages := upd s.pages (pageKey pc page) fun pg =>
      { pg with rekeyWaiting := false, rekeying := true, rekeyEpoch := e, rekeyHi := 0, rekeyPtr := 0,
                rekeyGen := (look s.domains (sealDom pg)).gen
                rekeyTick := tickCount s } }

/-- REKEY_START: one region at a time on each pseudo-channel. Log 26, DEDUCED. -/
def rekeyStart (s : State) (pc : Nat) : State :=
  if isRekeying s pc then s
  else match nextRegion s pc with
    | none => s
    | some (page, pg) =>
      match drawEpoch s (pc / 32) (sealDom pg) 0 with
      | some (e, s) => beginRekey s pc page e
      | none => s

def execRekeyStart (pc : Nat) (s : State) : Out1 := done s (rekeyStart s pc)

/-- Rekey one line: poison stays, a bad tag poisons, any other line is sealed under the new epoch and COUNTER 0. -/
def rekeyLine (s : State) (pc line : Nat) : State :=
  match lineRead s pc line with
  | .poisoned => s
  | .tagBad =>
    let s := if lineUe s pc line then countUe s else s
    memFault (poison s pc line) 32 (pageOwner s pc (pageOfLine line)) pc line
  | _ =>
    let pg := pageAt s pc (pageOfLine line)
    { s with lines := upd s.lines (lineKey pc line) fun l =>
        { l with
          counter := 0
          tag := l.tag.map fun _ => (sealLine s pg true pc line 0 (lineBytes s pc line)).2 } }

def setRekeyPtr (s : State) (pc page n : Nat) : State :=
  { s with pages := upd s.pages (pageKey pc page) fun pg => { pg with rekeyPtr := n } }

/-- The page of a pseudo-channel whose region is rekeying. -/
def rekeyPage (s : State) (pc : Nat) : Option (Nat × Page) :=
  (s.pages.find? fun kv => decide (kv.1 / 512 = pc) && kv.2.rekeying).map fun kv => (kv.1 % 512, kv.2)

/-- The region takes its new epoch; a commanded rekey's activity ends. Log 24, DESIGN CHOICE. -/
def rekeyDone (s : State) (pc page : Nat) (pg : Page) : State :=
  let s := (listedLines s pc page pg.rekeyPtr).foldl (fun s n => rekeyLine s pc n) s
  let s := { s with pages := upd s.pages (pageKey pc page) fun pg =>
    { pg with epoch := pg.rekeyEpoch, hi := pg.rekeyHi, gen := pg.rekeyGen, rekeying := false, rekeyGen := false
              rekeyHi := 0, rekeyPtr := 0, rekeyEpoch := 0, rekeyTick := 0, act := false } }
  let s := incReg s (bSeal + 0x10) 1
  let s := if pg.act then endActOf s 3 (pc + 2 ^ 8 * page) 1 else s
  keyMoved s (sealDom pg)

/-- REKEY_DONE: the lines the pointer has not passed are rekeyed, and the region takes its new epoch. -/
def execRekeyDone (pc : Nat) (s : State) : Out1 :=
  done s (match rekeyPage s pc with
    | some (page, pg) => rekeyDone s pc page pg
    | none => s)

/-! ## Clearing (R199) -/

/-- A page enters Clearing for its release: the rekey in progress is abandoned (R214). -/
def clearing (pg : Page) : Page :=
  { kind := .clearing, owner := pg.owner, blank := true, domain := 0, frame := pg.frame, next := .free }

/-- End the activity of an abandoned rekey. -/
def dropRekeyAct (s : State) (pc page : Nat) : State :=
  if (pageAt s pc page).act then endActOf s 3 (pc + 2 ^ 8 * page) 2 else s

def releasePage (s : State) (pc page : Nat) : State :=
  let dom := sealDom (pageAt s pc page)
  let s := dropRekeyAct s pc page
  keyMoved { s with pages := upd s.pages (pageKey pc page) clearing } dom

/-- A clear starts: on a sealed page it draws an epoch, and waits while 512 values or fewer remain. -/
def clearStart (s : State) (pc page : Nat) : Option State :=
  let pg := pageAt s pc page
  if pg.clearStarted then some s
  else if (pcOf s pc).sealed then
    (drawEpoch s (pc / 32) (sealDom pg) 512).map fun r =>
      { r.2 with pages := upd r.2.pages (pageKey pc page) fun g =>
          { g with clearStarted := true, epoch := r.1, hi := 0,
                   gen := (look r.2.domains (sealDom g)).gen } }
  else some { s with pages := upd s.pages (pageKey pc page) fun g => { g with clearStarted := true } }

/-- Write zeros on the lines of a page from one on, below another: no line keeps its bytes or metadata. -/
def clearLines (s : State) (pc page lo hi : Nat) : State :=
  let a := 32768 * page + lo
  let b := 32768 * page + hi
  { s with
    mem := s.mem.filter fun c => !(decide (byteKey pc a 0 ≤ c.1) && decide (c.1 < byteKey pc b 0))
    lines := s.lines.filter fun kv => !(decide (lineKey pc a ≤ kv.1) && decide (kv.1 < lineKey pc b)) }

/-- The status of the PAGE_ASSIGN that waited for an assignment clear (R199). -/
def assignStatus (s : State) (w : Option (CmdSrc × BitVec 64 × BitVec 16)) : State :=
  match w with
  | some (src, token, index) =>
    writeStatus s src { opcode := 0x0503, token := token, index := index.toNat, agent := 1,
                        postmark := (vfOf s (srcFunc s src)).postmark.toNat }
  | none => s

/-- Pages of a pseudo-channel that are not Free. -/
def busyPages (s : State) (pc : Nat) : Bool :=
  s.pages.any fun kv => decide (kv.1 / 512 = pc) && decide (kv.2.kind ≠ .free)

/-- A pseudo-channel being freed whose last page has cleared becomes free. Log 25, DEDUCED. -/
def freedPc (s : State) (pc : Nat) : State :=
  if (pcOf s pc).freeing ∧ busyPages s pc = false then
    { s with
      pcs := upd s.pcs pc fun x => { physDelta := x.physDelta, failed := x.failed, retraining := x.retraining, copy := x.copy,
                                        switching := x.switching }
      pages := s.pages.filter fun kv => decide (kv.1 / 512 ≠ pc)
      lines := s.lines.filter fun kv => decide (kv.1 / 2 ^ 24 ≠ pc) }
  else s

/-- The page as its clear leaves it. -/
def clearedPage (sealed : Bool) (pg : Page) : Page :=
  if pg.next = .free then { blank := sealed, epoch := pg.epoch, gen := pg.gen }
  else { kind := pg.next, owner := pg.nextOwner, orphan := pg.orphan, domain := pg.domain, blank := false, frame := pg.nextFrame,
         epoch := pg.epoch, gen := pg.gen }

/-- A page whose assignment clear ends on a pseudo-channel that is being freed meanwhile enters Clearing again.
Log 25, DEDUCED. -/
def reclear (s : State) (pc page : Nat) : State :=
  if (pcOf s pc).freeing ∧ (pageAt s pc page).kind ≠ .free then releasePage s pc page else s

/-- A page that cleared under a key replaced meanwhile waits for its rekey (R206). -/
def lateGen (s : State) (pc : Nat) (pg : Page) : Page :=
  if (pcOf s pc).sealed ∧ pg.gen ≠ (look s.domains (sealDom pg)).gen then { pg with rekeyWaiting := true } else pg

/-- A clear ends. Log 24, DESIGN CHOICE. -/
def clearDone (s : State) (pc page : Nat) : State :=
  let pg := pageAt s pc page
  let s := clearLines s pc page 0 32768
  let s := { s with pages := upd s.pages (pageKey pc page) fun g => lateGen s pc (clearedPage (pcOf s pc).sealed g) }
  let s := keyMoved s (sealDom (pageAt s pc page))
  freedPc (reclear (assignStatus (orReg s (bMem + 0x68) 0x8) pg.waiting) pc page) pc

/-- PAGE_CLEAR_DONE (R199): the lines not yet written are written, unless the clear still waits for an
epoch. -/
def execPageClearDone (pc page : Nat) (s : State) : Out1 :=
  done s (if (pageAt s pc page).kind = .clearing then
      match clearStart s pc page with
      | some s => clearDone s pc page
      | none => s
    else s)

/-! ## Copying to a spare (R414) -/

/-- One line is copied; a line with an uncorrectable error raises its fault and names the page owner. -/
def copyLine (s : State) (pc line : Nat) : State :=
  let who := pageOwner s pc (pageOfLine line)
  if (lineAt s pc line).ue then
    if (pcOf s pc).sealed then memFault (poison (countUe s) pc line) 32 who pc line
    else memFault (countUe s) 37 who pc line
  else s

/-- The engine copies the next line of a position. Log 22, DEDUCED. -/
def copyStep (s : State) (pc line : Nat) : State :=
  copyLine { s with pcs := upd s.pcs pc fun x => { x with copy := some (line + 1) } } pc line

/-! ## Scrubbing (R211) -/

/-- A corrected error of a line is rewritten away and counted. -/
def scrubCe (s : State) (pc line : Nat) : State :=
  if (lineAt s pc line).ce then
    incReg { s with lines := upd s.lines (lineKey pc line) fun l => { l with ce := false } } (bMem + 0x58) 1
  else s

/-- Scrub one data line. -/
def scrubData (s : State) (pc line : Nat) : State :=
  let who := pageOwner s pc (pageOfLine line)
  let s := scrubCe s pc line
  match lineRead s pc line with
  | .tagBad =>
    let s := if lineUe s pc line then countUe s else s
    memFault (poison s pc line) 32 who pc line
  | .plainUe => memFault (countUe s) 37 who pc line
  | _ => s

/-- Scrub one metadata line: where it reads as uncorrectable, no tag of its eight lines verifies. -/
def scrubMeta (s : State) (pc n : Nat) : State :=
  let s := scrubCe s pc n
  if (lineAt s pc n).ue then
    let s := (entriesOf n).foldl (fun s l => scrubData s pc l) s
    { s with lines := upd s.lines (lineKey pc n) fun l => { l with ue := false } }
  else s

/-- Scrub one line (R211). -/
def scrubLine (s : State) (pc line : Nat) : State :=
  if line < dataLines (pcOf s pc).sealed then scrubData s pc line else scrubMeta s pc line

/-- Lines that a scrub reads: every data line and metadata line (R211). -/
def scrubLines (sealed : Bool) : Nat := if sealed then journalLine else dataLines false

/-- MEM_SCRUB_STATUS. -/
def showScrub (s : State) : State :=
  let old := reg s (bMem + 0x54)
  match s.scrub with
  | some x => setReg s (bMem + 0x54) (x.pc + 2 ^ 8 + bits old 31 16 * 2 ^ 16)
  | none => setReg s (bMem + 0x54) (bits old 7 0 + bits old 31 16 * 2 ^ 16)

/-- The first pseudo-channel of a mask from one on. -/
def maskedFrom (mask : BitVec 256) (pc : Nat) : Option Nat :=
  (List.range 256).find? fun i => decide (pc ≤ i) && mask.getLsbD i

/-- The scrub's place after a line. -/
def scrubNext (s : State) (x : Scrub) : Scrub :=
  if x.line + 1 < scrubLines (pcOf s x.pc).sealed then { x with line := x.line + 1 }
  else match maskedFrom x.mask (x.pc + 1) with
    | some p => { x with pc := p, line := 0 }
    | none => { x with pc := 256, line := 0 }

/-- Log 22, DEDUCED. -/
def scrubStep (s : State) (x : Scrub) : State :=
  showScrub (scrubLine { s with scrub := some (scrubNext s x) } x.pc x.line)

/-! ## Engine slots (R203) -/

/-- The lowest page of a pseudo-channel in Clearing that still has lines to write. -/
def clearPage (s : State) (pc : Nat) : Option (Nat × Page) :=
  (s.pages.find? fun kv => decide (kv.1 / 512 = pc) && decide (kv.2.kind = .clearing) &&
    decide (kv.2.clearPtr < 32768)).map fun kv => (kv.1 % 512, kv.2)

/-- One line of a clear. Log 22, DEDUCED. -/
def clearStep (s : State) (pc page : Nat) (pg : Page) : State :=
  match clearStart s pc page with
  | none => s
  | some s =>
    let s := clearLines s pc page pg.clearPtr (pg.clearPtr + 1)
    { s with pages := upd s.pages (pageKey pc page) fun g => { g with clearPtr := pg.clearPtr + 1 } }

/-- The scrub or nothing. -/
def scrubTurn (s : State) (pc : Nat) : State :=
  match s.scrub with
  | some x => if x.pc = pc then scrubStep s x else s
  | none => s

/-- ENGINE_ACCESS: rekey, then the copy of a retrain, then clearing, then scrubbing (R203, R414). Log 22,
DEDUCED. Log 32, DESIGN CHOICE. -/
def engineAccess (s : State) (pc : Nat) : State :=
  match rekeyPage s pc with
  | some (page, pg) =>
    if pg.rekeyPtr < 32768 then setRekeyPtr (rekeyLine s pc (32768 * page + pg.rekeyPtr)) pc page (pg.rekeyPtr + 1)
    else s
  | none =>
    match (pcOf s pc).copy with
    | some line => if line < 12582912 then copyStep s pc line else s
    | none =>
      match clearPage s pc with
      | some (page, pg) => clearStep s pc page pg
      | none => scrubTurn s pc

def execEngineAccess (pc : Nat) (s : State) : Out1 :=
  done s (if allocatable pc then engineAccess s pc else s)

/-! ## Host-pool accesses (R205–R209) -/

/-- HOST_POOL_READ: the bytes, zeros with a poisoned completion after a fault. -/
def hostPoolRead (s : State) (f : Nat) (ctx : Option Nat) (addr len : Nat) : State :=
  let r := hostRead s (hostWho f ctx) f addr len
  match r.2 with
  | some (b, bad) => emit r.1 (.readData f addr (if bad then List.replicate len 0 else b) bad)
  | none => emit r.1 (.readData f addr (List.replicate len 0) true)

def execHostPoolRead (func : Nat) (ctx : Option Nat) (addr len : Nat) (s : State) : Out1 :=
  done s (hostPoolRead s func ctx addr len)

/-- HOST_POOL_WRITE. -/
def execHostPoolWrite (func : Nat) (ctx : Option Nat) (addr : Nat) (bytes : List Byte) (s : State) : Out1 :=
  done s (hostWrite s func ctx addr bytes)

/-- STALLED_WRITE_RESUME: the oldest stalled write of a pseudo-channel proceeds once the rekey pointer has
passed its line (R205). Log 23, DEDUCED. -/
def stalledResume (s : State) (pc : Nat) : State :=
  match s.stalls.find? fun w => decide (w.pc = pc) with
  | none => s
  | some w =>
    if wouldStall s w.pc w.line then s
    else hostWrite { s with stalls := s.stalls.erase w } w.func w.ctx w.addr w.bytes

def execStalledWriteResume (pc : Nat) (s : State) : Out1 := done s (stalledResume s pc)

/-! ## Pseudo-channels (R193, R195, R199) -/

/-- Log 28, DEDUCED. Log 30, DEDUCED. -/
def pcAssignBody (pc owner sealed : Nat) (s : State) (_ : Nat) : Reply :=
  let x := pcOf s pc
  let p := part s owner
  if x.owner ≠ .free ∨ x.freeing ∨ x.retraining ∨ x.failed ∨ (owner < 32 ∧ p.state ≠ .opened) then refuse s stState
  else if owner < 32 ∧ p.radio = false ∧ sealed = 0 then refuse s stNotPermitted
  else accept { s with
    pcs := upd s.pcs pc fun x =>
      { x with owner := if owner < 32 then .partition else .hostPool, part := if owner < 32 then owner else 0,
               sealed := decide (sealed = 1) }
    pages := s.pages.filter fun kv => !(decide (kv.1 / 512 = pc) && decide (dataPages (sealed = 1) ≤ kv.1 % 512)) }

/-- PC_ASSIGN. -/
def execPcAssign (h : CmdHdr) (pc owner sealed : Nat) (s : State) : Out1 :=
  done s (takeCommand s h { opcode := 0x0501, agent := 1 }
    (allocatable pc && decide ((owner < 32 ∨ owner = 0x80) ∧ sealed < 2)) true (pcAssignBody pc owner sealed))

/-- An admitted timetable's descriptor names the pseudo-channel. -/
def pcNamed (s : State) (pc : Nat) : Bool :=
  (ctxsWhere s fun t => t.report.descs.any fun d => d.valid && decide (d.pc = pc)) ≠ []

/-- Every page not Free or Clearing enters Clearing. -/
def freePages (s : State) (pc : Nat) : State :=
  ((s.pages.filter fun kv => decide (kv.1 / 512 = pc) && decide (kv.2.kind ≠ .free) &&
    decide (kv.2.kind ≠ .clearing)).map fun kv => kv.1 % 512).foldl (fun s page => releasePage s pc page) s

/-- Log 28, DEDUCED. -/
def pcFreeBody (h : CmdHdr) (pc : Nat) (s : State) (_ : Nat) : Reply :=
  if (pcOf s pc).owner = .free ∨ (pcOf s pc).freeing then refuse s stState
  else if pcNamed s pc then refuse s stInUse
  else
    let s := { s with pcs := upd s.pcs pc fun x => { x with freeing := true } }
    startedNow h (freedPc (freePages s pc) pc)

/-- PC_FREE. -/
def execPcFree (h : CmdHdr) (pc : Nat) (s : State) : Out1 :=
  done s (takeCommand s h { opcode := 0x0502, agent := 1 } (allocatable pc) true (pcFreeBody h pc))

/-! ## Pages (R196, R198, R199) -/

/-- Function whose quota pays for a page (R306). -/
def pageFunc (s : State) (pc kind owner : Nat) : Nat :=
  if kind = 3 then owner else funcOfPart s (pcOf s pc).part

/-- A page counts toward the page quota of f: Context and Shared pages of its partitions, Function pages of
f, and pages on their way into those states. -/
def pageCounts (s : State) (f : Nat) (kv : Nat × Page) : Bool :=
  let pg := kv.2
  let kind := if pg.kind = .clearing then pg.next else pg.kind
  let owner := if pg.kind = .clearing then pg.nextOwner else pg.owner
  match kind with
  | .context => decide (funcOfPart s (pcOf s (kv.1 / 512)).part = f)
  | .shared => decide (funcOfPart s (pcOf s (kv.1 / 512)).part = f)
  | .function => decide (owner = f)
  | _ => false

/-- Use of the page quota (R306). -/
def usePages (s : State) (f : Nat) : Nat := (s.pages.filter (pageCounts s f)).length

/-- A frame is fixed for some page until that page has cleared (R198). -/
def frameFixed (s : State) (frame : Nat) : Bool :=
  s.pages.any fun kv => decide (kv.2.frame = some frame) || decide (kv.2.nextFrame = some frame)

/-- The page, its pseudo-channel and its owner admit the assignment. Log 29, DEDUCED. -/
def pageAssignable (s : State) (pc kind page owner frame : Nat) : Bool :=
  let x := pcOf s pc
  decide (page < dataPages x.sealed) && !x.freeing && !x.failed && decide ((pageAt s pc page).kind = .free) &&
  match kind with
  | 1 => decide (x.owner = .partition ∧ owner / 64 = x.part ∧ (ctxOf s owner).state ≠ .free)
  | 2 => decide (x.owner = .partition)
  | _ => decide (x.owner = .hostPool) && (decide (owner = 0) || (vfOf s owner).assigned) && !frameFixed s frame

def pageKindOf (kind : Nat) : PageKind := if kind = 1 then .context else if kind = 2 then .shared else .function

/-- The page an assignment makes at once on a plain pseudo-channel. -/
def assignedPage (kind owner frame : Nat) : Page :=
  { kind := pageKindOf kind, owner := if kind = 2 then 0 else owner, blank := false,
    frame := if kind = 3 then some frame else none }

/-- The page that an assignment sends through Clearing on a sealed pseudo-channel (R199). -/
def assigningPage (s : State) (h : CmdHdr) (i pc kind owner frame : Nat) : Page :=
  { kind := .clearing, blank := false, domain := pageFunc s pc kind owner, next := pageKindOf kind,
    nextOwner := if kind = 2 then 0 else owner, nextFrame := if kind = 3 then some frame else none,
    waiting := some (h.src, h.token, BitVec.ofNat 16 i) }

/-- Log 29, DEDUCED. -/
def pageAssignBody (h : CmdHdr) (pc kind page owner frame : Nat) (s : State) (i : Nat) : Reply :=
  let f := pageFunc s pc kind owner
  if pageAssignable s pc kind page owner frame = false then refuse s stState
  else if kind = 3 ∧ owner ≠ 0 ∧ (pcOf s pc).sealed = false then refuse s stNotPermitted
  else if f ≠ 0 ∧ (vfOf s f).qPages < usePages s f + 1 then refuseAt s stQuota 2 0
  else if (pcOf s pc).sealed then
    finishLater { s with pages := put s.pages (pageKey pc page) (assigningPage s h i pc kind owner frame) }
  else accept { s with pages := put s.pages (pageKey pc page) (assignedPage kind owner frame) }

/-- PAGE_ASSIGN. -/
def execPageAssign (h : CmdHdr) (pc kind page owner frame : Nat) (s : State) : Out1 :=
  done s (takeCommand s h { opcode := 0x0503, agent := 1 }
    (allocatable pc && decide (1 ≤ kind ∧ kind ≤ 3 ∧ page < 384 ∧ frame < 2 ^ 32 ∧
      owner < (if kind = 3 then 1024 else 2048))) true
    (pageAssignBody h pc kind page owner frame))

/-- The page has an owner. -/
def releasable (pg : Page) : Bool := decide (pg.kind = .context ∨ pg.kind = .shared ∨ pg.kind = .function)

def pageReleaseBody (h : CmdHdr) (pc page : Nat) (s : State) (_ : Nat) : Reply :=
  if releasable (pageAt s pc page) ∧ (pcOf s pc).freeing = false then startedNow h (releasePage s pc page)
  else refuse s stState

/-- PAGE_RELEASE. -/
def execPageRelease (h : CmdHdr) (pc page : Nat) (s : State) : Out1 :=
  done s (takeCommand s h { opcode := 0x0504, agent := 1 } (allocatable pc && decide (page < 384)) true
    (pageReleaseBody h pc page))

/-! ## Commanded rekey and scrub (R204, R211, R338, R339) -/

def regionRekeyBody (h : CmdHdr) (pc page : Nat) (s : State) (_ : Nat) : Reply :=
  let pg := pageAt s pc page
  if (pcOf s pc).sealed = false ∨ releasable pg = false then refuse s stState
  else
    let scope := pc + 2 ^ 8 * page
    match conflictAct s 3 scope 0 with
    | some (i, a) => refuseAt s stConflict (actResult a.code a.scope.toNat a.start.toNat) i
    | none =>
      if pg.rekeying ∨ pg.rekeyWaiting then
        refuseAt s stConflict (actResult 3 scope (if pg.rekeying then pg.rekeyTick % 2 ^ 24 else 0)) 0xFFFFFFFF
      else
        let s := startAct s (freeAct s) 3 scope false
        startedNow h { s with pages := upd s.pages (pageKey pc page) fun pg => { pg with rekeyWaiting := true, act := true } }

/-- REGION_REKEY. -/
def execRegionRekey (h : CmdHdr) (pc page : Nat) (s : State) : Out1 :=
  done s (takeCommand s h { opcode := 0x0506, agent := 1, activity := true } (allocatable pc && decide (page < 384))
    true (regionRekeyBody h pc page))

/-- A scrub pass begins. -/
def beginScrub (s : State) (i : Nat) (mask : BitVec 256) (spread : Nat) (auto : Bool) : State :=
  let x : Scrub := { mask := mask, pc := (maskedFrom mask 0).getD 256, auto := auto, spread := spread, act := i }
  showScrub { startAct s i 2 0 auto with scrub := some x }

def scrubPassBody (h : CmdHdr) (spread : Nat) (mask : BitVec 256) (s : State) (_ : Nat) : Reply :=
  withActivity s 2 0 mask fun i s => startedNow h (beginScrub s i mask spread false)

/-- The allocatable positions. -/
def allPcs : BitVec 256 :=
  BitVec.ofNat 256 ((List.range 256).foldl (fun m i => if allocatable i then m + 2 ^ i else m) 0)

/-- SCRUB_PASS. -/
def execScrubPass (h : CmdHdr) (spread : Nat) (pcmask : BitVec 256) (s : State) : Out1 :=
  done s (takeCommand s h { opcode := 0x0505, agent := 1, activity := true }
    (decide (spread < 2 ^ 32 ∧ pcmask &&& ~~~allPcs = 0)) true (scrubPassBody h spread pcmask))

/-- An automatic pass that is due starts when nothing conflicts and an activity is free (R339). -/
def scrubDueStart (s : State) : State :=
  if s.scrubDue ∧ activities s < 32 ∧ (conflictAct s 2 0 allPcs).isNone then
    beginScrub { s with scrubDue := false } (freeAct s) allPcs (reg s (bMem + 0x50)) true
  else s

/-- MEM_SCRUB_DUE (R211). -/
def execMemScrubDue (s : State) : Out1 :=
  done s (if reg s (bMem + 0x50) = 0 then s else scrubDueStart { s with scrubDue := true })

/-- Listed lines of the pseudo-channels a scrub has still to visit. -/
def scrubRest (s : State) (x : Scrub) : List (Nat × Nat) :=
  ((s.lines.filter fun kv =>
    let pc := kv.1 / 2 ^ 24
    let line := kv.1 % 2 ^ 24
    x.mask.getLsbD pc && (decide (x.pc < pc) || (decide (x.pc = pc) && decide (x.line ≤ line)))).map fun kv =>
      (kv.1 / 2 ^ 24, kv.1 % 2 ^ 24))

/-- A scrub pass ends. Log 24, DESIGN CHOICE. -/
def scrubDone (s : State) (x : Scrub) : State :=
  let s := (scrubRest s x).foldl (fun s pl => scrubLine s pl.1 pl.2) s
  let s := endAct s x.act 1
  let old := reg s (bMem + 0x54)
  let s := setReg { s with scrub := none } (bMem + 0x54)
    (bits old 7 0 + (bits old 31 16 + 1) % 2 ^ 16 * 2 ^ 16)
  scrubDueStart (orReg s (bMem + 0x68) 0x2)

/-- SCRUB_DONE (R211): the lines not yet scrubbed are scrubbed, and the pass ends. -/
def execScrubDone (s : State) : Out1 :=
  done s (match s.scrub with
    | some x => scrubDone s x
    | none => s)

end Sys2Proof.Machine
end

