-- ==== Sys2Proof/Machine/Resets.lean ====
section
/-!
DEFINITION. Context resets, partition resets, function-level resets and the device reset (R383–R386), levels
(R388), escalation (R387, R398), watchdogs (R368) and emergency isolation (R390).
-/

namespace Sys2Proof.Machine

/-! ## Indeterminate buffers (R368, R378, R379) -/

/-- n bytes that the spec leaves open. Log 11, DESIGN CHOICE. Log 208, DEDUCED. -/
def freeBytes (s : State) (n : Nat) : List Byte := (List.range n).map fun i => Config.freeBits (s.fresh + i) 8

/-- A host-pool buffer of function f becomes indeterminate: its bytes are free values. Log 208, DEDUCED. -/
def spoil (s : State) (f addr len : Nat) : State :=
  if hostOk s f addr len then hostWrite { s with fresh := s.fresh + len } f none addr (freeBytes s len) else s

/-- The posted receive buffers without a descriptor, from an index on, are indeterminate (R378). -/
def spoilPosted (s : State) (x : Queue) (i : Nat) : Nat → State
  | 0 => s
  | n + 1 =>
    let e := peek s x.func (entryAddr x i) 32
    spoilPosted (if bufLenOk (leAt e 8 2) then spoil s x.func (leAt e 0 8) (leAt e 8 2) else s) x (nextIndex x i) n

/-- The same for a receive ring; other rings post no buffer. -/
def spoilRing (s : State) (q : Nat) : State :=
  let x := queueOf s q
  if x.kind = 1 ∧ x.enabled then spoilPosted s x x.cons (occupancy x) else s

/-! ## The barrier of a context (R376, R377, R383) -/

/-- Waiting and saved engine messages of context c go at once; one that runs in a unit ends with its period
and its slot is zeroed (R383). -/
def abandonMessages (s : State) (c : Nat) : State :=
  { s with engines := mapT s.engines fun _ e =>
      { e with
        waiting := e.waiting.filter fun m => decide (m.ctx ≠ c)
        saved := e.saved.filter fun m => decide (m.ctx ≠ c)
        slotsUsed := e.slotsUsed.filter fun n => !e.saved.any fun m => decide (m.ctx = c ∧ m.slot = some n) } }

/-- An entry queue loses what has not entered: its consumer index jumps to the producer index. Log 203, DEDUCED.
-/
def emptyEntryQ (s : State) (q : Option Nat) : State :=
  match q with
  | some q => { s with queues := upd s.queues q fun x => { x with cons := x.prod, ready := [] } }
  | none => s

/-- Entries of an entry queue not yet entered: ring entries and words in the queue engine. Log 213, DEDUCED. -/
def queuedWords (s : State) (q : Option Nat) : Nat :=
  match q with
  | some q => occupancy (queueOf s q) + ((queueOf s q).ready.map fun r => r.words.length).sum
  | none => 0

/-- Entries that entered with no exit written. Log 213, DEDUCED. -/
def lostEntries (t : Timetable) : Nat :=
  t.entered - t.exited + ((t.heldExits.map fun x => (x.pass, x.entry)).eraseDups).length

/-- Held passes that stand at a barrier: those before the pass of the first fault; a brake discards every pass
still held (R376). Log 213, DEDUCED. -/
def beforeStop (t : Timetable) (pass : Nat) : Bool :=
  t.job.stopPass.isNone && (t.barrierTick.isNone || decide (pass < t.job.pass))

/-- Write the barrier of a timetable in its exit queue, with the context's postmark as it stands. Log 213,
DEDUCED. -/
def exitBarrier (s : State) (c : Nat) (t : Timetable) (queued cause : Nat) : State :=
  match t.exitQ with
  | some q => writeBarrier s q (t.barrierTick.getD s.tick.count).toNat (lostEntries t) queued c cause
      (ctxOf s c).postmark.toNat
  | none => s

/-- Publish what a job's held passes finished before the barrier. -/
def releaseBefore (s : State) (c : Nat) : State :=
  let ok := beforeStop (ttOf s c)
  releaseExits (releaseRecs s c ok) c ok

/-- The barrier of context c at a tick boundary: WITHDRAWN record, postmark, barrier entry, queues, replies and
engine messages; clearing begins. Log 203, DEDUCED. -/
def ctxBarrier (s : State) (c cause : Nat) : State :=
  let s := releaseBefore s c
  let t := ttOf s c
  let queued := queuedWords s t.entryQ
  let s := endTimetable s c
  let s := { s with ctxs := upd s.ctxs c fun x => { x with postmark := x.postmark + 1, stage := 2 } }
  let s := exitBarrier (emptyEntryQ s t.entryQ) c t queued cause
  abandonMessages (dropReplies s c) c

/-- b1 of a context reset: collection, then the barrier (R380, R383). The quadrants of a timetable that had faulted
may be collected from here on (R183). Log 82, DEDUCED. Log 203, DEDUCED. -/
def ctxResetB1 (s : State) (c : Nat) : State :=
  let p := partOfCtx c
  let r := gatherState s (noteLost s c (beginDump s 1 (some p) [c])) p [c] true
  let s := storeDump r.1 r.2 [c]
  ctxBarrier (if (ttOf s c).barrierTick.isSome then markDumpable s c else s) c (if (ctxOf s c).flr then 4 else 1)

/-- An effect of the list has come about. -/
def dropEffect (s : State) (e : Effect) : State := { s with effects := s.effects.filter fun x => decide (x.effect ≠ e) }

/-- A context reset completes: the context is READY. Log 203, DEDUCED. -/
def ctxResetEnd (s : State) (c : Nat) : State :=
  let s := clearCtxTiles (dropEffect s (.ctxReset c)) c
  let s := { s with ctxs := upd s.ctxs c fun x => { x with state := .ready, stage := 0, auto := false, flr := false } }
  notice (orReg s (bFlt + 0x14) 0x2) (funcOfCtx s c)
    { kind := 8, part := partOfCtx c, ctx := c, detail := leBytes 8 c ++ leBytes 8 (tickCount s) }

/-- The context's own reset is past its barrier; a partition reset completes those of its contexts (R385, R392). -/
def ctxClearing (s : State) (c : Nat) : Bool :=
  decide ((ctxOf s c).state = .resetting) && decide ((ctxOf s c).stage = 2) &&
    decide ((part s (partOfCtx c)).state ≠ .resetting)

/-- CTX_RESET_DONE (R383): clearing has ended. -/
def execCtxResetDone (ctx : Nat) (s : State) : Out1 := done s (if ctxClearing s ctx then ctxResetEnd s ctx else s)

def ctxResetBody (h : CmdHdr) (c : Nat) (s : State) (i : Nat) : Reply :=
  if (ctxOf s c).state ≠ .active then refuse s stState
  else
    let s := addEffect (acceptCtxReset { s with tick := { s.tick with off := h.off } } c false) h i noTick (.ctxReset c)
    acceptAt s (nextTick s) 0

/-- CTX_RESET (R383). -/
def execCtxReset (h : CmdHdr) (ctx : Nat) (s : State) : Out1 :=
  done s (takeCommand s h { opcode := 0x0A01, agent := 1, atBeacon := true, pends := true } (decide (ctx < 2048)) true
    (ctxResetBody h ctx))

/-! ## Partition reset (R385) -/

/-- Quadrants of which partition p owns a cell in the active plan. -/
def quadsOfPart (s : State) (p : Nat) : List Nat :=
  (List.range 160).filter fun q => (List.range (activeStarts s).length).any fun i => decide (cellOwner s.cellA i q = some p)

/-- The barrier stage: collection of the state bundle, then every context's barrier. -/
def partBarrier (s : State) (p : Nat) : State :=
  let cs := ctxsOfPart s p
  let qs := (quadsOfPart s p).filter fun q => quadWhole s p q || decide (ownerNow s q = some p)
  let r := gatherState s (beginDump s 2 (some p) cs) p cs false
  let s := { r.1 with
    gathers := put r.1.gathers p r.2
    sdg := upd r.1.sdg p fun d => { d with dumpable := qs }
    parts := upd r.1.parts p fun x => { x with stage := 2 } }
  let s := cs.foldl (fun s c => { s with ctxs := upd s.ctxs c fun x => { x with state := .resetting } }) s
  cs.foldl (fun s c => ctxBarrier s c 2) s

/-- Log 258, DEDUCED. -/
def partResetBody (h : CmdHdr) (p : Nat) (s : State) (i : Nat) : Reply :=
  let x := part s p
  if x.state = .free ∨ x.state = .resetting then refuse s stState
  else
    let s := addEffect (acceptPartReset { s with tick := { s.tick with off := h.off } } p false) h i noTick (.partReset p)
    acceptAt s (tickCount s) h.off

/-- PART_RESET (R385). -/
def execPartReset (h : CmdHdr) (part : Nat) (s : State) : Out1 :=
  done s (takeCommand s h { opcode := 0x0A02, agent := 1, atBeacon := true, pends := true } (decide (part < 32)) true
    (partResetBody h part))

/-- Collection ends: the dump is stored and the clear is set for the next boundary. -/
def collectEnd (s : State) (p : Nat) : State :=
  let r := gatherQuads s (look s.gathers p) p (quadsOfPart s p)
  let s := storeDump r.1 r.2 (ctxsOfPart s p)
  { s with
    gathers := erase s.gathers p
    sdg := upd s.sdg p fun d => { d with dumpable := [] }
    parts := upd s.parts p fun x => { x with stage := 3, stageTick := nextTick s } }

/-- PART_RESET_COLLECT_END (R385). -/
def execPartResetCollectEnd (part : Nat) (s : State) : Out1 :=
  let x := Sys2Proof.Machine.part s part
  done s (if x.state = .resetting ∧ x.stage = 2 then collectEnd s part else s)

/-- A register of partition p's TTB window that a partition reset clears: every one but TTB_OVERRUNS and
TTB_MISMATCHES, which count since device reset (R12, R162). -/
def windowClears (p a : Nat) : Bool :=
  decide (ttbBase p ≤ a) && decide (a < ttbBase p + 0x10000) && decide (a ≠ ttbBase p + 0xC ∧ a ≠ ttbBase p + 0x10)

/-- The TTB window of a partition returns to its reset values (R162). -/
def resetWindow (s : State) (p : Nat) : State :=
  { s with regs := s.regs.filter fun kv => !windowClears p (4 * kv.1) }

/-- Every configuration set of partition p is emptied, and the cells it owns are cleared. -/
def clearPartTiles (s : State) (p : Nat) : State :=
  { s with tiles := mapT s.tiles fun k t =>
      let sets := t.sets.filter fun x => decide (x.part ≠ p)
      if ownerNow s (quadOfTile k) = some p then { sets := sets } else { t with sets := sets } }

/-- The clear stage: sets, cells, engine messages, contexts and the TTB window; library tiles stay assigned, and entries
fall back to their home copies (R182, R189). -/
def partClear (s : State) (p : Nat) : State :=
  let cs := ctxsOfPart s p
  let s := cs.foldl abandonMessages (resetWindow (clearPartTiles s p) p)
  setLibCount { s with
    tracing := s.tracing.filter (· ≠ p)
    lib := mapT s.lib fun _ e => if e.part = p then loseTiles e else e
    effects := s.effects.filter fun e => match e.effect with | .ctxReset c => decide (partOfCtx c ≠ p) | _ => true
    tts := s.tts.filter fun kv => decide (partOfCtx kv.1 ≠ p)
    ctxs := mapT s.ctxs fun c x =>
      if partOfCtx c = p ∧ x.state ≠ .free then { x with state := .ready, stage := 0, auto := false, flr := false } else x }

/-- The position is left to an HBM retrain that runs on it. -/
def underRetrain (s : State) (pc : Nat) : Bool := (findAct s 1 pc).isSome

/-- The retrain stage: the partition's pseudo-channels but those an HBM retrain holds. -/
def partRetrain (s : State) (p : Nat) : State :=
  { s with
    pcs := mapT s.pcs fun k x =>
      if x.owner = .partition ∧ x.part = p ∧ underRetrain s k = false then { x with retraining := true } else x
    parts := upd s.parts p fun x => { x with stage := 4 } }

/-- KIND 14 notice. -/
def outNotice (s : State) (p : Nat) (escalated : Bool) : State :=
  notice s (funcOfPart s p) { kind := 14, part := p, detail := leBytes 1 (ofBool escalated) }

/-- A partition reset ends in a state. Log 206, DEDUCED. -/
def partResetEnd (s : State) (p : Nat) (st : PartState) : State :=
  let s := dropEffect s (.partReset p)
  let s := { s with
    pcs := mapT s.pcs fun k x =>
      if x.owner = .partition ∧ x.part = p ∧ underRetrain s k = false then { x with retraining := false } else x
    parts := upd s.parts p fun x => { x with stage := 0, auto := false, escalated := false, resetNs := 0, resetOff := 0, stageTick := 0 } }
  setPartState s p st

/-- PART_RESET_DONE: OPEN, or OUT_OF_SERVICE under R387. -/
def partResetDone (s : State) (p : Nat) : State :=
  let esc := (part s p).escalated
  let st := if esc then PartState.outOfService else .opened
  let s := orReg (partResetEnd s p st) (bFlt + 0x14) 0x4
  let s := notice s (funcOfPart s p) { kind := 10, part := p, detail := leBytes 1 (partStateCode st) }
  if esc then outNotice s p true else s

def execPartResetDone (part : Nat) (s : State) : Out1 :=
  let x := Sys2Proof.Machine.part s part
  done s (if x.state = .resetting ∧ x.stage = 4 then partResetDone s part else s)

/-- RESET_OVERTIME (R385): code 59, and the partition goes out of service. Log 206, DEDUCED. -/
def resetOvertime (s : State) (p : Nat) : State :=
  let s := raiseFault s { code := 59, named := .partition p, off := s.tick.off }
  outNotice (partResetEnd s p .outOfService) p false

def execResetOvertime (part : Nat) (s : State) : Out1 :=
  done s (if (Sys2Proof.Machine.part s part).state = .resetting then resetOvertime s part else s)

/-! ## Function-level reset (R378, R384) -/

/-- CMD rings whose statuses go to a completion ring. -/
def cmdRingsOf (s : State) (q : Nat) : List (Nat × Queue) :=
  s.queues.filter fun kv => decide (kv.2.kind = 3 ∧ kv.2.peer = q)

/-- Commands of a ring that are discarded: those not taken, and those whose status still waits. Log 205,
DEDUCED. -/
def discardedCmds (x : Queue) : Nat := occupancy x + x.waitStatus.length

/-- Index of the first discarded command. Log 205, DEDUCED. -/
def firstDiscarded (x : Queue) : Nat := (x.cons + 2 * ringLen x - x.waitStatus.length) % (2 * ringLen x)

/-- The barrier entry of a completion ring in the status layout: RESULT0, RESULT1 and CMD_INDEX. Log 205,
DEDUCED. -/
def cplBarrier (s : State) (q : Nat) (postmark phase : Nat) : List Byte :=
  let l := cmdRingsOf s q
  let discarded := (l.map fun kv => discardedCmds kv.2).sum
  let x := (l.head?.map (·.2)).getD {}
  let taken := l.find? fun kv => outstanding s (.ring kv.1)
  let indet := match taken with
    | some kv => (kv.2.cons + 2 * ringLen kv.2 - 1) % (2 * ringLen kv.2)
    | none => 0
  let first := firstDiscarded x
  let last := (first + 2 * ringLen x - 1 - ofBool (outstanding s (.ring ((l.head?.map (·.1)).getD 8192)))) % (2 * ringLen x)
  leBytes 2 0xFFFF ++ leBytes 2 0x0100 ++ leBytes 2 postmark ++ leBytes 1 3 ++ leBytes 1 0 ++
    leBytes 8 (tickCount s) ++
    leBytes 8 (last % 2 ^ 16 + discarded % 2 ^ 16 * 2 ^ 16 + ofBool taken.isSome * 2 ^ 32) ++ leBytes 4 (indet % 2 ^ 16) ++
    leBytes 4 (phase + 1 * 2 + first % 2 ^ 16 * 2 ^ 16)

/-- Write a completion ring's barrier entry in the entry it keeps (R329). Log 205, DEDUCED. -/
def barCpl (s : State) (f q : Nat) : State :=
  let x := queueOf s q
  if x.enabled then writeProd s q (cplBarrier s q (vfOf s f).postmark.toNat (phaseOf x x.prod)) else s

/-- Every unsent entry of a transmit ring takes STATUS 3. -/
def barTx (s : State) (q : Nat) : Nat → State
  | 0 => s
  | n + 1 => barTx (txEntryDone s q 3 none) q n

/-- What waits in a subport's scheduler for a list of rings is gone; a frame in progress ends. -/
def dropTxItems (s : State) (qs : List Nat) : State :=
  { s with txRings := s.txRings.filter fun kv => decide (kv.1 ∉ qs) }

/-- Bar and disable one queue. -/
def barQueue (s : State) (f q : Nat) : State :=
  let x := queueOf s q
  let s := if x.kind = 4 then barCpl s f q else if x.kind = 2 ∧ x.enabled then barTx s q (occupancy x)
    else spoilRing s q
  { s with queues := upd s.queues q fun y =>
      { y with
        enabled := false
        inFlight := 0
        ready := []
        waitStatus := []
        stalled := false
        cons := if y.kind = 3 ∨ y.kind = 5 then y.prod else y.cons } }

/-- Queues of a function, completion rings first. -/
def queuesOf (s : State) (f : Nat) : List Nat :=
  let l := s.queues.filter fun kv => decide (kv.2.kind ≠ 0 ∧ kv.2.func = f)
  (l.filter fun kv => decide (kv.2.kind = 4)).map (·.1) ++ (l.filter fun kv => decide (kv.2.kind ≠ 4)).map (·.1)

/-- Timetables of a partition, by context. -/
def ttsOfPart (s : State) (p : Nat) : List Nat := (ctxsWhere s fun _ => true).filter fun c => decide (partOfCtx c = p)

/-- Length of a partition's attestation report (R313). -/
def attestLen (s : State) (p : Nat) : Nat := 0x1E0 + 56 * (ttsOfPart s p).length + 96

/-- The buffer that an accepted attestation names is indeterminate. -/
def spoilAttest (s : State) (e : Pending) : State :=
  match e.effect with
  | .attest p dest _ => spoil s (srcFunc s e.src) dest (attestLen s p)
  | _ => s

/-- A command of the rings that was taken and had not finished is indeterminate: it goes no further, and its buffer is
indeterminate (R378). -/
def dropTaken (s : State) (qs : List Nat) : State :=
  let s := (s.effects.filter fun e => match e.src with | .ring q => decide (q ∈ qs) | _ => false).foldl spoilAttest s
  { s with effects := s.effects.filter fun e => match e.src, e.effect with
      | .ring q, .attest _ _ _ => decide (q ∉ qs)
      | _, _ => true }

/-- The mailbox follows R314: buffers, pending bit and notice ring are cleared. -/
def clearMailbox (s : State) (f : Nat) : State :=
  clrReg { s with vfs := upd s.vfs f fun v => { v with mbx := {} } } (bMbx + 4 * (f / 32)) (2 ^ (f % 32))

/-- Every context of the function's partitions is reset. Log 204, DEDUCED. -/
def resetCtxsOf (s : State) (f : Nat) : State :=
  ((partsOfFunc s f).flatMap (ctxsOfPart s)).foldl (fun s c =>
    let s := acceptCtxReset s c false
    { s with ctxs := upd s.ctxs c fun x => { x with flr := decide (x.state = .resetting) } }) s

/-- A function-level reset of f. Log 204, DEDUCED. -/
def functionReset (s : State) (f : Nat) : State :=
  let s := { s with vfs := upd s.vfs f fun v => { v with postmark := v.postmark + 1 } }
  let qs := queuesOf s f
  let s := dropTxItems (dropTaken (qs.foldl (fun s q => barQueue s f q) s) qs) qs
  resetCtxsOf (clearMailbox s f) f

/-- VFf is ENABLED (R296). -/
def vfEnabled (s : State) (f : Nat) : Bool := s.life.vfEnable && decide (1 ≤ f ∧ f ≤ s.life.numVfs)

/-! ## The PCIe endpoint (R296, R323, R404) -/

/-- What the endpoint's capabilities state. -/
structure PcieCaps where
  totalVfs : Nat
  firstVfOffset : Nat
  vfStride : Nat
  /-- Readiness Time Reporting, in ms -/
  readinessMs : Nat
  deriving DecidableEq, Repr

def pcieCaps : PcieCaps := { totalVfs := 1023, firstVfOffset := 1, vfStride := 1, readinessMs := 3000 }

/-- The link trains from boot stage 2 on, and stays up in a boot that has failed past it (R403, R404). -/
def pcieLinkUp (s : State) : Bool :=
  match s.life.stage with
  | .ao => false
  | .rails => false
  | .failed => decide (1 < s.life.fail)
  | _ => true

/-- Boot stage 4 has been reached: configuration requests are answered (R404). Log 256, DEDUCED. -/
def configServed (s : State) : Bool :=
  coresRun s || decide (s.life.stage = .mgmt) || (decide (s.life.stage = .failed) && decide (4 < s.life.fail))

/-- A configuration request has its effect, completes with Retry Status before stage 4, or meets no link (R404). -/
def configRequest (s : State) (effect : State → State) : State :=
  if configServed s then effect s else if pcieLinkUp s then emit s .configRetry else s

/-- The link trains, where it may. -/
def trainPcie (s : State) : State := if pcieLinkUp s then emit s .pcieTrain else s

/-- Every VF is reset and none stays enabled. Log 204, DEDUCED. -/
def clearVfEnable (s : State) : State :=
  let s := (List.range' 1 1023).foldl functionReset s
  { s with life := { s.life with vfEnable := false, numVfs := 0 } }

/-- FUNCTION_LEVEL_RESET (R384): of an enabled VF; that of PF clears VF Enable with its configuration space (R323). Log
257, DEDUCED. -/
def execFunctionLevelReset (func : Nat) (s : State) : Out1 :=
  done s (configRequest s fun s =>
    if func = 0 then (if s.life.vfEnable then clearVfEnable s else s)
    else if vfEnabled s func then functionReset s func else s)

/-- VF_ENABLE_CLEAR (R296). -/
def execVfEnableClear (s : State) : Out1 :=
  done s (configRequest s fun s => if s.life.vfEnable then clearVfEnable s else s)

/-- VF_ENABLE_SET (R296): NumVFs stands while VF Enable is set. -/
def execVfEnableSet (numVfs : Nat) (s : State) : Out1 :=
  done s (configRequest s fun s =>
    if s.life.vfEnable = false ∧ numVfs ≤ pcieCaps.totalVfs then
      { s with life := { s.life with vfEnable := true, numVfs := numVfs } }
    else s)

/-- PERST_N_ASSERT (R323). -/
def execPerstNAssert (s : State) : Out1 := done s (trainPcie (clearVfEnable s))

/-! ## Device reset (R386, R387, R295) -/

/-- Dump of the device: the state bundles and quadrants of every partition (R380). Log 207, DEDUCED. -/
def deviceDump (s : State) : State :=
  let ps := (s.parts.filter fun kv => decide (kv.2.state ≠ .free)).map (·.1)
  let r := ps.foldl (fun (r : State × Gathering) p =>
    let r := gatherState r.1 r.2 p (ctxsOfPart s p) false
    gatherQuads r.1 r.2 p (quadsOfPart s p)) (s, beginDump s 3 none [])
  storeDump r.1 r.2 []

/-- A partition as the SC's store restores it (R295). -/
def keptPart (x : Part) : Part :=
  { state := if x.state = .isolated ∨ (x.state = .resetting ∧ x.escalated) then .outOfService
      else if x.state = .resetting then .opened else x.state
    radio := x.radio, func := x.func }

/-- A function as the store restores it. -/
def keptVf (v : Vf) : Vf :=
  { assigned := v.assigned, pcieT := v.pcieT, tenant := v.tenant, ctrlT := v.ctrlT, tctrl := v.tctrl, qTick := v.qTick,
    qPages := v.qPages, qQueues := v.qQueues, qWeight := v.qWeight }

/-- A Context page enters Clearing; every other page stays (R386). -/
def keptPage (pg : Page) : Page :=
  if pg.kind = .context then clearing pg
  else if pg.waiting.isSome then { clearing pg with next := .free }
  else { pg with act := false }

/-- A Stationmaster update that had passed its handover stands: its bank becomes valid (R416). -/
def updateKept (l : Life) : Life :=
  if l.smUpdate.handedOver then
    if l.banks.getD 1 false then { l with bankA := l.bankA.modify 1 fun i => { i with valid := true } }
    else { l with bankB := l.bankB.modify 1 fun i => { i with valid := true } }
  else l

/-- A reset restarts the boot after the rails; rails still to come, or failed, stay where they are (R399). Log
207, DEDUCED. -/
def restartStage (l : Life) : Stage :=
  if l.stage = .ao ∨ l.stage = .rails ∨ (l.stage = .failed ∧ l.fail = 1) then l.stage else .scRom

/-- The lifecycle state as every domain but the always-on one leaves it. -/
def keptLife (l : Life) (endBeacon : Bool) : Life :=
  { updateKept l with
    stage := restartStage l, fail := if l.stage = .failed ∧ l.fail = 1 then 1 else 0
    alive := false, resetting := true
    endBeacon := endBeacon || (l.resetting && l.endBeacon)
    activeM1 := false, standbyReady := false, updating := false, smUpdate := {}, scUpdate := {}, scPaused := false
    failover := false, monHarts := [], monNew := none, vfEnable := false, numVfs := 0, tempRegs := [] }

/-- The SC's store as it stands: what the boot has restored, or still holds (R295). -/
def storeNow (s : State) : ScStore :=
  if s.life.stage = .done then
    { s.store with
      parts := mapT s.parts fun _ x => keptPart x
      vfs := mapT s.vfs fun _ v => keptVf v }
  else s.store

/-- The state right after every domain but the always-on one has been reset: what R386, R295, R372, R380 and
R12 keep. -/
def deviceCleared (s : State) (endBeacon : Bool) : State :=
  { pending := s.pending
    regs := s.regs.filter fun kv => isAlwaysOn (4 * kv.1)
    latches := s.latches.filter fun kv => isAlwaysOn (kv.1 / 2048)
    level := s.level
    tick := { s.tick with slice := 0 }
    sig := s.sig
    disabled := s.disabled
    retired := s.retired
    lib := mapT (s.lib.filter fun kv => kv.2.used) fun _ e => loseTiles e
    mem := s.mem
    pcs := mapT s.pcs fun _ x => { x with retraining := false, copy := none, switching := false }
    pages := mapT s.pages fun _ pg => keptPage pg
    lines := s.lines
    domains := s.domains
    spareBad := s.spareBad
    retiredPcs := s.retiredPcs
    fabricId := s.fabricId
    station := s.station
    fltSeq := s.fltSeq
    fltLog := s.fltLog
    dumps := s.dumps
    dumpSeq := s.dumpSeq
    suspectSeq := s.suspectSeq
    life := keptLife s.life endBeacon
    store := storeNow s
    wire := s.wire
    fresh := s.fresh }

/-- The limit of automatic device resets is reached with one more. Log 207, DEDUCED. Log 223, DEDUCED. -/
def devrReached (s : State) : Bool := decide (bits (reg s (bFlt + 0x48)) 1 0 ≤ reg s (bFlt + 0x54) + 1)

/-- A device reset starts: cause, count, quiet transmitters, collection, indeterminate buffers (R379), and the reset of
every other domain. Under RESET_N nothing is collected. Log 207, DEDUCED. -/
def startDeviceReset (s : State) (cause : Nat) (counted : Bool) : State :=
  let atLimit := counted && devrReached s
  let s := if cause = 1 then s else deviceDump s
  let s := incReg (setReg s bRst (cause + 16 * ofBool counted)) (bRst + 0x4) 1
  let s := if counted then incReg s (bFlt + 0x54) 1 else s
  let s := goQuiet s
  let s : State := { s with wire := ((s.trunk.filter (·.2.state = .up)).map fun kv => Out.quiet (16 + kv.1) 0) ++ s.wire }
  let s := s.queues.foldl (fun s kv => spoilRing s kv.1) (s.effects.foldl spoilAttest s)
  let s := trainPcie (deviceCleared s atLimit)
  if atLimit then orReg s (bFlt + 0x14) 0x80 else s

/-- DEVICE_RESET is accepted: it proceeds during any other reset (R392). -/
def deviceResetBody (h : CmdHdr) (s : State) (_ : Nat) : Reply :=
  acceptAt { s with life := { s.life with resetting := true } } (tickCount s) h.off

def deviceResetRow : OpRow := { opcode := 0x0A03, agent := 2, atBeacon := true }

/-- DEVICE_RESET (R386): the status, then the reset, where the command is accepted. Log 52, DEDUCED. -/
def execDeviceReset (h : CmdHdr) (s : State) : Out1 :=
  let t := takeCommand s h deviceResetRow true true (deviceResetBody h)
  let r := judge (taken s h) h deviceResetRow true true (deviceResetBody h) 0
  done s (if mayTake s h 2 ∧ r.status = stOk then startDeviceReset t 2 false else t)

/-! ## Levels (R388) -/

/-- Any LEVEL_DROP other than a drop to 1 or 2 and the return to 0 is refused with STATE (R388). Log 37,
DEDUCED. -/
def levelDropBody (h : CmdHdr) (lv : Nat) (s : State) (i : Nat) : Reply :=
  if s.life.resetting then refuse s stState
  else if lv = 0 then
    if s.level = .radioOnly then finishLater (addEffect s h i (nextTick s) .levelFull) else refuse s stState
  else if lv ≤ 2 ∧ levelCode s.level < lv then
    accept (dropLevel { s with tick := { s.tick with off := h.off } } (if lv = 1 then .radioOnly else .beacon))
  else refuse s stState

/-- LEVEL_DROP (R388). Log 37, DEDUCED. Log 52, DEDUCED. -/
def execLevelDrop (h : CmdHdr) (level : Nat) (s : State) : Out1 :=
  done s (takeCommand s h { opcode := 0x0A04, agent := 4, atBeacon := true, pends := decide (level = 0) }
    (decide (level < 256)) true (levelDropBody h level))

/-! ## Isolation (R390, R408, R431) -/

/-- Nothing of the partition fires any more; reservations for it lapse. Log 55, DEDUCED. Log 56, DEDUCED. -/
def isolate (s : State) (p : Nat) : State :=
  let s := cancelEffects s fun e => match e.effect with | .reserve q _ _ => decide (q = p) | _ => false
  let s := { s with
    tts := mapT s.tts fun c t => if partOfCtx c = p then
      { t with ran := false, state := if t.state = .none then .none else .faulted } else t
    parts := upd s.parts p fun x => { x with stage := 0 } }
  setPartState (dropEffect s (.partReset p)) p .isolated

/-- Log 55, DEDUCED. -/
def partIsolateBody (p : Nat) (s : State) (_ : Nat) : Reply :=
  if s.life.resetting ∨ (part s p).state = .free ∨ (part s p).state = .isolated then refuse s stState
  else accept (isolate s p)

/-- PART_ISOLATE. -/
def execPartIsolate (h : CmdHdr) (part : Nat) (s : State) : Out1 :=
  done s (takeCommand s h { opcode := 0x0204, agent := 4, atBeacon := true } (decide (part < 32)) true
    (partIsolateBody part))

/-! ## Escalation (R387, R398) -/

/-- Address and bounds of an escalation register: count 1 to `hi`, window `lo` to `top`. -/
def escRow (which : Nat) : Nat × Nat × Nat × Nat × Nat :=
  match which with
  | 0 => (bFlt + 0x40, 1, 3, 60, 3600)
  | 1 => (bFlt + 0x44, 3, 8, 600, 3600)
  | _ => (bFlt + 0x48, 1, 2, 3600, 14400)

/-- The write tightens the limit, or leaves it, within the ranges. -/
def escOk (old new hiBit hi lo top : Nat) : Bool :=
  decide (1 ≤ bits new hiBit 0) && decide (bits new hiBit 0 ≤ hi) && decide (lo ≤ bits new 17 4) &&
    decide (bits new 17 4 ≤ top) && decide (bits new hiBit 0 ≤ bits old hiBit 0) &&
    decide (bits old 17 4 ≤ bits new 17 4)

def fltEsc (s : State) (which data : Nat) : State :=
  let r := escRow which
  if escOk (reg s r.1) data r.2.1 r.2.2.1 r.2.2.2.1 r.2.2.2.2 then
    setReg s r.1 (bits data r.2.1 0 + bits data 17 4 * 16)
  else orReg s (bFlt + 0x14) 0x200

/-- FLT_ESC_WRITE (R398). -/
def execFltEscWrite (v : View) (which : Nat) (data : BitVec 32) (s : State) : Out1 :=
  done s (if hasAccess v ∧ which < 3 then fltEsc s which data.toNat else s)

/-- The count that an expiring window lowers. -/
def escCount (kind p : Nat) : Nat := if kind = 0 then bFlt + 0x80 + 4 * p else if kind = 1 then bFlt + 0x50 else bFlt + 0x54

/-- ESCALATION_WINDOW_EXPIRY (R387). -/
def execEscalationWindowExpiry (kind part : Nat) (s : State) : Out1 :=
  done s (if kind < 3 ∧ part < 32 then setReg s (escCount kind part) (reg s (escCount kind part) - 1) else s)

/-! ## Watchdogs (R368) -/

/-- Log 209, DEDUCED. -/
def deviceFault (s : State) (code : Nat) : State :=
  raiseFault s { code := code, named := .device, locKind := 8, off := s.tick.off }

/-- HEARTBEAT_WATCHDOG: code 56; a ready standby takes over at the next boundary. -/
def execHeartbeatWatchdog (s : State) : Out1 :=
  done s (if coresRun s then
      let s := deviceFault s 56
      { s with life := { s.life with failover := s.life.failover || s.life.standbyReady } }
    else s)

/-- A management or SC watchdog: beacon, the code, and a device reset where AUTO_DEV is 1. Log 209, DEDUCED. -/
def watchdog (s : State) (code cause : Nat) : State :=
  let s := deviceFault (dropLevel s .beacon) code
  if bitOf (reg s bFlt) 16 then startDeviceReset s cause true else s

/-- MGMT_WATCHDOG. -/
def execMgmtWatchdog (s : State) : Out1 := done s (if coresRun s then watchdog s 57 3 else s)

/-- SC_WATCHDOG. -/
def execScWatchdog (s : State) : Out1 := done s (if coresRun s then watchdog s 58 4 else s)

/-- SC_HEARTBEAT: the watchdog starts again from this tick. -/
def execScHeartbeat (s : State) : Out1 := done s { s with life := { s.life with scBeat := s.tick.count } }

/-- HOST_TIMEOUT: code 49; the access is abandoned and its target buffer is indeterminate. Log 208, DEDUCED. -/
def hostTimeout (s : State) (f addr len : Nat) : State :=
  spoil (raiseFault s { code := 49, named := .function f, off := s.tick.off }) f addr len

def execHostTimeout (func addr len : Nat) (s : State) : Out1 :=
  done s (if func < 1024 then hostTimeout s func addr len else s)

/-! ## Quarantine (R373) -/

/-- The quarantine to which QUARANTINE_REPLAY applies: the lowest partition whose next step is a scan-in. -/
def quarantineDue (s : State) : Option (Nat × Quarantine) :=
  s.quarantines.find? fun kv => kv.2.active && kv.2.stopped && !kv.2.armed && !kv.2.replaying && kv.2.resumes.isEmpty

/-- Log 92, DEDUCED. -/
def setQuarantine (s : State) (p : Nat) (q : Quarantine) : State := { s with quarantines := put s.quarantines p q }

/-- No replay can run: every suspect is context-reset. Log 92, DEDUCED. -/
def quarantineFails (s : State) (p : Nat) (q : Quarantine) : State :=
  let s := q.suspects.foldl (fun s c => acceptCtxReset s c true) { s with quarantines := erase s.quarantines p }
  orReg s (bFlt + 0x14) 0x8

/-- Collection of the suspects' state and the quadrant: the quadrant's dump scan, where it is whole. -/
def quarantineCollect (s : State) (p : Nat) (q : Quarantine) : State × Option (Nat × Nat) :=
  let whole := quadWhole s p q.quad && sealedWanted s
  let r := gatherState s (beginDump s 4 (some p) q.suspects) p q.suspects false
  let r := gatherQuads r.1 r.2 p [q.quad]
  (storeDump r.1 r.2 q.suspects,
    if whole ∧ r.2.dump.incomplete = false then r.2.dump.bundles.getLast?.map fun b => (b.1, b.2.1) else none)

/-- The quadrant's tiles as a bundle holds them; a quadrant shared with another owner gets the partition's sets back
only (R188). -/
def replayTiles (s : State) (p quad hole : Nat) (plain : List Byte) : State :=
  let whole := ownsAll (planNow s) p quad
  (scanItems plain (tilesUnder quad hole)).foldl (fun s x =>
    let kind := kindOfTile (x.1 % 256)
    if tileDead s x.1 then s
    else setTile s x.1 fun t => if whole then restoreTile t p kind x.2 else restoreSets t p kind x.2) s

/-- A quarantine scan-in: the bundle is read back and its chunk tags checked, and nothing else (R188). Log 90,
DEDUCED. -/
def quarantineScanIn (s : State) (p : Nat) (q : Quarantine) : State × Bool :=
  let r := hostRead s (.function 0) 0 q.bundle.1 q.bundle.2
  match r.2.bind fun b => openBundle r.1 p b.1 with
  | some x => (replayTiles r.1 p q.quad (leAt x.1 0x28 8) x.2, true)
  | none => (r.1, false)

/-- The next suspect's scan-in; a tag failure ends the quarantine as an INCOMPLETE dump does. Log 92, DEDUCED. -/
def quarantineArm (s : State) (p : Nat) (q : Quarantine) : State :=
  let r := quarantineScanIn s p q
  if r.2 then setQuarantine r.1 p { q with armed := true } else quarantineFails r.1 p q

/-- QUARANTINE_REPLAY: collection first, then the scan-in of the next suspect, whose replay starts at the next
boundary. Log 92, DEDUCED. -/
def quarantineStep (s : State) (p : Nat) (q : Quarantine) : State :=
  if q.collected then quarantineArm s p q
  else
    let r := quarantineCollect s p q
    match r.2 with
    | some b => quarantineArm r.1 p { q with collected := true, bundle := b }
    | none => quarantineFails r.1 p q

def execQuarantineReplay (s : State) : Out1 :=
  done s (match quarantineDue s with
    | some (p, q) => quarantineStep s p q
    | none => s)

end Sys2Proof.Machine
end

