-- ==== Sys2Proof/Machine/Jobs.lean ====
section
/-!
DEFINITION. Jobs that span several chips (R360–R363): readiness, the barrier start and received brakes.
-/

namespace Sys2Proof.Machine

/-- Ports that carry VC0 words of a timetable's job. -/
def jobPorts (t : Timetable) : List Nat := (t.report.trunkWords.map (·.port)).eraseDups

/-- The link is UP and its skew is at most 4 ac (R361, R362). -/
def linkAligned (s : State) (p : Nat) : Bool :=
  decide ((look s.trunk p).state = .up) && decide ((look s.trunk p).skew.natAbs ≤ 4)

/-- Tick that stands for the boundary of a job whose GO is still to come. -/
def jobTick (c : Nat) : Nat := noTick + c

/-- The context whose admitted timetable belongs to a job. -/
def ctxOfJob (s : State) (job : BitVec 64) : Option Nat :=
  (ctxsWhere s fun t => decide (1 < t.report.chips) && decide (t.report.jobId = job)).head?

def setJob (s : State) (c : Nat) (f : Job → Job) : State :=
  { s with tts := upd s.tts c fun t => { t with job := f t.job } }

/-- One READY, as member 0 compares it: (member, CHIPS, PERIOD, TCK_PHASE, run length). -/
abbrev ReadyCell := Nat × Nat × Nat × BitVec 32 × Nat

/-- The run length a READY carries; 0 without limit. -/
def runOf (t : Timetable) : Nat := t.run.getD 0

/-- Log 189, DEDUCED. -/
def ownReady (s : State) (t : Timetable) : ReadyCell :=
  (t.report.member, t.report.chips, periodCode s, BitVec.ofNat 32 (reg s (bTck + 0xC)), runOf t)

/-- A READY replaces an earlier one of the same member. Log 189, DEDUCED. -/
def addReady (j : Job) (r : ReadyCell) : Job :=
  { j with ready := (j.ready.filter fun x => decide (x.1 ≠ r.1)) ++ [r] }

/-- Send the READY of context c's member, once its timetable is staged and its links are aligned (R361). -/
def sendReady (s : State) (c : Nat) : State :=
  let t := ttOf s c
  if t.job.state = .waiting ∧ t.job.readySent = false ∧ (jobPorts t).all (linkAligned s ·) then
    let s := setJob s c fun j => { j with readySent := true }
    if t.report.member = 0 then
      let early := (s.earlyReady.filter (·.1 = t.report.jobId)).map (·.2)
      let s := setJob s c fun j => (ownReady s t :: early).foldl addReady j
      { s with earlyReady := s.earlyReady.filter (·.1 ≠ t.report.jobId) }
    else
      sendAlarms s (t.report.members.take 1) 2 (alarmBody s t.report.jobId (runOf t) t.report.member t.report.chips 0)
  else s

/-- Every member's READY has come. -/
def allReady (t : Timetable) : Bool :=
  (List.range t.report.chips).all fun m => t.job.ready.any fun r => decide (r.1 = m)

/-- Every READY so far agrees with the member's own values. -/
def readyMatch (s : State) (t : Timetable) : Bool :=
  t.job.ready.all fun r => decide (r.2 = (ownReady s t).2)

/-- The swap of a job's timetable is named for a tick (R361). -/
def scheduleJob (s : State) (c tick ns : Nat) : State :=
  let p := partOfCtx c
  let s := setJob s c fun j => { j with startNs := some ns }
  { s with
    sdg := upd s.sdg p fun d => { d with groups := d.groups.map fun g => if g.tick = jobTick c then { g with tick := tick } else g }
    effects := s.effects.map fun e =>
      if e.effect = .swapIn p (jobTick c) 0 then { e with effect := .swapIn p tick 0, due := tick } else e }

/-- TCK_COUNT of the tick that opens at a PTP time, where that is a boundary of the tick grid still to come
(R18, R361). -/
def tickAtNs (s : State) (ns : Nat) : Option Nat :=
  let d := ns - s.tick.boundaryNs
  if s.tick.boundaryNs < ns ∧ d % periodNs (periodCode s) = 0 then some (tickCount s + d / periodNs (periodCode s))
  else none

/-- Member 0 sends GO at a tick boundary: T_s is the time of this boundary plus 2 ticks. -/
def sendGo (s : State) (c : Nat) : State :=
  let t := ttOf s c
  if t.report.member = 0 ∧ t.job.state = .waiting ∧ t.job.startNs = none ∧ allReady t ∧ readyMatch s t then
    let ns := s.tick.boundaryNs + 2 * periodNs (periodCode s)
    let s := scheduleJob s c (tickCount s + 2) ns
    sendAlarms s (otherMembers t [0]) 3 (alarmBody s t.report.jobId ns 0 t.report.chips 0)
  else s

/-- READY_RECEIVED (R361). Log 188, DEDUCED. -/
def readyReceived (s : State) (job : BitVec 64) (r : ReadyCell) : State :=
  match ctxOfJob s job with
  | none => { s with earlyReady := (s.earlyReady.filter fun x => decide (¬(x.1 = job ∧ x.2.1 = r.1))) ++ [(job, r)] }
  | some c =>
    let t := ttOf s c
    if t.report.member ≠ 0 ∨ t.job.state ≠ .waiting then s
    else
      let s := setJob s c fun j => addReady j r
      if readyMatch s (ttOf s c) then s else raiseBrake s c 5

def execReadyReceived (job : BitVec 64) (member chips period : Nat) (phase : BitVec 32) (run : Nat) (s : State) : Out1 :=
  done s (readyReceived s job (member, chips, period, phase, run))

/-- GO_RECEIVED (R361). Log 188, DEDUCED. -/
def goReceived (s : State) (job : BitVec 64) (ts off : Nat) : State :=
  let s := { s with tick := { s.tick with off := off } }
  match ctxOfJob s job with
  | none => s
  | some c =>
    if (ttOf s c).job.state ≠ .waiting then s
    else match tickAtNs s ts with
      | none => raiseBrake s c 5
      | some n =>
        if n = nextTick s ∧ tickLen s < off + 256 then raiseBrake s c 5 else scheduleJob s c n ts

def execGoReceived (job : BitVec 64) (ts off : Nat) (s : State) : Out1 := done s (goReceived s job ts off)

/-- BARRIER_TIMEOUT (R361): member 0 has not received every READY. Log 99, DEDUCED. -/
def execBarrierTimeout (ctx : Nat) (s : State) : Out1 :=
  let t := ttOf s ctx
  done s (if t.report.member = 0 ∧ t.job.state = .waiting ∧ t.job.startNs = none ∧ allReady t = false then
      raiseBrake s ctx 5
    else s)

/-! ## Brakes received (R363) -/

/-- The member has begun its passes and not yet stopped. -/
def passing (t : Timetable) : Bool :=
  decide (t.job.state = .running) || (decide (t.job.state = .braked) && decide (t.state ≠ .staged) && !t.job.stopped)

/-- The stop pass of a received brake, and whether it came late. -/
def brakePass (t : Timetable) (pass : Nat) : Nat × Bool :=
  if passing t ∧ pass ≤ t.job.pass then (t.job.pass + 1, true) else (pass, false)

/-- A brake learnt after its pass has begun is late (R363). -/
def noteLate (s : State) (c : Nat) (late : Bool) : State :=
  if late then orReg (setJob s c fun j => { j with brakeLate := true }) (bTrk + 0xC) 0x4 else s

/-- Members that a first brake is sent on to: all but this one, the sender and the originator. -/
def relayMembers (t : Timetable) (senderId originator : Nat) : List Nat :=
  (otherMembers t [t.report.member, originator]).filter fun d => decide (d ≠ senderId)

/-- Log 190, DEDUCED. -/
def firstBrake (s : State) (c port senderId pass cause originator : Nat) : State :=
  let t := ttOf s c
  let q := brakePass t pass
  let s := brakeHere s c q.1 cause
  let s := noteLate s c q.2
  let s := raiseFault s { code := 45, named := .context c, locKind := 6, location := port, off := s.tick.off }
  sendAlarms s (relayMembers t senderId originator) 1
    (alarmBody s t.report.jobId pass originator t.report.chips cause)

/-- BRAKE_RECEIVED: the earliest stop pass takes effect; only the first brake is sent on. Log 188, DEDUCED. -/
def brakeReceived (s : State) (port : Nat) (job : BitVec 64) (pass cause member off : Nat) : State :=
  let s := { s with tick := { s.tick with off := off } }
  match ctxOfJob s job with
  | none => s
  | some c =>
    if (ttOf s c).job.state = .braked then
      let q := brakePass (ttOf s c) pass
      noteLate (orReg (setJob s c fun j => jobBraked j q.1 cause) (bTrk + 0xC) 0x2) c q.2
    else firstBrake s c port (look s.trunk port).peerId pass cause member

def execBrakeReceived (port : Nat) (job : BitVec 64) (pass cause member off : Nat) (s : State) : Out1 :=
  done s (brakeReceived s port job pass cause member off)

end Sys2Proof.Machine
end

