-- ==== Sys2Proof/Machine/TtCommands.lean ====
section
/-!
DEFINITION. Commands on timetables: admission (R151–R156, R173), withdrawal, resume (R310) and the forced
cut of a tick-share quota (R309).
-/

namespace Sys2Proof.Machine

/-! ## Admission -/

/-- Ac from acceptance to READY of the HOST fill that stages an image (R167, R169, R173): the MAINLINE fill, one
beat per ac, the digest check, and what host-pool reads add, which is a free value. Log 111, DESIGN CHOICE. -/
def stageTime (s : State) (image : List Byte) : Nat :=
  128 + (image.length + 31) / 32 + 40 + (Config.freeBits s.fresh 32).toNat

/-- A staging of partition p armed for the same boundary. Log 112, DEDUCED. -/
def sameStaging (s : State) (p : Nat) (b : Nat × Nat) : Option SwapGroup :=
  (look s.sdg p).groups.find? fun g => g.staging && decide ((g.tick, g.slice) = b)

/-- A Siding that the admission needs cannot be written (R173). Log 112, DEDUCED. -/
def stagingBlocked (s : State) (p : Nat) (g : Option SwapGroup) (q : Nat) : Bool :=
  match sidingOf s p q with
  | .filling => true
  | .shunting => true
  | .scanning => true
  | .armed => match g with
    | some g => !g.qmask.getLsbD q
    | none => true
  | _ => false

/-- Quadrants that still need their MAINLINE fill. -/
def freshQuads (g : Option SwapGroup) (qs : List Nat) : List Nat :=
  match g with
  | some g => qs.filter fun q => !g.qmask.getLsbD q
  | none => qs

/-- The armed staging with one more timetable. Log 112, DEDUCED. Log 113, DEDUCED. -/
def stageGroup (s : State) (p : Nat) (b : Nat × Nat) (old : Option SwapGroup) (qs : List Nat) (c : Nat) : State :=
  { s with sdg := upd s.sdg p fun d => { d with groups :=
      match old with
      | some g => d.groups.map fun h =>
          if h = g then { g with qmask := g.qmask ||| maskOf qs, adds := g.adds ++ [c] } else h
      | none => d.groups ++
          [{ tick := b.1, slice := b.2, qmask := maskOf qs, adds := [c], staging := true }] } }

/-- Every MAINLINE fill of a staging. -/
def fillMains (s : State) (p : Nat) (qs : List Nat) : State :=
  qs.foldl (fun s q => fillMain s p q (BitVec.allOnes 64)) s

/-- Stage, arm and admit a candidate whose rows hold. -/
def stageTimetable (s : State) (x : Candidate) (run : Nat) (b : Nat × Nat) : State :=
  let p := partOfCtx x.ctx
  let g := sameStaging s p b
  let qs := quadsOf x.report
  let s := fillMains s p (freshQuads g qs)
  let s := { s with sdg := upd s.sdg p fun d =>
    { d with lib := d.lib.filter fun kv => decide (kv.1 ∉ freshQuads g qs) } }
  let s := stageItems s p x.image (imageItems x.report.tiles 0)
  let s := armQuads s p qs
  let s := admitTt (stageGroup s p b g qs x.ctx) x run
  sendReady (orReg s (bSdg + 0x24) 0x8) x.ctx

/-- The boundary of a staging: the first eligible one, or none yet for a job of several chips (R361). -/
def stagingBoundary (s : State) (h : CmdHdr) (c : Nat) (r : Report) (image : List Byte) : Nat × Nat × Nat :=
  let p := partOfCtx c
  firstEligible s p (maskOf (quadsOf r)) [r] (max (h.off + 256) (h.off + stageTime s image + 1))

/-- Where an admission is staged: no tick yet for a job of several chips (R361). -/
def admitPlace (x : Candidate) (b : Nat × Nat × Nat) : Nat × Nat :=
  if 1 < x.report.chips then (jobTick x.ctx, 0) else (b.1, b.2.1)

/-- The bytes as written do not hash to the digest: the Sidings have been written and become FAILED, and the command is
refused with DIGEST (R173). Log 249, DEDUCED. -/
def badDigest (s : State) (x : Candidate) (b : Nat × Nat × Nat) : Reply :=
  let p := partOfCtx x.ctx
  let g := sameStaging s p (admitPlace x b)
  let qs := quadsOf x.report
  if qs.any (stagingBlocked s p g) then refuse s stState
  else
    let s := fillMains s p (freshQuads g qs)
    let s := stageItems s p x.image (imageItems x.report.tiles 0)
    let s := withhold s p fun h => decide (some h = g)
    refuse (qs.foldl (fun s q => fillFailed { s with sdg := upd s.sdg p fun d => { d with lib := put d.lib q 0 } }
      { part := p, quad := q }) s) stDigest

def admitCandidate (h : CmdHdr) (s : State) (i : Nat) (x : Candidate) (run : Nat) (b : Nat × Nat × Nat) : Reply :=
  let p := partOfCtx x.ctx
  match failedRow s x [1, 2, 3, 4, 5, 6, 7, 8, 9, 10, 11, 12, 13] with
  | some row => if row = 4 then badDigest s x b else refuse s (stRow row)
  | none =>
    if (quadsOf x.report).any (stagingBlocked s p (sameStaging s p (admitPlace x b))) then refuse s stState
    else
      let place := admitPlace x b
      let s := stageTimetable { s with fresh := s.fresh + 1 } x run place
      let s := addEffect s h i place.1 (.swapIn p place.1 place.2)
      if 1 < x.report.chips then accept s else acceptAt s b.1 b.2.2

/-- Log 53, DEDUCED. -/
def ttAdmitBody (h : CmdHdr) (c group run image report imageLen reportLen : Nat) (s : State) (i : Nat) : Reply :=
  let rb := hostRead s (.function 0) 0 report reportLen
  let ib := hostRead rb.1 (.function 0) 0 image imageLen
  match readReport ((rb.2.map (·.1)).getD []) with
  | none => refuse ib.1 stBadParam
  | some r =>
    let im := (ib.2.map (·.1)).getD []
    let r := asLoaded r im
    let b := stagingBoundary ib.1 h c r im
    admitCandidate h ib.1 i { ctx := c, group := group, report := r, image := im, tick := b.1 } run b

/-- TT_ADMIT. -/
def execTtAdmit (h : CmdHdr) (ctx group run image report imageLen reportLen : Nat) (s : State) : Out1 :=
  done s (takeCommand s h { opcode := 0x0301, agent := 1, pends := true }
    (decide (ctx < 2048 ∧ group < 256 ∧ run < 2 ^ 32 ∧ image < 2 ^ 64 ∧ report < 2 ^ 64 ∧ imageLen < 2 ^ 32 ∧
      reportLen < 2 ^ 32))
    (hostOk s 0 image imageLen && hostOk s 0 report reportLen)
    (ttAdmitBody h ctx group run image report imageLen reportLen))

/-! ## Withdrawal (R156, R362) -/

/-- The timetable can be withdrawn. Log 136, DEDUCED. -/
def mayWithdraw (s : State) (c : Nat) : Bool :=
  match (ttOf s c).state with
  | .none => false
  | .withdrawing => false
  | _ => decide ((ctxOf s c).state ≠ .resetting)

/-- Log 136, DEDUCED. -/
def ttWithdrawBody (h : CmdHdr) (c : Nat) (s : State) (i : Nat) : Reply :=
  if mayWithdraw s c = false then refuse s stState
  else
    let s := raiseBrake { s with tick := { s.tick with off := h.off } } c 7
    let s := { s with tts := upd s.tts c fun t => { t with state := .withdrawing } }
    acceptAt (addEffect s h i (nextTick s) (.withdraw c)) (nextTick s) 0

/-- TT_WITHDRAW. -/
def execTtWithdraw (h : CmdHdr) (ctx : Nat) (s : State) : Out1 :=
  done s (takeCommand s h { opcode := 0x0302, agent := 1, pends := true } (decide (ctx < 2048)) true
    (ttWithdrawBody h ctx))

/-! ## Resume (R310) -/

/-- Tick-share use of the context's function with its timetable added is within the quota. Log 86, DEDUCED. -/
def resumeFits (s : State) (c : Nat) : Bool :=
  let f := funcOfCtx s c
  decide (f = 0) || decide (useTick s f [c] + occupancyOf (tickLen s) (ttOf s c).report ≤ (vfOf s f).qTick.toNat)

/-- Log 54, DEDUCED. -/
def ttResumeBody (h : CmdHdr) (c : Nat) (s : State) (i : Nat) : Reply :=
  if tenantHalted s (partOfCtx c) then refuseAt s stLevel (levelCode s.level) 0
  else if (ttOf s c).state ≠ .suspended ∨ (ctxOf s c).state = .resetting ∨ resumePending s c then refuse s stState
  else if resumeFits s c = false then refuseAt s stQuota 1 0
  else acceptAt (addEffect s h i (nextTick s) (.resume c)) (nextTick s) 0

/-- TT_RESUME. -/
def execTtResume (h : CmdHdr) (ctx : Nat) (s : State) : Out1 :=
  done s (takeCommand s h { opcode := 0x0303, agent := 1, pends := true } (decide (ctx < 2048)) true
    (ttResumeBody h ctx))

/-! ## Forced cut (R309) -/

/-- KIND 1 notice of a cut (R305). -/
def cutNotice (kind forced value tick : Nat) : Notice :=
  { kind := 1, detail := leBytes 1 kind ++ leBytes 1 forced ++ [0, 0] ++ leBytes 4 value ++ leBytes 8 tick }

/-- Log 135, DEDUCED. Log 136, DEDUCED. -/
def quotaForceBody (h : CmdHdr) (f q : Nat) (s : State) (i : Nat) : Reply :=
  if (vfOf s f).assigned = false ∨ (vfOf s f).cutPending then refuse s stState
  else
    let b := tickAfter4096 s
    let s := { s with vfs := upd s.vfs f fun v =>
      { v with qTick := BitVec.ofNat 32 q, cutPending := true, cutTick := BitVec.ofNat 64 b } }
    let s := notice s f (cutNotice 1 1 q b)
    acceptAt (addEffect s h i b (.forcedCut f)) b 0

/-- QUOTA_FORCE. -/
def execQuotaForce (h : CmdHdr) (func qTick : Nat) (s : State) : Out1 :=
  done s (takeCommand s h { opcode := 0x0304, agent := 1, pends := true }
    (decide (1 ≤ func ∧ func < 1024 ∧ qTick < 2 ^ 32)) true (quotaForceBody h func qTick))

end Sys2Proof.Machine
end

