-- ==== Sys2Proof/Machine/Tenancy.lean ====
section
/-!
DEFINITION. Partitions, contexts, functions, quotas, host cores, mailboxes, keys and attestation (R290–R322).
Each quota is checked when its resource is taken (R307); what each view may see is R311, through Operands.lean
and Read.lean.
-/

namespace Sys2Proof.Machine

def partReject (s : State) : State := orReg s (bPart + 0x4) 0x1

/-! ## The shadow cell table and the hart reservation (R292, R293, R300) -/

def swapPending (s : State) : Bool := s.effects.any fun e => isPlanSwap e.effect

/-- The partition named is a tenant one and OPEN, or the cell becomes idle. -/
def cellNameOk (s : State) (b : Byte) : Bool :=
  match ownerOfByte b with
  | some p => decide ((part s p).state = .opened) && !(part s p).radio
  | none => true

/-- A write of a shadow cell is stored: PART and OWNED; RADIO is read-only. -/
def cellWriteOk (s : State) (old new : Byte) : Bool :=
  !(old.getLsbD 6 && decide (new ≠ old &&& 0x3F)) && cellNameOk s new && !swapPending s

/-- PART_CELL_S_WRITE (R293). -/
def execPartCellSWrite (v : View) (byteOff : Nat) (data : Byte) (s : State) : Out1 :=
  let old := look s.cellS byteOff
  let new := data &&& 0x3F
  done s (if hasAccess v = false ∨ 2560 ≤ byteOff then s
    else if cellWriteOk s old new then
      if old.getLsbD 6 then s else { s with cellS := put s.cellS byteOff new }
    else partReject s)

/-- A hart named by a set bit runs a guest. Log 215, DEDUCED. -/
def guestOn (s : State) (word data : Nat) : Bool :=
  (setBitsOf 32 data).any fun i => decide (look s.harts (32 * word + i) ≠ 0)

/-- One 32-bit word of a 128-bit value replaced. -/
def wordOf128 (old : BitVec 128) (word data : Nat) : BitVec 128 :=
  BitVec.ofNat 128 (old.toNat - bits old.toNat (32 * word + 31) (32 * word) * 2 ^ (32 * word) + data * 2 ^ (32 * word))

/-- PART_HART_RSV_WRITE (R300). Log 215, DEDUCED. -/
def execPartHartRsvWrite (v : View) (word : Nat) (data : BitVec 32) (s : State) : Out1 :=
  done s (if hasAccess v = false ∨ 4 ≤ word then s
    else if guestOn s word data.toNat then partReject s
    else { s with store := { s.store with hartRsv := wordOf128 s.store.hartRsv word data.toNat } })

/-- GUEST_ENTRY (R300): the monitor refuses a reserved hart. -/
def execGuestEntry (hart func : Nat) (s : State) : Out1 :=
  done s (if hart < 128 ∧ 1 ≤ func ∧ func < 1024 ∧ coresRun s ∧ look s.harts hart = 0 ∧
      s.store.hartRsv.getLsbD hart = false then
      { s with harts := put s.harts hart func }
    else s)

/-- GUEST_EXIT (R300): the registers are saved into Function pages of f, and the tag returns to 0. -/
def execGuestExit (hart save : Nat) (regs : List Byte) (s : State) : Out1 :=
  let f := look s.harts hart
  done s (if f = 0 then s
    else { hostWrite s f none save regs with harts := erase s.harts hart })

/-- Harts of the part: 16 on each of the 8 network dies. -/
def hartCount : Nat := 128

/-- MONITOR_HART_SWITCH (R412): a hart of tag 0 takes the new monitor; with the last hart the new version and
measurement are in force. Log 217, DEDUCED. -/
def monitorSwitch (s : State) (hart : Nat) : State :=
  match s.life.monNew with
  | none => s
  | some v =>
    let hs := if hart ∈ s.life.monHarts then s.life.monHarts else hart :: s.life.monHarts
    if hs.length = hartCount then
      { s with life := { s.life with
          monHarts := [], monNew := none
          versions := s.life.versions.set 2 v
          measures := s.life.measures.set 2 s.life.monDigest } }
    else { s with life := { s.life with monHarts := hs } }

def execMonitorHartSwitch (hart : Nat) (s : State) : Out1 :=
  done s (if hart < hartCount ∧ look s.harts hart = 0 then monitorSwitch s hart else s)

/-! ## Quotas (R306–R308, R318) -/

/-- The word EGS_RING of a queue (R251). -/
def egsWord (s : State) (q : Nat) : Nat := reg s (bEgs + 0x10000 + 8 * q)

/-- Fair rings of a function that are bound: subport and weight. -/
def fairRings (s : State) (f : Nat) : List (Nat × Nat) :=
  (s.queues.filter fun kv => decide (kv.2.kind = 2 ∧ kv.2.func = f)).filterMap fun kv =>
    let w := egsWord s kv.1
    if bitOf w 15 ∧ bits w 8 7 = 2 then some (bits w 6 0, bits w 31 16) else none

/-- Sum of a list of rings' weights on one subport. -/
def weightOn (l : List (Nat × Nat)) (sub : Nat) : Nat := ((l.filter (·.1 = sub)).map (·.2)).sum

/-- Use of the egress-weight quota: the largest sum over the subports. -/
def useWeight (s : State) (f : Nat) : Nat := (fairRings s f).foldl (fun m x => max m (weightOn (fairRings s f) x.1)) 0

/-- Use of a quota by its kind: 1 tick, 2 pages, 3 queues, 4 weight. -/
def useOf (s : State) (f kind : Nat) : Nat :=
  if kind = 1 then useTick s f [] else if kind = 2 then usePages s f else if kind = 3 then useQueues s f else useWeight s f

/-- The quota after a write. -/
def withQuota (v : Vf) (kind data : Nat) : Vf :=
  if kind = 1 then { v with qTick := BitVec.ofNat 32 data }
  else if kind = 2 then { v with qPages := bits data 16 0 }
  else if kind = 3 then { v with qQueues := data }
  else { v with qWeight := BitVec.ofNat 32 data }

/-- The value a quota write stores. -/
def quotaValue (kind data : Nat) : Nat := if kind = 2 then bits data 16 0 else if kind = 3 then bits data 13 0 else data

def quotaWrite (s : State) (f kind data : Nat) : State :=
  let n := quotaValue kind data
  if (vfOf s f).cutPending ∨ (kind = 3 ∧ 8192 < n) then partReject s
  else
    let s := { s with vfs := upd s.vfs f fun v => withQuota v kind n }
    if n < useOf s f kind then notice s f (cutNotice kind 0 n (tickCount s)) else s

/-- VF_QUOTA_WRITE (R308): in the block of f = 0 it is discarded. -/
def execVfQuotaWrite (v : View) (func quota : Nat) (data : BitVec 32) (s : State) : Out1 :=
  done s (if hasAccess v ∧ 1 ≤ func ∧ func < 1024 ∧ 1 ≤ quota ∧ quota ≤ 4 then quotaWrite s func quota data.toNat else s)

/-- VF_TCTRL_WRITE (R321): the value read back changes at once, the settings in effect at the next boundary. Log
216, DEDUCED. -/
def execVfTctrlWrite (v : View) (func : Nat) (data : BitVec 32) (s : State) : Out1 :=
  done s (if v ≠ .o ∧ 1 ≤ func ∧ func < 1024 then
      { s with vfs := upd s.vfs func fun x => { x with tctrl := BitVec.ofNat 3 data.toNat } }
    else s)

/-! ## Mailboxes (R303–R305) -/

/-- Status bits of a mailbox. -/
def mbxBits (m : Mailbox) : List Bool := [m.outBusy, m.outDone, m.outTimeout, m.refused, m.inFull, m.inTimeout]

/-- A status bit rose. Log 214, DEDUCED. -/
def mbxRose (a b : Mailbox) : Bool := ((mbxBits a).zip (mbxBits b)).any fun x => !x.1 && x.2

/-- Change a mailbox; vector 0 of the function fires on a new status bit (R330). -/
def mbxSet (s : State) (f : Nat) (g : Mailbox → Mailbox) : State :=
  let m := (vfOf s f).mbx
  let t := { s with vfs := upd s.vfs f fun v => { v with mbx := g v.mbx } }
  if mbxRose m (g m) then sendVec t f 0 else t

def isVf (f : Nat) : Bool := decide (1 ≤ f) && decide (f < 1024)

/-- MBX_PENDING bit of a function. -/
def setPendingBit (s : State) (f : Nat) : State := orReg s (bMbx + 4 * (f / 32)) (2 ^ (f % 32))
def clrPendingBit (s : State) (f : Nat) : State := clrReg s (bMbx + 4 * (f / 32)) (2 ^ (f % 32))

/-- Log 214, DEDUCED. -/
def mbxSend (s : State) (f len : Nat) : State :=
  if (vfOf s f).mbx.outBusy then mbxSet s f fun m => { m with refused := true }
  else orReg (setPendingBit (mbxSet s f fun m =>
    { m with outBusy := true, outLen := len, outSeq := m.outSeq + 1 }) f) (bMbx + 0x118) 0x1

/-- MBX_T_SEND (R303): a length of 1 to 256. -/
def execMbxTSend (func : Nat) (data : BitVec 32) (s : State) : Out1 :=
  done s (if isVf func ∧ within (bits data.toNat 8 0) 1 256 then mbxSend s func (bits data.toNat 8 0) else s)

/-- The function that MBX_SEL names. -/
def mbxSel (s : State) : Nat := bits (reg s (bMbx + 0x100)) 9 0

/-- MBX_OUT_ACK (R303, R304): after a withdrawal it is discarded. -/
def execMbxOutAck (v : View) (data : BitVec 32) (s : State) : Out1 :=
  let f := mbxSel s
  done s (if hasAccess v ∧ data.getLsbD 0 ∧ (vfOf s f).mbx.outBusy then
      clrPendingBit (mbxSet s f fun m => { m with outBusy := false, outDone := true }) f
    else s)

def inboundBytes (s : State) (len : Nat) : Table Byte := s.inData.filter fun kv => decide (kv.1 < len)

/-- Log 214, DEDUCED. -/
def mbxPost (s : State) (f len : Nat) : State :=
  if (vfOf s f).mbx.inFull then orReg s (bMbx + 0x118) 0x8
  else mbxSet s f fun m => { m with inFull := true, inLen := len, inSeq := m.inSeq + 1, inb := inboundBytes s len }

/-- MBX_IN_POST (R303). -/
def execMbxInPost (v : View) (data : BitVec 32) (s : State) : Out1 :=
  done s (if hasAccess v ∧ within (bits data.toNat 8 0) 1 256 then mbxPost s (mbxSel s) (bits data.toNat 8 0) else s)

/-- MBX_T_IN_ACK (R303). -/
def execMbxTInAck (func : Nat) (data : BitVec 32) (s : State) : Out1 :=
  done s (if isVf func ∧ data.getLsbD 0 ∧ (vfOf s func).mbx.inFull then
      orReg (mbxSet s func fun m => { m with inFull := false }) (bMbx + 0x118) 0x2
    else s)

/-- A value of NTAIL that leaves at most 8 notices unread. -/
def ntailOk (m : Mailbox) (n : BitVec 8) : Bool := decide ((m.nhead - n).toNat ≤ 8)

/-- MBX_T_NTAIL_WRITE (R305). -/
def execMbxTNtailWrite (func : Nat) (data : BitVec 32) (s : State) : Out1 :=
  let n := BitVec.ofNat 8 data.toNat
  done s (if isVf func ∧ ntailOk (vfOf s func).mbx n then
      { s with vfs := upd s.vfs func fun v => { v with mbx := { v.mbx with ntail := n } } }
    else s)

/-- A message is withdrawn (R304). -/
def mbxWithdraw (s : State) (f : Nat) (outbound : Bool) : State :=
  let s := if outbound then
      clrPendingBit (mbxSet s f fun m => { m with outBusy := false, outTimeout := true }) f
    else mbxSet s f fun m => { m with inFull := false, inTimeout := true }
  incReg (orReg s (bMbx + 0x118) 0x4) (bMbx + 0x120) 1

/-- MBX_TIMEOUT_EXPIRY (R304). -/
def execMbxTimeoutExpiry (func : Nat) (outbound : Bool) (s : State) : Out1 :=
  let m := (vfOf s func).mbx
  done s (if isVf func ∧ (if outbound then m.outBusy else m.inFull) then mbxWithdraw s func outbound else s)

/-! ## Partitions (R290, R291) -/

/-- Log 58, DEDUCED. -/
def partOpenBody (p radio f : Nat) (s : State) (_ : Nat) : Reply :=
  if (part s p).state ≠ .free ∨ (radio = 0 ∧ (vfOf s f).assigned = false) then refuse s stState
  else accept (setPartState { s with parts := put s.parts p { radio := decide (radio = 1), func := f } } p .opened)

/-- PART_OPEN: a radio partition names PF, a tenant one a VF. Log 58, DEDUCED. -/
def execPartOpen (h : CmdHdr) (part radio func : Nat) (s : State) : Out1 :=
  done s (takeCommand s h { opcode := 0x0201, agent := 1 }
    (decide (part < 32 ∧ radio ≤ 1 ∧ func < 1024 ∧ (radio = 1 ↔ func = 0))) true (partOpenBody part radio func))

/-- The partition owns a cell of a table in one of the plan's slices; entries beyond them are ignored (R292). -/
def ownsCell (t : Table Byte) (n p : Nat) : Bool :=
  t.any fun kv => decide (kv.1 / 160 < n) && decide (ownerOfByte kv.2 = some p)

/-- What a partition still holds (R291). -/
def partHolds (s : State) (p : Nat) : Bool :=
  ownsCell s.cellA (activeStarts s).length p || ownsCell s.cellS (shadowN s) p || s.pcs.any (fun kv => decide (kv.2.owner = .partition ∧ kv.2.part = p)) ||
    ctxsOfPart s p ≠ [] || s.lib.any (fun kv => (kv.2.used || kv.2.writing) && decide (kv.2.part = p)) ||
    s.effects.any fun e => match e.effect with | .reserve q _ _ => decide (q = p) | _ => false

def partCloseBody (p : Nat) (s : State) (_ : Nat) : Reply :=
  let st := (part s p).state
  if st = .free ∨ st = .resetting then refuse s stState
  else if partHolds s p then refuse s stInUse
  else
    let s := setPartState s p .free
    accept { s with parts := erase s.parts p }

/-- PART_CLOSE. -/
def execPartClose (h : CmdHdr) (part : Nat) (s : State) : Out1 :=
  done s (takeCommand s h { opcode := 0x0202, agent := 1 } (decide (part < 32)) true (partCloseBody part))

def partReturnBody (p : Nat) (s : State) (_ : Nat) : Reply :=
  if (part s p).state = .outOfService then accept (setPartState s p .opened) else refuse s stState

/-- PART_RETURN (R387). -/
def execPartReturn (h : CmdHdr) (part : Nat) (s : State) : Out1 :=
  done s (takeCommand s h { opcode := 0x0203, agent := 1 } (decide (part < 32)) true (partReturnBody part))

/-! ## Contexts (R294, R117) -/

/-- A tenant's command names a partition that is not its own. Log 59, DEDUCED. -/
def foreign (s : State) (src : CmdSrc) (p : Nat) : Bool :=
  decide (srcFunc s src ≠ 0) && decide (funcOfPart s p ≠ srcFunc s src)

def newCtx (s : State) (c : Nat) (seed : BitVec 64) : Ctx :=
  { state := .ready, seed := seed, seeded := decide (seed ≠ 0), postmark := (ctxOf s c).postmark, created := s.tick.count }

/-- Log 59, DEDUCED. -/
def ctxCreateBody (h : CmdHdr) (p slot : Nat) (seed : BitVec 64) (s : State) (_ : Nat) : Reply :=
  let c := 64 * p + slot
  if (part s p).state ≠ .opened then refuse s stState
  else if foreign s h.src p then refuse s stNotPermitted
  else if (ctxOf s c).state ≠ .free then refuse s stState
  else accept { s with ctxs := put s.ctxs c (newCtx s c seed) }

/-- CTX_CREATE. -/
def execCtxCreate (h : CmdHdr) (part slot : Nat) (seed : BitVec 64) (s : State) : Out1 :=
  done s (takeCommand s h { opcode := 0x0205, agent := 1, fromT := true } (decide (part < 32 ∧ slot < 64)) true
    (ctxCreateBody h part slot seed))

/-- A page in, or on its way into, the Context state for context c. -/
def ctxPage (s : State) (c : Nat) (kv : Nat × Page) : Bool :=
  decide ((pcOf s (kv.1 / 512)).owner = .partition) &&
    ((decide (kv.2.kind = .context) && decide (kv.2.owner = c)) ||
      (decide (kv.2.kind = .clearing) && decide (kv.2.next = .context) && decide (kv.2.nextOwner = c)))

/-- Its pages stay in the Context state, readable by nobody, until they are released (R214, R294). Log
59, DEDUCED. -/
def ctxRemoveBody (h : CmdHdr) (c : Nat) (s : State) (_ : Nat) : Reply :=
  if foreign s h.src (partOfCtx c) then refuse s stNotPermitted
  else if (ctxOf s c).state ≠ .ready then refuse s stState
  else accept { s with
    ctxs := upd s.ctxs c fun x => { postmark := x.postmark }
    pages := mapT s.pages fun k pg => if ctxPage s c (k, pg) then { pg with orphan := true } else pg }

/-- CTX_REMOVE: a READY context. -/
def execCtxRemove (h : CmdHdr) (ctx : Nat) (s : State) : Out1 :=
  done s (takeCommand s h { opcode := 0x0206, agent := 1, fromT := true } (decide (ctx < 2048)) true
    (ctxRemoveBody h ctx))

/-- The context takes a seed. -/
def seedCtx (s : State) (c : Nat) (seed : BitVec 64) : State :=
  { s with ctxs := upd s.ctxs c fun x => { x with seed := seed, seeded := x.seeded || decide (seed ≠ 0) } }

def ctxSeedBody (c : Nat) (seed : BitVec 64) (s : State) (_ : Nat) : Reply :=
  if (ctxOf s c).state = .ready then accept (seedCtx s c seed) else refuse s stState

/-- CTX_SEED. -/
def execCtxSeed (h : CmdHdr) (ctx : Nat) (seed : BitVec 64) (s : State) : Out1 :=
  done s (takeCommand s h { opcode := 0x0207, agent := 2 } (decide (ctx < 2048)) true (ctxSeedBody ctx seed))

/-- A seed reaches the selected context, or is discarded with SEED_REJECT. Log 218, DEDUCED. -/
def ariSeed (s : State) (seed : BitVec 64) : State :=
  let c := bits (reg s (bAri + 0x4)) 10 0
  if (ctxOf s c).state = .ready then seedCtx s c seed else orReg s (bAri + 0x18) 0x10

/-- ARI_SEED_WRITE, 64 bits (R134). -/
def execAriSeedWrite (v : View) (data : BitVec 64) (s : State) : Out1 :=
  done s (if hasAccess v then ariSeed s data else s)

/-- ARI_SEED_LOW_WRITE: held in the view's staging register. -/
def execAriSeedLowWrite (v : View) (data : BitVec 32) (s : State) : Out1 :=
  done s (if hasAccess v then
      { s with seedStage := if v = .c then (data, s.seedStage.2) else (s.seedStage.1, data) }
    else s)

/-- The low word that a view has staged. Log 218, DEDUCED. -/
def stagedLow (s : State) (v : View) : Word32 := if v = .c then s.seedStage.1 else s.seedStage.2

/-- ARI_SEED_HIGH_WRITE: applies the staged low word and the written high word, and clears the stage. Log 218,
DEDUCED. -/
def execAriSeedHighWrite (v : View) (data : BitVec 32) (s : State) : Out1 :=
  done s (if hasAccess v then
      let t := ariSeed s (data ++ stagedLow s v)
      { t with seedStage := if v = .c then (0, s.seedStage.2) else (s.seedStage.1, 0) }
    else s)

/-- ARI_SEED_SEL_WRITE: clears what is staged. -/
def execAriSeedSelWrite (v : View) (data : BitVec 32) (s : State) : Out1 :=
  done s (if hasAccess v then { setReg s (bAri + 0x4) (bits data.toNat 10 0) with seedStage := (0, 0) } else s)

/-! ## Functions and domains (R297, R299, R213) -/

/-- Blocks granted to dies for a domain are gone. -/
def dropBlocks (s : State) (f : Nat) : State :=
  { s with
    blocks := s.blocks.filter fun kv => decide (kv.1 % 2048 ≠ f)
    seqBlocks := s.seqBlocks.filter fun kv => decide (kv.1 % 1024 ≠ f) }

/-- Postmarks of a function's contexts advance (R374). Log 204, DEDUCED. -/
def advanceMarks (s : State) (f : Nat) : State :=
  { s with
    vfs := upd s.vfs f fun v => { v with postmark := v.postmark + 1 }
    ctxs := mapT s.ctxs fun c x => if funcOfCtx s c = f then { x with postmark := x.postmark + 1 } else x }

/-- A fresh key domain with its memory key, agreement key pair and scan key. -/
def newDomain (s : State) : Domain :=
  { state := .active, memKey := s.fresh + 1, agreeKey := s.fresh + 2, scanGen := s.fresh + 3 }

def vfAssignBody (f tenant : Nat) (s : State) (_ : Nat) : Reply :=
  if (vfOf s f).assigned then refuse s stState
  else if s.vfs.any fun kv => kv.2.assigned && decide (kv.2.tenant = tenant) then refuse s stInUse
  else
    let d := newDomain s
    let s := advanceMarks (dropBlocks { s with fresh := s.fresh + 3, domains := put s.domains f d } f) f
    accept { s with vfs := upd s.vfs f fun v =>
      { v with
        assigned := true, tenant := tenant, pcieT := false, ctrlT := 0, tctrl := 0
        qTick := 0, qPages := 0, qQueues := 0, qWeight := 0 } }

/-- VF_ASSIGN. -/
def execVfAssign (h : CmdHdr) (func tenant : Nat) (s : State) : Out1 :=
  done s (takeCommand s h { opcode := 0x0901, agent := 2 }
    (decide (1 ≤ func ∧ func < 1024 ∧ 1 ≤ tenant ∧ tenant < 65536)) true (vfAssignBody func tenant))

/-- A page is held by f, in any state but Free. -/
def pageHeldBy (s : State) (f : Nat) (kv : Nat × Page) : Bool :=
  let x := pcOf s (kv.1 / 512)
  match kv.2.kind with
  | .free => false
  | .context => decide (funcOfCtx s kv.2.owner = f)
  | .function => decide (kv.2.owner = f)
  | .shared => decide (x.owner = .partition) && decide (funcOfPart s x.part = f)
  | .clearing =>
    (decide (x.owner = .partition) && decide (funcOfPart s x.part = f)) ||
      (decide (x.owner = .hostPool) && (decide (kv.2.owner = f) || (decide (kv.2.next = .function) && decide (kv.2.nextOwner = f))))

/-- What keeps a function from being released (R297). -/
def vfHolds (s : State) (f : Nat) : Bool :=
  partsOfFunc s f ≠ [] || s.pages.any (pageHeldBy s f) || queuesOf s f ≠ [] ||
    s.binds.any fun kv => kv.2.valid && decide (kv.2.func = f)

/-- A release of a function that is not assigned names an object in no state for it (R337, STATE). Log 57,
DEDUCED. -/
def vfReleaseBody (f : Nat) (s : State) (_ : Nat) : Reply :=
  if (vfOf s f).assigned = false then refuse s stState
  else if vfHolds s f then refuse s stInUse
  else
    let s := dropBlocks (functionReset s f) f
    accept { s with
      domains := erase s.domains f
      vfs := upd s.vfs f fun v => { postmark := v.postmark, flt := v.flt } }

/-- VF_RELEASE. -/
def execVfRelease (h : CmdHdr) (func : Nat) (s : State) : Out1 :=
  done s (takeCommand s h { opcode := 0x0902, agent := 2 } (decide (1 ≤ func ∧ func < 1024)) true (vfReleaseBody func))

/-! ## Keys (R298, R299) -/

/-- Bytes of the buffer: the installer's ephemeral public key, x then y, then the wrapped key. Log 63, PRESUMED.
-/
def wrapLen (slot : Nat) : Nat := if slot = 3 then 48 else 40

/-- Log 63, PRESUMED. -/
def keyBufLen (slot : Nat) : Nat := 96 + wrapLen slot

/-- The key-encryption key of a domain and slot. Log 63, PRESUMED. -/
def kekOf (s : State) (f slot : Nat) (peer : List Byte) : List Byte :=
  hkdf384 [] (Config.sharedSecret (look s.domains f).agreeKey (ofBe peer)) (leBytes 2 f ++ leBytes 1 slot) 32

/-- The key that a buffer installs. Log 63, PRESUMED. -/
def unwrapped (s : State) (f slot : Nat) (buf : List Byte) : Option (List Byte) :=
  match unwrapKey (kekOf s f slot (slice buf 0 96)) (slice buf 96 (wrapLen slot)) with
  | some k => if k.length = (if slot = 3 then 36 else 32) then some k else none
  | none => none

/-- Log 63, PRESUMED. -/
def keyInstallBody (h : CmdHdr) (slot addr : Nat) (s : State) (i : Nat) : Reply :=
  let f := srcFunc s h.src
  if f = 0 ∧ slot ≠ 4 then refuse s stNotPermitted
  else
    let r := hostRead s (.function f) f addr (keyBufLen slot)
    match r.2 with
    | some (b, false) =>
      match unwrapped r.1 f slot b with
      | some k => acceptAt (addEffect r.1 h i (nextTick s) (.installKey f slot k)) (nextTick s) 0
      | none => refuse r.1 stDigest
    | _ => refuse r.1 stDigest

/-- KEY_INSTALL. -/
def execKeyInstall (h : CmdHdr) (slot addr : Nat) (s : State) : Out1 :=
  done s (takeCommand s h { opcode := 0x0903, agent := 2, fromT := true, pends := true }
    (decide (1 ≤ slot ∧ slot ≤ 4 ∧ addr < 2 ^ 64)) (hostOk s (srcFunc s h.src) addr (keyBufLen slot))
    (keyInstallBody h slot addr))

/-- An installed key takes effect at a boundary, with its KIND 6 notice (R305). -/
def installKey (s : State) (f slot : Nat) (k : List Byte) : State :=
  let s := { s with domains := upd s.domains f fun d =>
    if slot = 1 then { d with req0 := k } else if slot = 2 then { d with req1 := k }
    else if slot = 3 then { d with reply := k } else { d with scan := k } }
  notice s f { kind := 6, detail := leBytes 8 slot ++ leBytes 8 (tickCount s) }

/-! ## Attestation (R312, R313) -/

/-- State of a timetable as TTB_CTX_STATE reports it (R163). -/
def ttCode (t : TtState) : Nat :=
  match t with
  | .none => 0 | .staged => 1 | .running => 2 | .suspended => 3 | .faulted => 4 | .withdrawing => 5

def attestRow (s : State) (c : Nat) : List Byte :=
  let t := ttOf s c
  leBytes 2 c ++ leBytes 1 (ttCode t.state) ++
    leBytes 1 (ofBool t.report.radio + 2 * ofBool t.report.standing + 4 * ofBool t.report.exactRed +
      8 * ofBool t.report.stateless) ++ leBytes 4 0 ++ slice t.report.digest 0 48

/-- Bytes of the active slice starts and the partition's cell bytes, in table order. -/
def cellsHashed (s : State) (p : Nat) : List Byte :=
  (activeStarts s).flatMap (leBytes 4) ++
    (List.range (160 * (activeStarts s).length)).filterMap fun i =>
      if ownerOfByte (look s.cellA i) = some p then some (look s.cellA i) else none

/-- Pseudo-channels of a partition. -/
def pcMaskOf (s : State) (p : Nat) : Nat :=
  s.pcs.foldl (fun m kv => if kv.2.owner = .partition ∧ kv.2.part = p then m ||| 2 ^ kv.1 else m) 0

def quadMaskOf (s : State) (p : Nat) : Nat := (quadsOfPart s p).foldl (fun m q => m ||| 2 ^ q) 0

/-- A report up to its signature. -/
def attestBody (s : State) (p : Nat) (nonce : BitVec 256) : List Byte :=
  let x := part s p
  let f := funcOfPart s p
  let cs := ttsOfPart s p
  leBytes 2 1 ++ leBytes 2 0 ++ leBytes 1 p ++
    leBytes 1 (ofBool x.radio + 2 * ofBool (vfOf s f).pcieT + 4 * partStateCode x.state) ++ leBytes 2 f ++
    leBytes 32 nonce.toNat ++ leBytes 8 (tickCount s) ++
    (s.life.versions.take 3).flatMap (fun v => leBytes 4 v.toNat) ++ leBytes 4 (reg s (bAri + 0x20)) ++
    (s.life.measures.take 3).flatMap (fun m => slice m 0 48) ++ slice (mapDigest s) 0 48 ++
    leBytes 20 (quadMaskOf s p) ++ leBytes 12 0 ++ sha384 (cellsHashed s p) ++ leBytes 32 (pcMaskOf s p) ++
    slice (Config.publicKey (look s.domains f).agreeKey) 0 96 ++ leBytes 2 cs.length ++ leBytes 14 0 ++
    cs.flatMap (attestRow s)

/-- Number of the SC firmware's Alias key: it changes with the firmware (R411). Log 65, DESIGN CHOICE. -/
def aliasKey (s : State) : Nat := 2 + 4 * ((s.life.versions.headD 0).toNat)

/-- The whole report. -/
def attestReport (s : State) (p : Nat) (nonce : BitVec 256) : List Byte :=
  let b := attestBody s p nonce
  b ++ slice (Config.signature (aliasKey s) (sha384 b)) 0 96

def attestBodyCmd (h : CmdHdr) (p dest : Nat) (nonce : BitVec 256) (s : State) (i : Nat) : Reply :=
  if foreign s h.src p then refuse s stNotPermitted
  else finishLater (addEffect s h i (nextTick s) (.attest p dest nonce))

/-- ATTEST. -/
def execAttest (h : CmdHdr) (part dest : Nat) (nonce : BitVec 256) (s : State) : Out1 :=
  done s (takeCommand s h { opcode := 0x0904, agent := 2, fromT := true, atBeacon := true, pends := true }
    (decide (part < 32 ∧ dest < 2 ^ 64)) (hostOk s (srcFunc s h.src) dest (attestLen s part))
    (attestBodyCmd h part dest nonce))

/-- The report is taken, written to its buffer, and the command's status given. -/
def takeReport (s : State) (e : Pending) (p dest : Nat) (nonce : BitVec 256) : State :=
  let f := srcFunc s e.src
  let b := attestReport s p nonce
  let s := hostWrite s f none dest b
  writeStatus s e.src
    { opcode := e.opcode.toNat, token := e.token, index := e.index, agent := 2, result0 := b.length
      postmark := (vfOf s f).postmark.toNat }

/-- The certificate asked for: the Alias certificate changes with the firmware. Log 65, DESIGN CHOICE. -/
def certOf (s : State) (which : Nat) : List Byte := Config.certificate (if which = 2 then aliasKey s else which)

def certGetBody (h : CmdHdr) (which dest : Nat) (s : State) (_ : Nat) : Reply :=
  let b := certOf s which
  acceptAt (hostWrite s (srcFunc s h.src) none dest b) b.length 0

/-- CERT_GET. -/
def execCertGet (h : CmdHdr) (which dest : Nat) (s : State) : Out1 :=
  done s (takeCommand s h { opcode := 0x0905, agent := 2, fromT := true, atBeacon := true }
    (decide (1 ≤ which ∧ which ≤ 2 ∧ dest < 2 ^ 64)) (hostOk s (srcFunc s h.src) dest (certOf s which).length)
    (certGetBody h which dest))

end Sys2Proof.Machine
end

