-- ==== Sys2Proof/Machine/Egress.lean ====
section
/-!
DEFINITION. Transmit rings and the egress schedulers (R232–R241, R251), and a port's split and link (R219, R220,
R246).
-/

namespace Sys2Proof.Machine

/-! ## Subports -/

def subKey (port sub : Nat) : Nat := 8 * port + sub

/-- Rate of a port's subports in Gb/s (R219). -/
def rateOf (s : State) (port : Nat) : Nat := 800 / subportsOf s port

/-- ac that n byte times take (R258). -/
def byteAc (s : State) (port n : Nat) : Nat := 12 * n / rateOf s port

/-- The subport exists in the split in force and its link is up. -/
def linkUp (s : State) (port sub : Nat) : Bool :=
  decide (port < 16) && decide (sub < subportsOf s port) && bitOf (reg s (bMac + 0x10000 * port + 0x4)) sub

/-- ac counted over ticks. -/
def absAc (s : State) (off : Nat) : Nat := tickCount s * tickLen s + off

/-- Nanoseconds of an instant `ac` after the boundary at `ns`, corrected by a signed number of tenths, rounded
down. Log 138, DEDUCED. -/
def stampAt (ns ac : Nat) (tenths : Int) : Nat := ((30 * (ns : Int) + 20 * ac + 3 * tenths) / 30).toNat

def maxLen (s : State) (port : Nat) : Nat := bits (reg s (bMac + 0x10000 * port + 0x8)) 13 0

/-- Address of a subport's counter (R249). -/
def cntAddr (port sub o : Nat) : Nat := bCnt + 0x1000 * port + 0x200 * sub + o

def cnt (s : State) (port sub o n : Nat) : State := bump s (cntAddr port sub o) n

/-- Band of a frame length (R249). -/
def sizeBand (n : Nat) : Nat :=
  if n ≤ 64 then 0 else if n ≤ 127 then 1 else if n ≤ 255 then 2 else if n ≤ 511 then 3 else if n ≤ 1023 then 4
  else if n ≤ 1518 then 5 else if n ≤ 2047 then 6 else if n ≤ 4095 then 7 else 8

/-- 0 unicast, 1 multicast, 2 broadcast. -/
def castOf (b : List Byte) : Nat :=
  if b.take 6 = List.replicate 6 0xFF then 2 else if bitOf (beAt b 0 1) 0 then 1 else 0

/-- Count a frame in one direction's counters, at base 0 or 0x100. -/
def countFrame (s : State) (port sub base : Nat) (b : List Byte) (octets band : Nat) : State :=
  cnt (cnt (cnt (cnt s port sub base 1) port sub (base + 8) octets) port sub (base + 0x10 + 8 * castOf b) 1) port sub
    (base + 0x28 + 8 * band) 1

/-! ## The fair class (R237) -/

def ringPort (s : State) (q : Nat) : Nat := bits (egsWord s q) 3 0
def ringSub (s : State) (q : Nat) : Nat := bits (egsWord s q) 6 4
def ringClass (s : State) (q : Nat) : Nat := bits (egsWord s q) 8 7
/-- Log 151, DEDUCED. -/
def ringBound (s : State) (q : Nat) : Bool := bitOf (egsWord s q) 15
def ringWeight (s : State) (q : Nat) : Nat := bits (egsWord s q) 31 16
def ringSubKey (s : State) (q : Nat) : Nat := subKey (ringPort s q) (ringSub s q)

/-- Tags are compared as signed differences modulo 2^64. -/
def tagLe (a b : BitVec 64) : Bool := !(b - a).msb

/-- The advance of a ring's tag for a frame: charged bytes over weight, in units of 2^-16, rounded up. -/
def tagStep (s : State) (q : Nat) (it : TxItem) : BitVec 64 :=
  let charged := wireLen s (ringPort s q) (ringSub s q) it.bytes + bits (reg s (bEgs + 4 * ringPort s q)) 6 0
  let w := max 1 (ringWeight s q)
  BitVec.ofNat 64 ((charged * 65536 + w - 1) / w)

/-- A frame joins its ring; a ring that wakes from empty starts no earlier than the virtual time. -/
def enqueue (s : State) (q : Nat) (it : TxItem) : State :=
  let r := look s.txRings q
  let v := (look s.egress (ringSubKey s q)).vtime
  let start := if tagLe r.finish v then v else r.finish
  let r' : TxRing := if r.items = [] then { items := [it], finish := start + tagStep s q it }
    else { r with items := r.items ++ [it] }
  { s with txRings := put s.txRings q r' }

/-- The head leaves its ring; the frame behind it gets its tag. -/
def popRing (s : State) (q : Nat) : State :=
  let r := look s.txRings q
  let r' : TxRing := match r.items.drop 1 with
    | [] => { r with items := [] }
    | it :: l => { items := it :: l, finish := r.finish + tagStep s q it }
  { s with txRings := put s.txRings q r' }

/-- A ring's tag with other items behind the same start: a head that never left is not charged. Log 155,
DEDUCED. -/
def retagged (s : State) (q : Nat) (r : TxRing) (items : List TxItem) : TxRing :=
  match r.items, items with
  | a :: _, b :: _ => if a = b then { r with items := items } else
      { items := items, finish := r.finish - tagStep s q a + tagStep s q b }
  | a :: _, [] => { items := [], finish := r.finish - tagStep s q a }
  | [], _ => { r with items := items }

/-- Take items out of a ring. Log 155, DEDUCED. -/
def dropItems (s : State) (q : Nat) (gone : TxItem → Bool) : State :=
  { s with txRings := upd s.txRings q fun r => retagged s q r (r.items.filter fun i => !gone i) }

/-! ## Requests whose reply is on its way (R264, R268, R270) -/

def holdAt (s : State) (i n : Nat) : Hold := look (look s.binds i).holds n

def updHold (s : State) (i n : Nat) (f : Hold → Hold) : State :=
  { s with binds := upd s.binds i fun b => { b with holds := upd b.holds n f } }

/-- The verdict is given and the reply's fate is settled: hold place and reply entry are free (R259, R268). Log
162, DEDUCED. -/
def holdDone (h : Hold) : Bool :=
  h.verdict.isSome && !h.recallDue && (h.noReply || decide (h.reply = .sent) || decide (h.reply = .removed))

/-- A binding that was removed goes with its last request. -/
def keptBinding (b : Binding) : Binding := if b.valid = false ∧ b.holds = [] then {} else b

/-- Log 162, DEDUCED. -/
def freeHold (s : State) (i n : Nat) : State :=
  { s with binds := upd s.binds i fun b => keptBinding { b with holds := erase b.holds n } }

/-- Log 162, DEDUCED. -/
def settle (s : State) (i n : Nat) : State := if holdDone (holdAt s i n) then freeHold s i n else s

/-- A reply whose context's postmark has moved on is dropped before it is sent (R375). -/
def replyStale (s : State) (it : TxItem) : Bool :=
  match it.reply with
  | some (i, n) => !it.isRecall && decide ((holdAt s i n).postmark ≠ (ctxOf s (look s.binds i).ctx).postmark)
  | none => false

/-- A reply or notice that may not leave: stale, or below the level at which anything is sent (R270). -/
def replyBarred (s : State) (it : TxItem) : Bool :=
  it.reply.isSome && (decide (s.level = .beacon) || replyStale s it)

/-- Drop what may not leave from a ring. -/
def dropBarred (s : State) (q : Nat) : State :=
  let out := (look s.txRings q).items.filter (replyBarred s)
  let late := (out.filter (replyStale s)).length
  let s' := dropItems (if late = 0 then s else incReg s (bFlt + 0x1C) late) q (replyBarred s)
  out.foldl (fun s it => match it.reply with
    | some (i, n) => settle (updHold s i n fun h => { h with reply := if it.isRecall then h.reply else .removed }) i n
    | none => s) s'

/-! ## Taking frames from transmit rings (R232–R234) -/

/-- The posted entries of a transmit ring from the first one not yet taken, up to and with the first EOP. -/
def sendEntries (s : State) (x : Queue) (i : Nat) : Nat → List (List Byte)
  | 0 => []
  | n + 1 =>
    let e := peek s x.func (entryAddr x i) 32
    if bitOf (leAt e 0xC 1) 0 then [e] else e :: sendEntries s x (nextIndex x i) n

/-- Index of the first entry not yet taken. Log 149, DEDUCED. -/
def takeIndex (x : Queue) : Nat := (x.cons + x.inFlight) % (2 * ringLen x)

/-- The entries end with an EOP. -/
def hasEop (es : List (List Byte)) : Bool :=
  match es.getLast? with
  | some e => bitOf (leAt e 0xC 1) 0
  | none => false

/-- Read the data of a send: none where a part of it is rejected or poisoned. -/
def readSend (s : State) (f : Nat) : List (List Byte) → State × Option (List Byte)
  | [] => (s, some [])
  | e :: l =>
    let r := hostRead s (.function f) f (leAt e 0 8) (bits (leAt e 8 4) 18 0)
    match r.2 with
    | some (b, false) =>
      let t := readSend r.1 f l
      (t.1, t.2.map (b ++ ·))
    | _ => (r.1, none)

/-- The fields of a send's first entry. -/
def entrySeg (e : List Byte) : Bool := bitOf (leAt e 0xC 1) 1
def entryCsum (e : List Byte) : Bool := bitOf (leAt e 0xC 1) 2
def entryTs (e : List Byte) : Bool := bitOf (leAt e 0xC 1) 3
def entryMss (e : List Byte) : Nat := bits (leAt e 0x10 4) 13 0
def entryHdrLen (e : List Byte) : Nat := bits (leAt e 0x10 4) 23 16

/-- The send breaks R233 or R234. Log 149, DEDUCED. -/
def malformed (s : State) (port : Nat) (es : List (List Byte)) (data : List Byte) : Bool :=
  let e := es.headD []
  let hl := entryHdrLen e
  if 16 < es.length then true
  else if entrySeg e then
    !(within hl 14 254 && decide (hl ≤ bits (leAt e 8 4) 18 0) && decide (data.length ≤ 262144) &&
      decide (64 ≤ entryMss e) && decide (hl + entryMss e + 4 ≤ maxLen s port) && templateOk (data.take hl))
  else decide (maxLen s port - 4 < data.length)

/-- Statuses of n entries, the timestamp over the first one's BUF_ADDR. -/
def sendDone (s : State) (q n st : Nat) (stamp : Option Nat) : State :=
  match n with
  | 0 => s
  | k + 1 => (List.range k).foldl (fun s _ => txEntryDone s q st none) (txEntryDone s q st stamp)

/-- The frames of a good send, the last of which settles its entries. -/
def sendItems (q : Nat) (es : List (List Byte)) (data : List Byte) : List TxItem :=
  let e := es.headD []
  if entrySeg e then
    let segs := segments data (entryHdrLen e) (entryMss e)
    segs.zipIdx.map fun x =>
      { ring := q, bytes := framed x.1.2, tsReq := entryTs e && decide (x.2 + 1 = segs.length),
        entries := if x.2 + 1 = segs.length then es.length else 0, seg := true, segEnd := x.1.1,
        segFirst := decide (x.2 = 0) }
  else
    [{ ring := q, bytes := framed (if entryCsum e then fillSums data else data), tsReq := entryTs e,
       entries := es.length }]

/-- An entry of the frame is stale: the whole frame is discarded (R233). Log 150, DEDUCED. -/
def staleSend (s : State) (f : Nat) (es : List (List Byte)) : Bool :=
  es.any fun e => decide (leAt e 0x18 2 ≠ (vfOf s f).postmark.toNat)

/-- A frame or send discarded as malformed. Log 149, DEDUCED. -/
def malformedSend (s : State) (q : Nat) (es : List (List Byte)) : State :=
  let s := cnt s (ringPort s q) (ringSub s q) 0x178 1
  sendDone (if entrySeg (es.headD []) then orReg s (bSeg + 0x80) 0x1 else s) q es.length 1 none

/-- A good send joins its ring's frames. Log 151, DEDUCED. -/
def queueSend (s : State) (q : Nat) (es : List (List Byte)) (data : List Byte) : State :=
  let items := sendItems q es data
  let s := if entrySeg (es.headD []) then cnt s (ringPort s q) (ringSub s q) 0x180 items.length else s
  if items = [] then sendDone s q es.length 0 none
  else items.foldl (fun s it => enqueue s q it)
    { s with queues := upd s.queues q fun y => { y with inFlight := y.inFlight + es.length } }

/-- A send without frames or to be discarded settles its entries now, so it waits for those before it. Log 149,
DEDUCED. -/
def mustWait (x : Queue) : Bool := decide (x.inFlight ≠ 0)

def txFrame (s : State) (q : Nat) : State :=
  let x := queueOf s q
  let es := sendEntries s x (takeIndex x) (occupancy x - x.inFlight)
  if es = [] ∨ (hasEop es = false ∧ es.length < ringLen x) then s
  else if staleSend s x.func es then
    if mustWait x then s
    else sendDone (cnt s (ringPort s q) (ringSub s q) 0x188 es.length) q es.length 2 none
  else if 16 < es.length ∨ hasEop es = false then (if mustWait x then s else malformedSend s q es)
  else
    let r := readSend s x.func es
    match r.2 with
    | some data =>
      if malformed s (ringPort s q) es data then (if mustWait x then s else malformedSend r.1 q es)
      else if mustWait x ∧ sendItems q es data = [] then s
      else queueSend r.1 q es data
    | none => if mustWait x then s else malformedSend r.1 q es

/-- TX_FRAME (R233, R234): the next frame or send of a ring that is enabled and bound to a subport. -/
def execTxFrame (q : Nat) (s : State) : Out1 :=
  let x := queueOf s q
  done s (if x.kind = 2 ∧ x.enabled ∧ ringBound s q then txFrame s q else s)

/-! ## The end of a frame on the wire -/

/-- Correction of transmit timestamps in tenths of a ns. -/
def txAdj (s : State) (port : Nat) : Int := signedOf 16 (bits (reg s (bMac + 0x10000 * port + 0xC)) 31 16)
/-- Log 138, DEDUCED. -/
def rxAdj (s : State) (port : Nat) : Int := signedOf 16 (bits (reg s (bMac + 0x10000 * port + 0xC)) 15 0)

/-- Complement the FCS (R264). Log 156, DEDUCED. -/
def stomped (b : List Byte) : List Byte := b.take (b.length - 4) ++ (b.drop (b.length - 4)).map (~~~ ·)

/-- The statuses that a sent item settles, while its ring still waits for them. Log 150, DEDUCED. -/
def itemStatus (s : State) (it : TxItem) (stamp : Nat) : State :=
  if it.entries = 0 ∨ (queueOf s it.ring).inFlight < it.entries then s
  else
    let t := if it.seg then (Config.freeBits s.fresh 64).toNat else stamp
    let s := sendDone { s with fresh := s.fresh + 1 } it.ring it.entries 0 (if it.tsReq then some t else none)
    { s with queues := upd s.queues it.ring fun y => { y with inFlight := y.inFlight - it.entries } }

/-- A reply has left. -/
def replySent (s : State) (i n : Nat) : State :=
  let early := (holdAt s i n).early
  let s := bump s (bCut + (if early then 0x108 else 0x110)) 1
  settle (updHold s i n fun h => { h with reply := .sent }) i n

/-- The frame in progress has ended: it stands on the wire, is counted, and settles what waits for it. Log 156,
DEDUCED. -/
def finishFrame (s : State) (port sub : Nat) : State :=
  let k := subKey port sub
  let e := look s.egress k
  match e.current with
  | none => s
  | some it =>
    let b := if it.stomp then stomped it.bytes else it.bytes
    let s := { s with egress := upd s.egress k fun e => { e with current := none } }
    let s := emit (countFrame s port sub 0x100 b b.length (sizeBand b.length)) (.frame port sub e.startOff b)
    let s := itemStatus s it e.startNs
    match it.reply with
    | some (i, n) => if it.isRecall then s else replySent s i n
    | none => s

/-- The frame in progress has left by an offset of the current tick. Log 156, DEDUCED. -/
def frameOver (s : State) (port sub off : Nat) : Bool :=
  let e := look s.egress (subKey port sub)
  match e.current with
  | none => true
  | some it =>
    let n := byteAc s port (it.bytes.length + 7)
    if e.startTick = tickCount s then decide (e.startOff + n ≤ off)
    else decide (e.startTick + 1 ≠ tickCount s) || decide (e.startOff + n ≤ tickLen s + off)

/-! ## The choice (R236, R237, R241) -/

/-- Rings of a class bound to a subport that have a frame, by rising queue number. -/
def ringsOf (s : State) (k cls : Nat) : List Nat :=
  (s.txRings.filter fun kv => kv.2.items ≠ [] && ringBound s kv.1 && decide (ringSubKey s kv.1 = k) &&
    decide (ringClass s kv.1 = cls)).map (·.1)

/-- The radio ring whose turn it is. -/
def radioRing (s : State) (k : Nat) : Option Nat :=
  let rs := ringsOf s k 1
  match rs.find? fun q => decide ((look s.egress k).rrLast < q) with
  | some q => some q
  | none => rs.head?

/-- The fair ring with the smallest finish tag; ties go to the lowest queue number. -/
def fairRing (s : State) (k : Nat) : Option Nat :=
  (ringsOf s k 2).foldl (fun best q =>
    match best with
    | none => some q
    | some r => if tagLe (look s.txRings r).finish (look s.txRings q).finish then some r else some q) none

def headItem (s : State) (q : Nat) : Option TxItem := (look s.txRings q).items.head?

/-- The ring's head continues a send whose first segment has gone. -/
def midSend (s : State) (q : Nat) : Bool :=
  match headItem s q with
  | some it => it.seg && !it.segFirst
  | none => false

/-- Log 154, DEDUCED. -/
def needsSeg (s : State) (q : Nat) : Bool :=
  match headItem s q with
  | some it => it.seg
  | none => false

/-- The payload boundary at which the unit lets go of its send for another ring (R241). -/
def letGo (e : Egress) : Nat := e.segUntil.getD (4096 * ((e.segPos + 4095) / 4096))

/-- The ring whose frame goes out when the scheduler chose q: the one whose send the segmentation unit keeps, or
q; with the boundary the unit then works to. Log 154, DEDUCED. -/
def segChoice (s : State) (k q : Nat) : Nat × Option Nat :=
  let e := look s.egress k
  match e.segRing with
  | some r => if needsSeg s q ∧ r ≠ q ∧ midSend s r ∧ e.segPos < letGo e then (r, some (letGo e)) else (q, none)
  | none => (q, none)

/-- Protect a frame where the subport's SecY transmits under an association (R242). Log 154, DEDUCED. -/
def protectTx (s : State) (port sub : Nat) (b : List Byte) : State × List Byte :=
  match txSak s port sub with
  | some (an, k) =>
    ({ s with saks := upd s.saks (sakKey port sub 32 an) fun k => { k with nextPn := k.nextPn + 1 } }, secSeal port sub an k b)
  | none => (s, b)

/-- A reply starts: when its first FCS byte leaves. -/
def replyStarted (s : State) (port : Nat) (it : TxItem) (off len : Nat) : State :=
  match it.reply with
  | some (i, n) =>
    if it.isRecall then s
    else updHold s i n fun h => { h with reply := .onWire, fcsAt := some (absAc s off + byteAc s port (len + 4)) }
  | none => s

/-- Start a frame at an offset. -/
def startItem (s : State) (port sub off : Nat) (it : TxItem) : State :=
  let r := protectTx s port sub it.bytes
  let s := replyStarted r.1 port it off r.2.length
  { s with egress := upd s.egress (subKey port sub) fun e =>
    { e with
      current := some { it with bytes := r.2 }
      startOff := off
      startTick := tickCount s
      startNs := stampAt s.tick.boundaryNs (off + byteAc s port 8) (txAdj s port) } }

/-- What the choice of a ring leaves in the scheduler. -/
def chosen (e : Egress) (q cls : Nat) (v : BitVec 64) (it : TxItem) (til : Option Nat) : Egress :=
  { e with
    rrLast := if cls = 1 then q else e.rrLast
    vtime := if cls = 2 then v else e.vtime
    segRing := if it.seg then (if it.entries = 0 then some q else none) else e.segRing
    segPos := if it.seg then it.segEnd else e.segPos
    segUntil := if it.seg then til else e.segUntil }

/-- Send the head of the ring that the scheduler chose, or of the one whose send the unit keeps. -/
def sendRing (s : State) (port sub off q0 : Nat) : State :=
  let k := subKey port sub
  let c := segChoice s k q0
  match headItem s c.1 with
  | none => s
  | some it =>
    let v := (look s.txRings c.1).finish
    let s := { s with egress := upd s.egress k fun e => chosen e c.1 (ringClass s c.1) v it c.2 }
    startItem (popRing s c.1) port sub off it

/-- A subport of the port carries a valid carrier: at beacon its other subports send PTP messages only (R286).
Log 157, DEDUCED. -/
def hasFronthaul (s : State) (port : Nat) : Bool := (fronthaulSubs s).any fun ps => decide (ps.1 = port)

/-- Choose the next frame: timing, radio, fair. -/
def choose (s : State) (port sub off : Nat) : State :=
  let k := subKey port sub
  match (look s.egress k).timing with
  | some it => startItem { s with egress := upd s.egress k fun e => { e with timing := none } } port sub off it
  | none =>
    if s.level = .beacon ∧ hasFronthaul s port then s
    else match radioRing s k with
    | some q => sendRing s port sub off q
    | none =>
      match fairRing s k with
      | some q => sendRing s port sub off q
      | none => s

/-- Rings bound to a subport. -/
def boundRings (s : State) (k : Nat) : List Nat :=
  (s.txRings.filter fun kv => decide (ringSubKey s kv.1 = k)).map (·.1)

def egressChoice (s : State) (port sub off : Nat) : State :=
  let k := subKey port sub
  let s := finishFrame { s with tick := { s.tick with off := off } } port sub
  let s := (boundRings s k).foldl dropBarred s
  if linkUp s port sub = false ∨ (look s.egress k).quiet then s else choose s port sub off

/-- EGRESS_CHOICE (R236): at the end of a frame on the wire, or on an idle subport. -/
def execEgressChoice (port sub off : Nat) (s : State) : Out1 :=
  done s (if port < 16 ∧ sub < 8 ∧ frameOver s port sub off then egressChoice s port sub off else s)

/-! ## EGS_RING (R238, R251) -/

/-- Sum of a function's fair weights on a subport were ring q to take a new word. -/
def weightWith (s : State) (f q w : Nat) : Nat :=
  let others := (s.queues.filter fun kv => decide (kv.2.kind = 2 ∧ kv.2.func = f ∧ kv.1 ≠ q)).filterMap fun kv =>
    let x := egsWord s kv.1
    if bitOf x 15 ∧ bits x 8 7 = 2 then some (bits x 6 0, bits x 31 16) else none
  weightOn others (bits w 6 0) + bits w 31 16

/-- A word that a ring may take: unbound, or of a class and, if fair, a weight. Log 152, DEDUCED. -/
def egsWordOk (x : Queue) (w : Nat) : Bool :=
  !bitOf w 15 || (decide (x.kind = 2) && (decide (bits w 8 7 = 1) || (decide (bits w 8 7 = 2) && decide (bits w 31 16 ≠ 0))))

/-- Log 152, DEDUCED. -/
def egsWrite (s : State) (q w : Nat) : State :=
  let x := queueOf s q
  if (x.kind = 2 ∧ occupancy x ≠ 0) ∨ egsWordOk x w = false then s
  else if x.func ≠ 0 ∧ bitOf w 15 ∧ bits w 8 7 = 1 then orReg s (bEgs + 0x40) 0x1
  else if x.func ≠ 0 ∧ bitOf w 15 ∧ (vfOf s x.func).qWeight.toNat < weightWith s x.func q w then orReg s (bEgs + 0x40) 0x1
  else setReg s (bEgs + 0x10000 + 8 * q) w

/-- EGS_RING_WRITE. -/
def execEgsRingWrite (v : View) (q : Nat) (data : BitVec 64) (s : State) : Out1 :=
  done s (if hasAccess v ∧ q < 8192 then egsWrite s q (data.toNat &&& 0xFFFF81FF) else s)

/-! ## Ports (R219, R220, R246) -/

/-- Frames in reception on a subport are lost with its link; those received whole stay. -/
def dropPartial (s : State) (k : Nat) : State :=
  let lost := ((look s.rx k).filter (·.ended.isNone)).map (·.reserved)
  { s with
    rx := upd s.rx k fun l => l.filter (·.ended.isSome)
    staging := upd s.staging (k / 8) (· - lost.sum) }

/-- A subport's link bit and FEC lock follow the link. -/
def linkChange (s : State) (port sub : Nat) (up : Bool) : State :=
  let a := bMac + 0x10000 * port + 0x4
  let m := 0x101 * 2 ^ sub
  let s := if up then orReg s a m else dropPartial (clrReg s a m) (subKey port sub)
  orReg s (bMac + 0x10000 * port + 0x10) 0x1

/-- The port's PHYs are powered and their training has been reached (R402), and the port is enabled. -/
def portPowered (s : State) (port : Nat) : Bool :=
  (decide (s.life.stage = .train) || decide (s.life.stage = .restore) || decide (s.life.stage = .done)) &&
    bitOf (reg s (bMac + 0x10000 * port)) 0

/-- MAC_LINK_CHANGE (R246): a link comes up only on an enabled and powered port. -/
def execMacLinkChange (port sub : Nat) (up : Bool) (s : State) : Out1 :=
  done s (if port < 16 ∧ sub < subportsOf s port ∧ up ≠ bitOf (reg s (bMac + 0x10000 * port + 0x4)) sub ∧
      (up = false ∨ portPowered s port) then linkChange s port sub up
    else s)

/-- A transmit ring is bound to the port. -/
def portHasRing (s : State) (port : Nat) : Bool :=
  s.queues.any fun kv => decide (kv.2.kind = 2) && ringBound s kv.1 && decide (ringPort s kv.1 = port)

/-- A change of split is taken (R220): SyncE uses its port while SYNCE_EN is 1. Log 158, DEDUCED. -/
def splitTaken (s : State) (port : Nat) : Bool :=
  let c := reg s bTck
  !portHasRing s port && decide (bits c 11 8 ≠ port) && !(bitOf c 24 && decide (bits c 15 12 = port))

/-- Every subport of a port that is up goes down. -/
def portDown (s : State) (port : Nat) : State :=
  (List.range 8).foldl (fun s i =>
    if bitOf (reg s (bMac + 0x10000 * port + 4)) i then linkChange s port i false else s) s

/-- Every subport goes down and the new split is in force, as the sources of time see it (R17). -/
def newSplit (s : State) (port data : Nat) : State :=
  let a := bMac + 0x10000 * port
  sourcesFollow (setReg (setReg (portDown s port) a (data &&& 0x1F)) (a + 4) (bits data 2 1 * 2 ^ 16))

/-- MAC_SPLIT_WRITE (R220): a write of MAC_CTRL; one that leaves SPLIT as it is writes the other fields, and a port
that EN turns off goes down (R246). Log 158, DEDUCED. -/
def macSplit (s : State) (port data : Nat) : State :=
  let a := bMac + 0x10000 * port
  if bits data 2 1 = bits (reg s a) 2 1 then
    setReg (if bitOf data 0 then s else portDown s port) a (data &&& 0x1F)
  else if splitTaken s port then newSplit s port data
  else orReg s (a + 0x10) 0x2

def execMacSplitWrite (v : View) (port : Nat) (data : BitVec 32) (s : State) : Out1 :=
  done s (if hasAccess v ∧ port < 16 then macSplit s port data.toNat else s)

end Sys2Proof.Machine
end

