-- ==== Sys2Proof/Machine/CutThrough.lean ====
section
/-!
DEFINITION. Replying before the tail (R253–R272): the decision on a request, its descriptors, the reply and its
hand-over, the verdict, and bindings.
-/

namespace Sys2Proof.Machine

/-! ## Counters of the block (R271) -/

/-- Log 159, DEDUCED. -/
def cutCount (s : State) (o : Nat) : State := bump s (bCut + o) 1
def cutBit (s : State) (m : Nat) : State := orReg s (bCut + 0x4) m

/-- A failure of header or descriptors. -/
def cutBad (s : State) (o : Nat) : State := cutBit (cutCount s o) 0x4

/-! ## The request header (R254, R256) -/

def reqDescCount (h : List Byte) : Nat := bits (leAt h 1 1) 4 0
def reqBodyLen (h : List Byte) : Nat := beAt h 6 2
def reqNonce (h : List Byte) : List Byte := slice h 0x10 12
def reqKeyGen (h : List Byte) : Bool := bitOf (beAt h 0x1C 4) 0

/-- Fixed and reserved bits, and the lengths, are as R254 and R256 have them. Log 160, DEDUCED. -/
def headerShapeOk (h : List Byte) : Bool :=
  decide (bits (leAt h 0 1) 7 1 = 8) && decide (bits (leAt h 1 1) 7 5 = 0) && decide (bits (beAt h 0x1C 4) 31 1 = 0) &&
    decide (reqDescCount h ≠ 0) && decide (4 * reqDescCount h + 20 ≤ reqBodyLen h)

/-- The declared length N of a request whose header starts at `o` of a frame with `lead` MACsec bytes before it. -/
def declaredLen (o lead icv : Nat) (h : List Byte) : Nat := o + lead + 32 + reqBodyLen h + 16 + icv + 4

/-- TENANT and MODEL are the binding's. Log 160, DEDUCED. -/
def headerBound (b : Binding) (h : List Byte) : Bool := decide (beAt h 2 2 = b.tenant) && decide (beAt h 4 2 = b.model)

/-! ## Reservations (R259) -/

/-- Hold places of a binding in use. Log 162, DEDUCED. -/
def placesUsed (b : Binding) : Nat := (b.holds.filter fun h => h.2.used && !h.2.noReply).length

/-- The network die of a binding: that of its reply ring's subport (R257). -/
def bindDie (s : State) (b : Binding) : Nat := ringPort s b.replyRing / 2

/-- Reply entries of a die in use. Log 162, DEDUCED. -/
def entriesUsed (s : State) (die : Nat) : Nat :=
  ((s.binds.filter fun kv => decide (bindDie s kv.2 = die)).map fun kv => placesUsed kv.2).sum

/-- The lowest place that holds no request. -/
def freePlace (b : Binding) : Nat :=
  ((List.range (b.holds.length + 1)).find? fun n => (look? b.holds n).isNone).getD 0

def hasRoom (s : State) (b : Binding) : Bool :=
  decide (placesUsed b < 64) && decide (entriesUsed s (bindDie s b) < 1024)

/-- A key slot of a domain: the installed key, or, where none has been installed, a key the spec says nothing
of. Log 66, DEDUCED. -/
def keyOr (f slot n : Nat) (k : List Byte) : List Byte := if k = [] then Config.keyBytes (2 ^ 32 + 8 * f + slot) n else k

/-- Log 66, DEDUCED. -/
def requestKey (s : State) (f : Nat) (gen : Bool) : List Byte :=
  if gen then keyOr f 2 32 (look s.domains f).req1 else keyOr f 1 32 (look s.domains f).req0

/-- Log 66, DEDUCED. -/
def replyKey (s : State) (f : Nat) : List Byte := keyOr f 3 36 (look s.domains f).reply

/-- The hold place of a request decided now. -/
def newHold (s : State) (port sub : Nat) (fr : RxFrame) (b : Binding) (eth h : List Byte) (lead declared : Nat) : Hold :=
  { used := true, stage := 1, port := port, sub := sub, lead := lead, reqId := BitVec.ofNat 64 (beAt h 8 8),
    nonce := BitVec.ofNat 96 (ofBe (reqNonce h)), key := requestKey s b.func (reqKeyGen h), replyKey := replyKey s b.func,
    noEarly := bitOf (leAt h 0 1) 0, header := h, eth := eth, hdrOff := eth.length, declared := declared,
    sfdTick := fr.sfdTick, sfdOff := fr.sfdOff, tickNs := fr.tickNs, rule := fr.rule,
    postmark := (ctxOf s b.ctx).postmark }

/-- The valid binding of an entry queue. -/
def bindingAt (s : State) (q : Nat) : Option Nat :=
  (s.binds.find? fun kv => kv.2.valid && decide (kv.2.entryQ = q)).map (·.1)

/-- The entry queue takes a new request: its context is not in reset and the part is at full level (R270, R383). -/
def takesRequest (s : State) (b : Binding) : Bool :=
  (queueOf s b.entryQ).enabled && decide (s.level = .full) && decide ((ctxOf s b.ctx).state ≠ .resetting)

/-- A request frame is decided for an entry queue (R256, R259): `clear` is what the office has seen of it, `raw`
the bytes as received. The state, and whether the frame is streamed. Log 159, DEDUCED. Log 160, DEDUCED. -/
def decideRequest (s : State) (port sub : Nat) (fr : RxFrame) (q o : Nat) (clear raw : List Byte) : State × Bool :=
  let h := slice clear o 32
  let n := declaredLen o (secLead raw) (icvLen raw) h
  let s := cutCount s 0x100
  if headerShapeOk h = false ∨ maxLen s port < n then (cutBad s 0x130, false)
  else match bindingAt s q with
    | none => (countDead s q 1, false)
    | some i =>
      let b := look s.binds i
      if headerBound b h = false then (cutBad s 0x130, false)
      else if takesRequest s b = false then (countDead s q 1, false)
      else if hasRoom s b = false then (cutBit (countDead s q 1) 0x8, false)
      else
        ({ s with binds := upd s.binds i fun b =>
          { b with holds := put b.holds (freePlace b) (newHold s port sub fr b (clear.take o) h (secLead raw) n) } }, true)

/-! ## Descriptors (R255, R259, R260) -/

/-- The oldest request received on a subport that satisfies a test: binding and place. -/
def oldestHold (s : State) (port sub : Nat) (p : Hold → Bool) : Option (Nat × Nat) :=
  let all := s.binds.flatMap fun kv =>
    (kv.2.holds.filter fun h => h.2.used && decide (h.2.port = port ∧ h.2.sub = sub) && p h.2).map fun h =>
      (h.2.sfdTick * 2 ^ 32 + h.2.sfdOff, kv.1, h.1)
  (all.foldl (fun best x =>
    match best with
    | none => some x
    | some y => if x.1 < y.1 then some x else some y) none).map fun x => (x.2.1, x.2.2)

def nonceBytes (h : Hold) : List Byte := beBytes 12 h.nonce.toNat

/-- GCM's counter mode is its own inverse. -/
def decryptBody (h : Hold) (ct : List Byte) : List Byte := xorBytes ct (gcmStream h.key (nonceBytes h) ct.length)

/-- Descriptors of a decrypted body. -/
def descsOf (h : Hold) (plain : List Byte) : List Nat := (List.range (reqDescCount h.header)).map fun k => beAt plain (4 * k) 4

/-- Bytes of descriptors and input fields. -/
def fieldBytes (b : Binding) : Nat := 4 * b.descN + 20 * b.fIn

/-- The descriptors are the binding's and the body holds the fields they describe. Log 160, DEDUCED. -/
def descsMatch (b : Binding) (h : Hold) (plain : List Byte) : Bool :=
  decide (descsOf h plain = b.descs.map (·.toNat)) && decide (fieldBytes b ≤ reqBodyLen h.header)

/-- The ac, counted over ticks, at which byte n of a request's frame stands in the MAC (R258). -/
def byteAt (s : State) (h : Hold) (n : Nat) : Nat := h.sfdTick * tickLen s + h.sfdOff + byteAc s h.port n

/-- r = max(h + 64, f) + 24 (R260): from the last bytes of the header and of the input fields. -/
def readyAt (s : State) (b : Binding) (h : Hold) : Nat :=
  let hdr := h.hdrOff + h.lead + 31
  max (byteAt s h hdr + 64) (byteAt s h (hdr + fieldBytes b)) + 24

/-- Abandon a request: both reservations are released and nothing more is made of its frame. -/
def abandonRequest (s : State) (i n : Nat) : State := freeHold (cutBad s 0x138) i n

def descriptors (s : State) (i n : Nat) (ct : List Byte) : State :=
  let b := look s.binds i
  let h := look b.holds n
  let plain := decryptBody h ct
  if descsMatch b h plain = false then abandonRequest s i n
  else updHold s i n fun h => { h with body := plain, descOk := true, readyAc := readyAt s b h,
                                       echo := (sha256 (ct.take (fieldBytes b))).take 16 }

/-- REQUEST_DESCRIPTORS_ARRIVED (R259): the body's ciphertext, from its descriptors up to its input fields, of the
oldest request on the subport whose descriptors have not been compared. -/
def execRequestDescriptorsArrived (port sub : Nat) (body : List Byte) (off : Nat) (s : State) : Out1 :=
  let s := { s with tick := { s.tick with off := off } }
  done s (match oldestHold s port sub fun h => !h.descOk with
    | some (i, n) =>
      if 4 * reqDescCount (holdAt s i n).header ≤ body.length then descriptors s i n body else s
    | none => s)

/-! ## REPLY_SEQ (R262) -/

def seqKey (die dom : Nat) : Nat := 1024 * die + dom

/-- A block after a grant of 2^30 values from `first` on. -/
def seqGranted (b : Block) (first : Nat) : Block :=
  if b.left = 0 then { b with next := first, left := 2 ^ 30, asked := false }
  else { b with next2 := first, left2 := 2 ^ 30, asked := false }

/-- A block after one value is drawn. -/
def seqDrawn (b : Block) : Block :=
  let b := { b with next := b.next + 1, left := b.left - 1 }
  let b := if b.left = 0 then { b with next := b.next2, left := b.left2, next2 := 0, left2 := 0 } else b
  { b with asked := decide (b.left + b.left2 ≤ 2 ^ 29) }

/-- The next REPLY_SEQ of a die for a domain, where its block has one. Log 33, DEDUCED. -/
def drawSeq (s : State) (die dom : Nat) : Option (Nat × State) :=
  let b := look s.seqBlocks (seqKey die dom)
  if b.left = 0 then none else some (b.next, { s with seqBlocks := upd s.seqBlocks (seqKey die dom) seqDrawn })

/-- REPLY_SEQ_GRANT (R262): asked for when 2^29 values remain; the counter of record advances first. Log 33,
DEDUCED. -/
def execReplySeqGrant (die dom : Nat) (s : State) : Out1 :=
  let b := look s.seqBlocks (seqKey die dom)
  let c := (look s.domains dom).replySeq
  done s (if die < 8 ∧ dom < 1024 ∧ b.left + b.left2 ≤ 2 ^ 29 ∧ (look s.domains dom).state ≠ .empty ∧ agentUp s 2 then
      { s with
        domains := upd s.domains dom fun d => { d with replySeq := c + 2 ^ 30 }
        seqBlocks := upd s.seqBlocks (seqKey die dom) fun b => seqGranted b c }
    else s)

/-! ## Building replies (R261, R262, R265) -/

/-- The reply header: EARLY, RECALL, STATUS, lengths, sequence and RECALL_BY. -/
def replyHeader (h : Hold) (early isRecall : Bool) (status len seq by1 : Nat) : List Byte :=
  leBytes 1 (0x10 + 8 * ofBool early + 4 * ofBool isRecall) ++ leBytes 1 status ++ slice h.header 2 4 ++ beBytes 2 len ++
    slice h.header 8 8 ++ beBytes 8 seq ++ beBytes 8 by1 ++ slice h.echo 0 16

/-- The frame around a reply: addresses exchanged, the request's tags, then SRT_REQ_ETYPE or IP and UDP. -/
def replyWire (s : State) (h : Hold) (payload : List Byte) : List Byte :=
  let e := h.eth
  let p := parseIn s e
  let l2 := slice e 6 6 ++ slice e 0 6 ++ slice e 12 (4 * p.tags.length)
  match p.net with
  | none => l2 ++ beBytes 2 (bits (reg s (bSrt + 0x4)) 15 0) ++ payload
  | some n =>
    let udp := portBytes p.dport ++ portBytes p.sport ++ beBytes 2 (8 + payload.length) ++ [0, 0]
    let ip := if n.ver = 0 then
        [0x45, 0] ++ beBytes 2 (28 + payload.length) ++ [0, 0, 0, 0, 64, 17, 0, 0] ++ n.dst ++ n.src
      else [0x60, 0, 0, 0] ++ beBytes 2 (8 + payload.length) ++ [17, 64] ++ n.dst ++ n.src
    fillSums (l2 ++ beBytes 2 (if n.ver = 0 then 0x0800 else 0x86DD) ++ ip ++ udp ++ payload)

/-- A reply or recall notice as a whole frame. -/
def replyFrame (s : State) (h : Hold) (early isRecall : Bool) (status seq by1 : Nat) (body : List Byte) : List Byte :=
  let hdr := replyHeader h early isRecall status body.length seq by1
  let r := gcmSeal (slice h.replyKey 0 32) (slice h.replyKey 32 4 ++ beBytes 8 seq) hdr body
  framed (replyWire s h (hdr ++ r.1 ++ r.2))

/-- RECALL_BY of an early reply (R265). Log 163, DEDUCED. -/
def recallBy (s : State) (h : Hold) : Nat :=
  h.tickNs + acToNsUp (h.sfdOff + byteAc s h.port (h.declared - 1) + 40)

/-- Log 134, DEDUCED. -/
def resultBytes (l : List TWord) : List Byte := l.flatMap fun w => leBytes 20 w.payload.toNat

/-- Hand the reply of a hold place to its ring (R261, R268). -/
def handReply (s : State) (i n : Nat) (early : Bool) : State :=
  let b := look s.binds i
  match drawSeq s (bindDie s b) b.func with
  | none => s
  | some (seq, s) =>
    let h := look b.holds n
    let f := replyFrame s h early false 0 seq (if early then recallBy s h else 0) (resultBytes h.results)
    enqueue (updHold s i n fun h => { h with reply := .handed, stage := 4, replySeq := seq, early := early, frame := f })
      b.replyRing { ring := b.replyRing, bytes := f, reply := some (i, n) }

/-- Hand a recall notice to its ring (R265). Log 163, DEDUCED. -/
def handRecall (s : State) (i n : Nat) : State :=
  let b := look s.binds i
  match drawSeq s (bindDie s b) b.func with
  | none => s
  | some (seq, s) =>
    let h := look b.holds n
    let f := replyFrame s h false true (h.verdict.getD 0) seq 0 (beBytes 8 h.replySeq ++ List.replicate 8 0)
    let s := enqueue (updHold s i n fun h => { h with recallDue := false }) b.replyRing
      { ring := b.replyRing, bytes := f, reply := some (i, n), isRecall := true }
    settle (cutCount s 0x128) i n

/-- The reply is given up: counted where a verdict discards it, and its reservations fall free with the verdict. -/
def unsent (s : State) (i n : Nat) : State :=
  settle (updHold (cutCount s 0x118) i n fun h => { h with reply := .removed }) i n

/-- The ac of hand-over a = e + D + 23, counted over ticks. -/
def handAc (s : State) (b : Binding) (h : Hold) : Nat := h.entryTick * tickLen s + h.entryOff + b.d + 23

/-- A reply that has been produced, at the ac `now`. -/
def handover (s : State) (i n now : Nat) : State :=
  let b := look s.binds i
  let h := look b.holds n
  if h.postmark ≠ (ctxOf s b.ctx).postmark then
    settle (updHold (incReg s (bFlt + 0x1C) 1) i n fun h => { h with reply := .removed }) i n
  else match h.verdict with
    | none => if h.noEarly ∨ b.holdT then s else handReply s i n true
    | some 0 => if (h.noEarly ∨ b.holdT) ∧ now < h.verdictAt + 4 then s else handReply s i n false
    | some _ => unsent s i n

/-- REPLY_HANDOVER (R261, R265, R268): no earlier than a, and for a held reply than v + 4. -/
def execReplyHandover (binding hold : Nat) (off : Nat) (s : State) : Out1 :=
  let s := { s with tick := { s.tick with off := off } }
  let b := look s.binds binding
  let h := look b.holds hold
  done s (if h.used = false ∨ s.level = .beacon then s
    else if h.recallDue then handRecall s binding hold
    else if h.reply = .produced ∧ h.noReply = false ∧ handAc s b h ≤ absAc s off then
      handover s binding hold (absAc s off)
    else s)

/-! ## The verdict (R263–R266) -/

/-- What the descriptors of a request's deliveries say. -/
def holdInfo (s : State) (h : Hold) (wire : Nat) : RxInfo :=
  let p := parseIn s h.eth
  { stamp := (Config.freeBits s.fresh 64).toNat, req := true, port := h.port, sub := h.sub, rule := h.rule,
    wireLen := wire, tci := p.tags.headD 0, etype := p.etype.getD 0, hash := (flowHash p h.eth).toNat }

/-- The clear bytes of a whole frame without its FCS, where its MACsec check passes. -/
def opened (s : State) (port sub : Nat) (bytes : List Byte) : Option (List Byte) :=
  let b := bytes.take (bytes.length - 4)
  if isSecured b then secOpen s port sub b else some b

/-- The lowest failure code that applies to a request frame, or 0 (R263): 1 FCS, 2 LENGTH, 3 MACSEC, 4 TAG. A
frame that has not ended by byte N − 1 fails on its length. Log 161, DEDUCED. -/
def verdictCode (s : State) (h : Hold) (bytes : List Byte) (ended : Bool) : Nat :=
  if ended = false then 2
  else if fcsOk bytes = false then 1
  else if bytes.length ≠ h.declared then 2
  else match opened s h.port h.sub bytes with
    | none => 3
    | some b =>
      let ct := slice b (h.hdrOff + 32) (reqBodyLen h.header)
      let tag := slice b (h.hdrOff + 32 + reqBodyLen h.header) 16
      if (gcmOpen h.key (nonceBytes h) h.header ct tag).isSome then 0 else 4

/-- The decrypted bulk payload. Log 164, DEDUCED. -/
def bulkOf (s : State) (b : Binding) (h : Hold) (bytes : List Byte) : List Byte :=
  match opened s h.port h.sub bytes with
  | some x => (decryptBody h (slice x (h.hdrOff + 32) (reqBodyLen h.header))).drop (fieldBytes b)
  | none => []

/-- The record of a stomp or a recall (R266). Log 164, DEDUCED. -/
def recallRecord (s : State) (b : Binding) (h : Hold) (kind code : Nat) : List Byte :=
  leBytes 8 h.reqId.toNat ++ leBytes 8 h.replySeq ++ leBytes 8 (tickCount s) ++ leBytes 1 (kind + 16 * code) ++ [0] ++
    leBytes 2 (vfOf s b.func).postmark.toNat ++ leBytes 4 0

/-- Log 164, DEDUCED. -/
def writeRecall (s : State) (b : Binding) (h : Hold) (kind code wire : Nat) : State :=
  (deliver { s with fresh := s.fresh + 1 } b.recallQ (holdInfo s h wire) (recallRecord s b h kind code)).1

/-- The reply of a hold place, as a test on items. -/
def isReplyOf (i n : Nat) (it : TxItem) : Bool := decide (it.reply = some (i, n)) && !it.isRecall

/-- Stomp the reply in progress on a subport. -/
def stompReply (s : State) (i n : Nat) : State :=
  { s with egress := mapT s.egress fun _ e =>
      match e.current with
      | some it => if isReplyOf i n it then { e with current := some { it with stomp := true } } else e
      | none => e }

/-- A recall notice becomes due: status, record, and the notice itself. Log 163, DEDUCED. -/
def recallReply (s : State) (i n code wire : Nat) : State :=
  let b := look s.binds i
  let s := writeRecall (cutBit s 0x1) b (look b.holds n) 2 code wire
  let s := updHold s i n fun h => { h with recallDue := true }
  if s.level = .beacon then s else handRecall s i n

/-- What a failing verdict does by where the reply stands (R264). -/
def failReply (s : State) (i n code now wire : Nat) : State :=
  let b := look s.binds i
  let h := look b.holds n
  match h.reply with
  | .none => if h.descOk then s else settle (updHold s i n fun h => { h with noReply := true }) i n
  | .produced => unsent s i n
  | .handed => unsent (dropItems s b.replyRing (isReplyOf i n)) i n
  | .onWire =>
    if now + 2 ≤ h.fcsAt.getD 0 then writeRecall (stompReply (cutBit (cutCount s 0x120) 0x2) i n) b h 1 code wire
    else recallReply s i n code wire
  | .sent => recallReply s i n code wire
  | .removed => settle s i n

/-- A passing verdict delivers the bulk payload. -/
def passRequest (s : State) (i n : Nat) (bytes : List Byte) : State :=
  let b := look s.binds i
  let h := look b.holds n
  let bulk := bulkOf s b h bytes
  let s := if b.bulkEn ∧ bulk ≠ [] then
      (deliver { s with fresh := s.fresh + 1 } b.bulkQ (holdInfo s h bytes.length) bulk).1
    else s
  settle s i n

/-- Log 161, DEDUCED. -/
def takeVerdict (s : State) (i n : Nat) (bytes : List Byte) (ended : Bool) (now : Nat) : State :=
  let code := verdictCode s (holdAt s i n) bytes ended
  let s := updHold s i n fun h => { h with verdict := some code, verdictAt := now }
  if code = 0 then passRequest s i n bytes
  else failReply (cutCount s (0x138 + 8 * code)) i n code now bytes.length

/-- v = t + 8 (R263): t is the ac of the frame's last byte, or of byte N − 1 where it has not ended by then. -/
def verdictAc (s : State) (h : Hold) (len : Nat) (ended : Bool) : Nat :=
  byteAt s h ((if ended then min len h.declared else h.declared) - 1) + 8

/-- VERDICT (R263): of the oldest request on the subport that has none, not before v; `bytes` is the frame so far, and
`ended` whether it has ended. -/
def execVerdict (port sub : Nat) (bytes : List Byte) (ended : Bool) (off : Nat) (s : State) : Out1 :=
  let s := { s with tick := { s.tick with off := off } }
  done s (match oldestHold s port sub fun h => h.verdict.isNone with
    | some (i, n) =>
      if verdictAc s (holdAt s i n) bytes.length ended ≤ absAc s off then
        takeVerdict s i n bytes ended (verdictAc s (holdAt s i n) bytes.length ended)
      else s
    | none => s)

/-! ## Bindings (R257, R270, R272) -/

/-- The standing tenant timetable that takes its entries from a queue. Log 166, DEDUCED. -/
def standingOf (s : State) (q : Nat) : Option Nat :=
  (ctxsWhere s fun t => t.report.standing && !t.report.radio && decide (t.entryQ = some q)).head?

/-- Expected descriptors as held in the host pool, little-endian (R10). Log 165, DEDUCED. -/
def descList (b : List Byte) (n : Nat) : List (BitVec 32) := (List.range n).map fun k => BitVec.ofNat 32 (leAt b (4 * k) 4)

def isRxOf (s : State) (f q : Nat) : Bool := decide ((queueOf s q).kind = 1) && decide ((queueOf s q).func = f)

/-- The first of the five conditions of R257 that refuses a binding, or 0. Log 166, DEDUCED. -/
def bindRefusal (s : State) (c entryQ replyRing bulkQ recallQ : Nat) (descs : List (BitVec 32)) : Nat :=
  let r := (ttOf s c).report
  let f := funcOfCtx s c
  let die := ringPort s replyRing / 2
  let x := queueOf s replyRing
  if r.entry.hub ≠ die ∨ r.exit.hub ≠ die then 1
  else if x.kind ≠ 2 ∨ x.func ≠ f ∨ ringBound s replyRing = false ∨ ringClass s replyRing ≠ 2 then 2
  else if isRxOf s f bulkQ = false ∨ isRxOf s f recallQ = false then 3
  else if (descs.map fun d => bits d.toNat 27 16).sum ≠ r.entry.f then 4
  else if (bindingAt s entryQ).isSome then 5
  else 0

/-- The lowest binding block that nothing holds. -/
def freeBinding (s : State) : Option Nat := (List.range 256).find? fun i => (look? s.binds i).isNone

/-- Log 165, DEDUCED. -/
def bindBody (h : CmdHdr) (entryQ replyRing bulkQ recallQ tenant model fOut bulkEn descN descAddr : Nat) (s : State)
    (_ : Nat) : Reply :=
  match standingOf s entryQ with
  | none => refuse s stState
  | some c =>
    let r := hostRead s (.function 0) 0 descAddr (4 * (descN + 1))
    let s := r.1
    let b := match r.2 with
      | some (b, _) => b
      | none => []
    let descs := descList b (descN + 1)
    let e := (ttOf s c).report.entry
    if bindRefusal s c entryQ replyRing bulkQ recallQ descs ≠ 0 then
      refuse s (0x400 + bindRefusal s c entryQ replyRing bulkQ recallQ descs)
    else match freeBinding s with
      | none => refuse s stNoResource
      | some i =>
        let x : Binding :=
          { valid := true, holdT := (vfOf s (funcOfCtx s c)).ctrlT.getLsbD 1, func := funcOfCtx s c, tenant := tenant,
            model := model, entryQ := entryQ, replyRing := replyRing, bulkQ := bulkQ, bulkEn := decide (bulkEn = 1),
            recallQ := recallQ, fIn := e.f, descN := descN + 1, fOut := fOut, d := e.d, ii := e.ii, ctx := c,
            descs := descs }
        acceptAt { s with binds := put s.binds i x } (tickCount s) h.off

/-- BIND: DESC_N is the field of R272, DESC_COUNT minus 1. -/
def execBind (h : CmdHdr) (entryQ replyRing bulkQ recallQ tenant model fOut bulkEn descN descAddr : Nat) (s : State) : Out1 :=
  done s (takeCommand s h { opcode := 0x0602, agent := 1 }
    (decide (entryQ < 8192 ∧ replyRing < 8192 ∧ bulkQ < 8192 ∧ recallQ < 8192 ∧ tenant < 65536 ∧ model < 65536 ∧
      fOut < 4096 ∧ bulkEn ≤ 1 ∧ descN ≤ 15 ∧ descAddr < 2 ^ 64)) (hostOk s 0 descAddr (4 * (descN + 1)))
    (bindBody h entryQ replyRing bulkQ recallQ tenant model fOut bulkEn descN descAddr))

/-- Log 166, DEDUCED. -/
def unbindBody (h : CmdHdr) (entryQ : Nat) (s : State) (i : Nat) : Reply :=
  match bindingAt s entryQ with
  | none => refuse s stState
  | some b =>
    if (look s.binds b).removing then refuse s stState
    else
      let s := { s with binds := upd s.binds b fun x => { x with removing := true } }
      acceptAt (addEffect s h i (nextTick s) (.unbind b)) (nextTick s) 0

/-- UNBIND: at the next tick boundary; requests already decided complete under the old binding (R270). -/
def execUnbind (h : CmdHdr) (entryQ : Nat) (s : State) : Out1 :=
  done s (takeCommand s h { opcode := 0x0603, agent := 1, pends := true } (decide (entryQ < 8192)) true
    (unbindBody h entryQ))

/-- A binding is removed at its boundary. Log 166, DEDUCED. -/
def takeUnbind (s : State) (i : Nat) : State :=
  { s with binds := upd s.binds i fun b => keptBinding { b with valid := false } }

end Sys2Proof.Machine
end

