-- ==== Sys2Proof/Machine/Frames.lean ====
section
/-!
DEFINITION. Receiving frames and the sorting office (R221–R230), the sorting table's commands, and MACsec keys
(R242).
-/

namespace Sys2Proof.Machine

/-! ## The start of a frame (R223) -/

/-- Receive memory of a port. -/
def stagingBytes : Nat := 1048576

/-- A frame in reception has not ended. Log 158, DEDUCED. -/
def receiving (s : State) (k : Nat) : Bool := (look s.rx k).any (·.ended.isNone)

def newRx (s : State) (port off reserved : Nat) : RxFrame :=
  { sfdOff := off, sfdTick := tickCount s, sfdNs := stampAt s.tick.boundaryNs off (rxAdj s port), tickNs := s.tick.boundaryNs,
    reserved := reserved }

def frameSfd (s : State) (port sub off : Nat) : State :=
  let k := subKey port sub
  let n := maxLen s port
  if look s.staging port + n ≤ stagingBytes then
    { s with
      rx := upd s.rx k fun l => l ++ [newRx s port off n]
      staging := upd s.staging port (· + n) }
  else
    let s := orReg (cnt s port sub 0xA0 1) (bMac + 0x10000 * port + 0x10) 0x8
    { s with rx := upd s.rx k fun l => l ++ [{ newRx s port off 0 with dropped := true }] }

/-- FRAME_SFD. -/
def execFrameSfd (port sub : Nat) (off : Nat) (s : State) : Out1 :=
  let s := { s with tick := { s.tick with off := off } }
  done s (if linkUp s port sub ∧ receiving s (subKey port sub) = false ∧
      (look s.egress (subKey port sub)).quiet = false then frameSfd s port sub off
    else s)

/-! ## What becomes of a whole frame (R222, R224, R228) -/

/-- A PAUSE or priority-flow-control frame (R221). Log 143, PRESUMED. -/
def isPause (b : List Byte) : Bool :=
  decide (beAt b 12 2 = 0x8808) && (decide (beAt b 14 2 = 0x0001) || decide (beAt b 14 2 = 0x0101))

/-- Bytes a frame delivers: decrypted where it was secured, and cut to the port's maximum. Log 140, DEDUCED. -/
def deliveredBytes (s : State) (port sub : Nat) (b : List Byte) : List Byte :=
  let d := if isSecured b then
      match opened s port sub b with
      | some p => p ++ fcsBytes p
      | none => b
    else b
  d.take (maxLen s port)

/-- What the descriptors of a delivered frame say; when a timestamp is valid is not stated. Log 139, DEDUCED. -/
def frameInfo (s : State) (port sub : Nat) (fr : RxFrame) (b d : List Byte) : RxInfo :=
  let p := parseIn s d
  let net := p.net.isSome && decide (b.length ≤ maxLen s port)
  { stamp := fr.sfdNs, trunc := decide (maxLen s port < b.length), fcsErr := !fcsOk b, csumDone := net,
    l3Ok := net && l3Ok d p, l4Ok := net && l4Ok d p, tsValid := (Config.freeBits s.fresh 1).getLsbD 0, port := port,
    sub := sub, rule := fr.rule, wireLen := b.length, tci := p.tags.headD 0, etype := p.etype.getD 0,
    hash := (flowHash p d).toNat }

/-- Count a frame that was delivered or streamed. Log 142, DEDUCED. -/
def countRx (s : State) (port sub : Nat) (b : List Byte) : State :=
  countFrame s port sub 0 b b.length (if maxLen s port < b.length then 9 else sizeBand b.length)

/-- A frame that has ended and been decided: dropped by its rule, delivered, or streamed. -/
def complete (s : State) (port sub : Nat) (fr : RxFrame) (b : List Byte) : State :=
  if fr.dropped then s
  else if fr.action = 0 then cnt s port sub 0x98 1
  else if fr.action = 3 then countRx s port sub b
  else
    let d := deliveredBytes s port sub b
    let r := deliver { s with fresh := s.fresh + 1 } fr.queue (frameInfo s port sub fr b d) d
    if r.2 then countRx r.1 port sub b else r.1

/-- Take a frame out of the reception of a subport, with its staging memory. -/
def removeRx (s : State) (port sub : Nat) (fr : RxFrame) : State :=
  { s with
    rx := upd s.rx (subKey port sub) fun l => l.erase fr
    staging := upd s.staging port (· - fr.reserved) }

/-- Put a changed frame in place of one in reception. -/
def replaceRx (s : State) (port sub : Nat) (fr fr' : RxFrame) : State :=
  { s with rx := upd s.rx (subKey port sub) fun l => l.replace fr fr' }

/-! ## The decision (R226–R228) -/

/-- The table in force at the frame's SFD (R230). Log 168, DEDUCED. -/
def tableFor (s : State) (fr : RxFrame) : Table (BitVec 1024) := fr.table.getD s.srtA

/-- The rule and action of a frame: its lowest matching rule, or its port's default. -/
def ruled (s : State) (port : Nat) (fr : RxFrame) (p : Parsed) (clear : List Byte) : RxFrame :=
  match findRule (tableFor s fr) port p clear with
  | some (k, r) =>
    let a := ruleAction r
    { fr with
      decided := true
      rule := some k
      action := if a = 2 then 1 else a
      queue := ruleQueue r + (if a = 2 then (flowHash p clear).toNat % 2 ^ ruleG r else 0) }
  | none =>
    let d := reg s (bSrt + 0x40 + 4 * port)
    { fr with decided := true, rule := none, action := if bitOf d 0 then 1 else 0, queue := bits d 28 16 }

/-- SRT_HITS of the rule applied. -/
def countHit (s : State) (fr : RxFrame) : State :=
  match fr.rule with
  | some k => bump s (bSrt + 0x20000 + 8 * k) 1
  | none => s

/-- The sorting office decides a frame of which `raw` has arrived. Log 168, DEDUCED. -/
def decideFrame (s : State) (port sub : Nat) (fr : RxFrame) (raw : List Byte) : State × RxFrame :=
  if isPause raw then (s, { fr with decided := true })
  else
    let clear := clearBytes s port sub raw
    let p := parseIn s clear
    let fr' := ruled s port fr p clear
    let s := countHit s fr'
    if fr'.action = 3 then
      match p.req with
      | some o =>
        let r := decideRequest s port sub fr' fr'.queue o clear raw
        (r.1, { fr' with dropped := !r.2 })
      | none => (s, { fr' with dropped := true })
    else (s, fr')

/-- The oldest frame of a subport that waits for its decision. Log 142, DEDUCED. -/
def undecided (s : State) (k : Nat) : Option RxFrame := (look s.rx k).find? fun f => !f.decided && !f.dropped

def headerDecision (s : State) (port sub : Nat) (fr : RxFrame) (hdr : List Byte) : State :=
  let r := decideFrame s port sub fr (fr.ended.getD hdr)
  match fr.ended with
  | some b => complete (removeRx r.1 port sub fr) port sub r.2 b
  | none => replaceRx r.1 port sub fr r.2

/-- FRAME_HEADER_DECISION (R226): of the oldest frame of the subport not yet decided; `hdr` is what has arrived of
it, and a frame that has ended is decided on all of it. -/
def execFrameHeaderDecision (port sub : Nat) (hdr : List Byte) (off : Nat) (s : State) : Out1 :=
  let s := { s with tick := { s.tick with off := off } }
  done s (match undecided s (subKey port sub) with
    | some fr => headerDecision s port sub fr hdr
    | none => s)

/-! ## The end of a frame (R222) -/

/-- A frame that its FCS drops (R222): one that is not truncated, unless KEEP_BAD keeps it. -/
def badFcs (s : State) (port : Nat) (b : List Byte) : Bool :=
  decide (b.length ≤ maxLen s port) && !fcsOk b && !bitOf (reg s (bMac + 0x10000 * port)) 3

/-- A secured frame that MACsec drops (R242): it names no association, fails its integrity check, or lies below the
replay window. Log 144, PRESUMED. -/
def secBad (s : State) (port sub : Nat) (b : List Byte) : Bool :=
  match rxSak s port sub b with
  | some k => (opened s port sub b).isNone || secLate port sub k b
  | none => true

/-- The first check of R222, R221 and R242 that a whole frame fails: its counter, or none. A frame that is truncated
is never dropped for its FCS. Log 147, UNVERIFIED. -/
def endCheck (s : State) (port sub : Nat) (b : List Byte) : Option Nat :=
  if b.length < 64 then some 0x80
  else if badFcs s port b then some 0x78
  else if isPause b then some 0x90
  else if isSecured b ∧ secBad s port sub b then some 0xA8
  else none

/-- A frame that fails its FCS and is delivered all the same is counted (R222). Log 142, DEDUCED. -/
def countKept (s : State) (port sub : Nat) (b : List Byte) : State :=
  if b.length ≤ maxLen s port ∧ fcsOk b = false then cnt s port sub 0x78 1 else s

/-- The frame ends: the unused part of its reservation is released. -/
def keepPart (s : State) (port sub : Nat) (fr : RxFrame) (b : List Byte) : State :=
  let used := min fr.reserved b.length
  let s := replaceRx s port sub fr { fr with ended := some b, reserved := used }
  { s with staging := upd s.staging port (· - (fr.reserved - used)) }

/-- Log 142, DEDUCED. -/
def frameEnd (s : State) (port sub : Nat) (fr : RxFrame) (b : List Byte) : State :=
  if fr.dropped ∧ fr.action ≠ 3 then removeRx s port sub fr
  else match endCheck s port sub b with
    | some o => cnt (removeRx s port sub fr) port sub o 1
    | none =>
      let s := countKept (if isSecured b then secTaken s port sub b else s) port sub b
      if fr.decided then complete (removeRx s port sub fr) port sub fr b
      else keepPart s port sub fr b

/-- The line's own errors up to the end of a frame are counted; an uncorrected codeword sets FEC_DEGRADE (R246,
R249). Log 148, DESIGN CHOICE. -/
def countLine (s : State) (port sub : Nat) : State :=
  let e := Config.lineErrors s.fresh
  let s := cnt (cnt (cnt { s with fresh := s.fresh + 1 } port sub 0x88 e.1) port sub 0xB0 e.2.1) port sub 0xB8 e.2.2
  if e.2.2 = 0 then s else orReg s (bMac + 0x10000 * port + 0x10) 0x4

/-- FRAME_END: `bytes` is the frame from its destination address through its FCS. -/
def execFrameEnd (port sub : Nat) (bytes : List Byte) (off : Nat) (s : State) : Out1 :=
  let s := { s with tick := { s.tick with off := off } }
  done s (match (look s.rx (subKey port sub)).find? (·.ended.isNone) with
    | some fr => frameEnd (countLine s port sub) port sub fr bytes
    | none => s)

/-! ## The sorting table (R229, R230, R247) -/

/-- The rule in the shadow window. -/
def shadowSel (s : State) : Nat := bits (reg s (bSrt + 0x100)) 11 0

/-- A rule with bytes replaced; reserved bits stay zero. -/
def ruleWith (r : BitVec 1024) (byteOff size data : Nat) : BitVec 1024 :=
  BitVec.ofNat 1024 (ofLe (patch (leBytes 128 r.toNat) byteOff (leBytes size data))) &&& ruleMask

def shadowWrite (s : State) (byteOff size data : Nat) : State :=
  if s.srtCopying then orReg s (bSrt + 0xC) 0x4
  else { s with srtS := upd s.srtS (shadowSel s) fun r => ruleWith r byteOff size data }

/-- SRT_SHADOW_RULE_WRITE (R230). -/
def execSrtShadowRuleWrite (v : View) (byteOff : Nat) (size : Nat) (data : BitVec 64) (s : State) : Out1 :=
  done s (if hasAccess v ∧ size ∈ [1, 2, 4, 8] ∧ byteOff % size = 0 ∧ byteOff + size ≤ 128 then
      shadowWrite s byteOff size data.toNat
    else s)

/-- SRT_COPY_DONE (R230): the shadow holds a copy of the active table. -/
def execSrtCopyDone (s : State) : Out1 :=
  done s (if s.srtCopying then orReg { s with srtS := s.srtA, srtCopying := false } (bSrt + 0xC) 0x2 else s)

/-- Every target queue of a queue or spread rule is a receive queue of its function; a spread rule's group has at most
2^6 (R227). -/
def targetsOk (s : State) (r : BitVec 1024) : Bool :=
  if ruleAction r = 2 then
    decide (ruleG r ≤ 6) && (List.range (2 ^ ruleG r)).all fun i => isRxOf s (ruleFunc r) (ruleQueue r + i)
  else isRxOf s (ruleFunc r) (ruleQueue r)

/-- The function that the operator bound to a TENANT value. -/
def tenantFunc (s : State) (tenant : Nat) : Option Nat :=
  (s.vfs.find? fun kv => kv.2.assigned && decide (kv.2.tenant = tenant)).map (·.1)

/-- The reason of R229 or R257 for which a request rule is refused, or 0. -/
def requestRule (s : State) (r : BitVec 1024) : Nat :=
  let q := ruleQueue r
  if ruleEn r 11 = false ∨ tenantFunc s (ruleBits r 0x48 15 0) ≠ some (ruleFunc r) then 3
  else match standingOf s q with
    | none => 4
    | some c =>
      if funcOfCtx s c ≠ ruleFunc r then 4
      else match bindingAt s q with
        | none => 5
        | some i =>
          if (setBitsOf 16 (rulePorts r)).any fun p => decide (p / 2 ≠ bindDie s (look s.binds i)) then 6 else 0

/-- The reason for which a rule refuses a swap, or 0: 1 action, 2 target queues, 3 tenant binding, 4 entry
queue, 5 unbound queue, 6 port outside the die. Log 167, DEDUCED. -/
def ruleReason (s : State) (r : BitVec 1024) : Nat :=
  let a := ruleAction r
  if ruleValid r = false then 0
  else if 4 ≤ a then 1
  else if a = 1 ∨ a = 2 then (if targetsOk s r then 0 else 2)
  else if a = 3 then requestRule s r
  else 0

/-- Log 167, DEDUCED. -/
def badRule (s : State) : Option (Nat × Nat) :=
  (s.srtS.find? fun kv => decide (ruleReason s kv.2 ≠ 0)).map fun kv => (kv.1, ruleReason s kv.2)

/-- The table that the swap puts in force is the shadow as it was checked. Log 167, DEDUCED. Log 251, DESIGN CHOICE. -/
def srtSwapBody (h : CmdHdr) (s : State) (i : Nat) : Reply :=
  if s.srtCopying ∨ s.srtPending then refuse s stState
  else match badRule s with
    | some (k, why) => refuseAt s 0x200 (k + why * 4096) 0
    | none =>
      let due := tickAfter4096 s
      acceptAt (addEffect { s with srtPending := true, srtNext := s.srtS } h i due .srtSwap) due 0

/-- SRT_SWAP. -/
def execSrtSwap (h : CmdHdr) (s : State) : Out1 :=
  done s (takeCommand s h { opcode := 0x0601, agent := 1, pends := true } true true (srtSwapBody h))

/-- A frame not yet decided keeps the table in force at its SFD (R230). -/
def keepTable (t : Table (BitVec 1024)) (f : RxFrame) : RxFrame :=
  if f.decided || f.dropped then f else { f with table := some (f.table.getD t) }

/-- The swap takes effect: the copies trade places, and the new active one is copied into the shadow. Log 167,
DEDUCED. Log 251, DESIGN CHOICE. -/
def takeSrtSwap (s : State) : State :=
  orReg { s with srtA := s.srtNext, srtS := s.srtA, srtNext := [], srtCopy := !s.srtCopy, srtCopying := true,
                 srtPending := false, rx := mapT s.rx fun _ l => l.map (keepTable s.srtA) }
    (bSrt + 0xC) 0x1

/-! ## MACsec keys (R242) -/

/-- Bytes of a SAK by suite, and of the buffer that wraps it: the installer's public key, then the wrapped key.
Log 146, DEDUCED. -/
def sakLen (suite : Nat) : Nat := if suite % 2 = 0 then 16 else 32
/-- Log 146, DEDUCED. -/
def sakBufLen (suite : Nat) : Nat := 96 + sakLen suite + 8

/-- A SAK is wrapped as a key of domain 0 is (R298, R299), under slot code 5. Log 146, DEDUCED. -/
def sakOf (s : State) (suite : Nat) (buf : List Byte) : Option (List Byte) :=
  match unwrapKey (kekOf s 0 5 (slice buf 0 96)) (slice buf 96 (sakLen suite + 8)) with
  | some k => if k.length = sakLen suite then some k else none
  | none => none

/-- Install a SAK; a transmit one comes into use at once. Log 146, DEDUCED. -/
def installSak (s : State) (port sub chan an suite : Nat) (key : List Byte) : State :=
  let base := sakKey port sub 32 0
  let saks := if chan = 32 then
      mapT s.saks fun k x => if base ≤ k ∧ k < base + 4 then { x with used := false } else x
    else s.saks
  let x : Sak := { suite := suite, key := key, used := decide (chan = 32), nextPn := 1 }
  { s with saks := put saks (sakKey port sub chan an) x }

/-- Log 146, DEDUCED. -/
def macsecBody (port sub chan an suite src : Nat) (s : State) (_ : Nat) : Reply :=
  let r := hostRead s (.function 0) 0 src (sakBufLen suite)
  match r.2 with
  | some (b, false) =>
    match sakOf r.1 suite b with
    | some k => accept (installSak r.1 port sub chan an suite k)
    | none => refuse r.1 stDigest
  | _ => refuse r.1 stDigest

/-- MACSEC_SAK. -/
def execMacsecSak (h : CmdHdr) (port sub chan an suite src : Nat) (s : State) : Out1 :=
  done s (takeCommand s h { opcode := 0x0604, agent := 2 }
    (decide (port < 16 ∧ sub < 8 ∧ chan ≤ 32 ∧ an ≤ 3 ∧ suite ≤ 3 ∧ src < 2 ^ 64)) (hostOk s 0 src (sakBufLen suite))
    (macsecBody port sub chan an suite src))

end Sys2Proof.Machine
end

