-- ==== Sys2Proof/Machine/Trunk.lean ====
section
/-!
DEFINITION. The trunk (R345–R359): bringing a port up, cells and their sealing, scheduled words, messages and
their routes, and link keys. A RAW read-out crosses as eight words like any other, unchanged (R355). Reception of brake, READY and GO is in Jobs.lean.
-/

namespace Sys2Proof.Machine

def portAt (s : State) (p : Nat) : TrunkPort := look s.trunk p

def portWindow (p : Nat) : Nat := bTrk + 0x1000 + 0x100 * p

def portEn (s : State) (p : Nat) : Bool := bitOf (reg s (portWindow p)) 0

/-- LAT_FIX of a port. -/
def portLat (s : State) (p : Nat) : Nat := bits (reg s (portWindow p)) 28 16

def updPort (s : State) (p : Nat) (f : TrunkPort → TrunkPort) : State := { s with trunk := upd s.trunk p f }

/-- Reserved fabric IDs (R14). -/
def reservedId (id : Nat) : Bool := decide (250000 ≤ id)

/-- The trunk PHYs are powered and the boot has reached their training (R402). -/
def trunkPowered (s : State) : Bool :=
  decide (s.life.stage = .train) || decide (s.life.stage = .restore) || decide (s.life.stage = .done)

/-! ## Port states (R349) -/

/-- Contexts of jobs whose words a port carries. -/
def jobsOn (s : State) (p : Nat) : List Nat :=
  ctxsWhere s fun t => decide (1 < t.report.chips) && decide (p ∈ jobPorts t)

/-- What a port forgets when it leaves UP: keys, cells in flight, credits; messages waiting are dropped and
counted. -/
def portCleared (x : TrunkPort) (st : PortState) (cause : Nat) : TrunkPort :=
  { state := st, cause := cause, peerId := x.peerId, peerPort := x.peerPort, latMeas := x.latMeas, skew := x.skew,
    skewMax := x.skewMax }

/-- A port enters a state other than UP; a port that was UP brakes the jobs whose words it carries with cause
LINK (R362, R364), and a followed one is a lost reference (R352). -/
def portTo (s : State) (p : Nat) (st : PortState) (cause : Nat) : State :=
  let x := portAt s p
  let n := x.out.length + x.inbox.length
  let s := updPort s p fun x => portCleared x st cause
  let s := orReg (bump s (bTrk + 0x28) n) (bTrk + 0xC) (ofBool (x.state ≠ st) + 0x20 * ofBool (n ≠ 0))
  if x.state = .up then
    let s := (jobsOn s p).foldl (fun s c => raiseBrake s c 2) s
    if followEn s ∧ followPort s = p then referenceLost s else s
  else s

/-- The port goes through TRAINING where it is enabled and powered, and is DOWN otherwise. -/
def portRetrain (s : State) (p : Nat) : State :=
  portTo s p (if portEn s p ∧ trunkPowered s then .training else .down) 0

def trkPortCtrl (s : State) (p data : Nat) : State :=
  let old := reg s (portWindow p)
  let x := keepField old (data &&& 0x1FFF0001) 28 16 (within (bits data 28 16) 256 8191)
  if x = old then s else portRetrain (setReg s (portWindow p) x) p

/-- TRK_PORT_CTRL_WRITE (R366): a LAT_FIX out of range is discarded; a change takes the port through TRAINING. -/
def execTrkPortCtrlWrite (v : View) (port : Nat) (data : BitVec 32) (s : State) : Out1 :=
  done s (if hasAccess v ∧ port < 40 then trkPortCtrl s port data.toNat else s)

/-- The value of TRK_PORT_SKEW. -/
def skewWord (x : TrunkPort) : Nat :=
  wrapInt 8 (max (-127) (min 127 x.skew)) + min 127 x.skewMax * 2 ^ 16

/-- TRK_PORT_SKEW_READ (R366): reading clears the largest magnitude. -/
def execTrkPortSkewRead (v : View) (port : Nat) (s : State) : Out1 :=
  done s (if hasAccess v ∧ port < 40 then
      emit (updPort s port fun x => { x with skewMax := 0 }) (.regData (BitVec.ofNat 64 (skewWord (portAt s port))))
    else emit s (.regData 0))

/-- TRUNK_TRAINING_DONE (R349): cause 0, or 1 signal or 2 FEC lock. -/
def trainingDone (s : State) (p cause : Nat) : State :=
  if cause ≠ 0 then portTo s p .failed cause
  else portTo s p (if reservedId s.fabricId then .noId else .identify) 0

def execTrunkTrainingDone (port cause : Nat) (s : State) : Out1 :=
  done s (if (portAt s port).state = .training then trainingDone s port cause else s)

/-- TRUNK_IDENTIFY (R349). Log 182, DEDUCED. -/
def identify (s : State) (p peerId peerPort peerLatFix : Nat) : State :=
  let s := updPort s p fun x => { x with peerId := peerId, peerPort := peerPort }
  if peerLatFix ≠ portLat s p then portTo s p .failed 5
  else if reservedId peerId ∨ peerId = s.fabricId then portTo s p .failed 6
  else portTo s p .agree 0

def execTrunkIdentify (port peerId peerPort peerLatFix : Nat) (s : State) : Out1 :=
  done s (if (portAt s port).state = .identify then identify s port peerId peerPort peerLatFix else s)

/-- The prime and coefficient b of the curve P-384. -/
def p384 : Nat := 2 ^ 384 - 2 ^ 128 - 2 ^ 96 + 2 ^ 32 - 1
def b384 : Nat :=
  0xB3312FA7E23EE7E4988E056BE3F82D19181D9C6EFE8141120314088F5013875AC656398D8A2ED19D2A85C8EDD3EC2AEF

/-- The point lies on the curve: y² = x³ − 3x + b. Log 182, DEDUCED. -/
def onCurve (x y : Nat) : Bool :=
  decide (x < p384) && decide (y < p384) && decide ((y * y + 3 * x) % p384 = (x * x % p384 * x + b384) % p384)

/-- Both directional keys are agreed (R348). Log 182, DEDUCED. -/
def agreeKeys (s : State) (p : Nat) (peer : Nat × Nat) : State :=
  let secret := Config.sharedSecret s.fresh (peer.1 * 2 ^ 384 + peer.2)
  let own := if s.fabricId < (portAt s p).peerId then 0 else 1
  let s := portTo { s with fresh := s.fresh + 1 } p .measure 0
  updPort s p fun x => { x with txKey := Config.linkKey secret own, rxKey := Config.linkKey secret (1 - own) }

/-- TRUNK_AGREE (R348, R349). Log 182, DEDUCED. Log 183, DESIGN CHOICE. -/
def agree (s : State) (p : Nat) (peer : Nat × Nat) (genuine : Bool) : State :=
  if genuine = false then portTo s p .failed 3
  else if onCurve peer.1 peer.2 = false then portTo s p .failed 7
  else agreeKeys s p peer

def execTrunkAgree (port : Nat) (peerEphemeral : Nat × Nat) (peerGenuine : Bool) (s : State) : Out1 :=
  done s (if (portAt s port).state = .agree then agree s port peerEphemeral peerGenuine else s)

/-- A port becomes UP with 64 credits on each of VC2 to VC5 (R358). -/
def portUp (x : TrunkPort) (lat : Nat) : TrunkPort :=
  { x with state := .up, latMeas := lat, credits := [(2, 64), (3, 64), (4, 64), (5, 64)] }

/-- TRUNK_MEASURE (R349): the round trip halved, rounding up. Log 187, DEDUCED. -/
def measure (s : State) (p roundTrip : Nat) : State :=
  let lat := (roundTrip + 1) / 2
  if portLat s p < lat + 8 then portTo (updPort s p fun x => { x with latMeas := lat }) p .failed 4
  else
    let s := orReg (updPort s p fun x => portUp x lat) (bTrk + 0xC) 0x1
    if followEn s ∧ followPort s = p then referenceFound s else s

def execTrunkMeasure (port roundTrip : Nat) (s : State) : Out1 :=
  done s (if (portAt s port).state = .measure then measure s port roundTrip else s)

/-- TRUNK_RETRY (R349). -/
def execTrunkRetry (port : Nat) (s : State) : Out1 :=
  done s (if (portAt s port).state = .failed ∧ portEn s port then portTo s port .training 0 else s)

/-- TRUNK_LINK_DOWN (R364). -/
def execTrunkLinkDown (port cause : Nat) (s : State) : Out1 :=
  done s (if (portAt s port).state = .down then s else portTo s port .failed cause)

/-! ## Cells (R346–R348) -/

/-- Sender offset of cell slot i. -/
def slotOffset (i : Nat) : Nat := 3 * i / 2

/-- Receiver offset at which word 0 of slot i is placed. -/
def placeOffset (s : State) (p i : Nat) : Nat := slotOffset i + portLat s p + 4

/-- The fields of a cell header but its TAG. -/
structure CellHdr where
  vc : Nat := 0
  epoch : Bool := false
  pos : Nat := 0
  wv : Nat := 0
  credits : Nat := 0
  creditVc : Nat := 0
  kgen : Bool := false
  mark : Bool := false
  idle : Bool := false
  deriving DecidableEq, Repr, Inhabited

def hdrWord (h : CellHdr) : Nat :=
  h.vc + ofBool h.epoch * 2 ^ 3 + h.pos * 2 ^ 4 + h.wv * 2 ^ 6 + h.credits * 2 ^ 16 + h.creditVc * 2 ^ 24 +
    ofBool h.kgen * 2 ^ 27 + ofBool h.mark * 2 ^ 28 + ofBool h.idle * 2 ^ 29

def wordHdr (w : Nat) : CellHdr :=
  { vc := bits w 2 0, epoch := bitOf w 3, pos := bits w 5 4, wv := bits w 9 6, credits := bits w 23 16,
    creditVc := bits w 26 24, kgen := bitOf w 27, mark := bitOf w 28, idle := bitOf w 29 }

/-- Nonce of a direction's n-th cell under its key. -/
def cellNonce (n : Nat) : List Byte := beBytes 4 0 ++ beBytes 8 n

/-- The first 32 bits of a GCM tag. Log 184, DEDUCED. -/
def linkTag (tag : List Byte) : Nat := ofBe (tag.take 4)

/-- A sealed cell: header and encrypted payload of 92 bytes. Log 184, DEDUCED. -/
def sealCell (key : List Byte) (n : Nat) (h : CellHdr) (payload : List Byte) : BitVec 800 :=
  let r := gcmSeal key (cellNonce n) (leBytes 4 (hdrWord h)) (slice payload 0 92)
  BitVec.ofNat 800 (hdrWord h + linkTag r.2 * 2 ^ 32 + ofLe r.1 * 2 ^ 64)

/-- The plaintext payload of a cell whose link tag verifies. Log 184, DEDUCED. -/
def openCell (key : List Byte) (n : Nat) (c : BitVec 800) : Option (List Byte) :=
  let ct := leBytes 92 (c.toNat / 2 ^ 64)
  let aad := leBytes 4 (c.toNat % 2 ^ 32)
  if linkTag (gcmTag key (cellNonce n) aad ct) = bits c.toNat 63 32 then some (gcmSeal key (cellNonce n) aad ct).1 else none

/-! ## Scheduled words (R350, R353, R354) -/

/-- The hub die of a trunk port (R345). -/
def trunkHub (p : Nat) : Nat := p / 5

/-- The timetable of a job in its pass that lists words of a port's slot. -/
def slotUser (s : State) (p slot : Nat) : Option Nat :=
  (ctxsWhere s fun t => t.ran && t.report.trunkWords.any fun w => decide (w.port = p ∧ w.slot = slot)).head?

/-- Words of a slot that a timetable lists. -/
def listedWords (s : State) (c p slot : Nat) : List Nat :=
  ((ttOf s c).report.trunkWords.filter fun w => decide (w.port = p ∧ w.slot = slot)).map (·.word)

/-- The word in input register j of a sending port for a slot. -/
def inputWord (s : State) (p slot j : Nat) : Option TWord :=
  hubWordAt s (hubKey (trunkHub p) (Config.trunkRegister p j 0)) (slotOffset slot - 4 + j)

/-- Words of a slot that stand in the input registers: register and word. -/
def standingWords (s : State) (p slot : Nat) : List (Nat × TWord) :=
  if slot % 16 = 15 then []
  else match slotUser s p slot with
    | some c => (listedWords s c p slot).filterMap fun j => (inputWord s p slot j).map fun w => (j, w)
    | none => []

/-- The 184 bits of a word (R67). -/
def wordNat (w : TWord) : Nat :=
  w.payload.toNat + w.kind.toNat * 2 ^ 160 + w.queue.toNat * 2 ^ 164 + w.tag.toNat * 2 ^ 168

def natWord (n : Nat) : TWord :=
  { payload := BitVec.ofNat 160 n, kind := BitVec.ofNat 4 (n / 2 ^ 160), queue := BitVec.ofNat 3 (n / 2 ^ 164),
    tag := BitVec.ofNat 16 (n / 2 ^ 168) }

/-- Payload of a VC0 cell. -/
def wordsPayload (l : List (Nat × TWord)) : List Byte := leBytes 92 (l.foldl (fun a x => a + wordNat x.2 * 2 ^ (184 * x.1)) 0)

def wvOf (l : List (Nat × TWord)) : Nat := l.foldl (fun a x => a ||| 2 ^ x.1) 0

/-- The words leave the input registers. -/
def takeWords (s : State) (p slot : Nat) (l : List (Nat × TWord)) : State :=
  l.foldl (fun s x => hubTake s (hubKey (trunkHub p) (Config.trunkRegister p x.1 0)) (slotOffset slot - 4 + x.1)) s

/-! ## Messages (R356–R358) -/

/-- A message with its 16-byte header. -/
def msgBytes (m : TrunkMsg) : List Byte :=
  leBytes 4 m.dest ++ leBytes 4 m.src ++ leBytes 2 m.body.length ++ leBytes 1 m.hops ++ leBytes 1 m.type ++
    leBytes 4 0 ++ m.body

/-- Cells of a message: 92 bytes each. -/
def msgCells (m : TrunkMsg) : Nat := (16 + m.body.length + 91) / 92

/-- The message that a channel has first. -/
def headOf (x : TrunkPort) (vc : Nat) : Option TrunkMsg := x.out.find? fun m => decide (m.vc = vc)

/-- The channel may send a cell: a message and, on VC2 to VC5, a credit. -/
def vcReady (x : TrunkPort) (vc : Nat) : Bool :=
  (headOf x vc).isSome && (decide (vc = 1) || decide (look x.credits vc ≠ 0))

/-- VC2 to VC5 in the order of their turns after a channel. -/
def turns (last : Nat) : List Nat := (List.range 4).map fun i => 2 + (last - 2 + 1 + i) % 4

/-- The channel that takes a slot not used by VC0: VC1 first, then the message in progress, then the next in
turn. -/
def nextVc (x : TrunkPort) : Option Nat :=
  if vcReady x 1 then some 1
  else if look x.sent x.rrLast ≠ 0 ∧ vcReady x x.rrLast then some x.rrLast
  else (turns x.rrLast).find? (vcReady x)

/-- POS of cell k of n. -/
def posOf (k n : Nat) : Nat := if n = 1 then 3 else if k = 0 then 1 else if k + 1 = n then 2 else 0

/-- The port after a cell of a channel's message left. Log 184, DEDUCED. -/
def sentCell (x : TrunkPort) (vc : Nat) (m : TrunkMsg) : TrunkPort :=
  let k := look x.sent vc
  let over1 := decide (k + 1 = msgCells m)
  { x with
    out := if over1 then x.out.erase m else x.out
    sent := put x.sent vc (if over1 then 0 else k + 1)
    credits := if vc = 1 then x.credits else upd x.credits vc (· - 1)
    rrLast := if vc = 1 then x.rrLast else vc }

/-- Credits that a cell returns: channel and count. -/
def creditsOf (x : TrunkPort) : Nat × Nat :=
  match [2, 3, 4, 5].find? fun v => decide (look x.toReturn v ≠ 0) with
  | some v => (v, min 255 (look x.toReturn v))
  | none => (0, 0)

/-- A cell leaves a port: sealed, counted, on the wire. Log 184, DEDUCED. -/
def cellOut (s : State) (p slot : Nat) (h : CellHdr) (payload : List Byte) : State :=
  let x := portAt s p
  let cr := creditsOf x
  let h := { h with credits := cr.2, creditVc := cr.1, kgen := x.txGen, mark := decide (slot = 0) }
  let s := updPort s p fun x =>
    { x with txCount := x.txCount + 1, toReturn := if cr.1 = 0 then x.toReturn else upd x.toReturn cr.1 (· - cr.2) }
  let s := if h.idle then s else bump s (portWindow p + 0x20) 1
  emit s (.cell p (sealCell x.txKey x.txCount h payload))

def cellSend (s : State) (p slot : Nat) : State :=
  let x := portAt s p
  let s := { s with tick := { s.tick with off := slotOffset slot } }
  match standingWords s p slot with
  | w :: l => cellOut (takeWords s p slot (w :: l)) p slot { vc := 0, pos := 3, wv := wvOf (w :: l) } (wordsPayload (w :: l))
  | [] =>
    match nextVc x with
    | none => cellOut s p slot { idle := true } []
    | some vc =>
      match headOf x vc with
      | none => cellOut s p slot { idle := true } []
      | some m =>
        let k := look x.sent vc
        cellOut (updPort s p fun x => sentCell x vc m) p slot
          { vc := vc, epoch := m.epoch && decide (vc ≠ 1), pos := posOf k (msgCells m) } (slice (msgBytes m) (92 * k) 92)

/-- Cell slots of a tick (R346). -/
def slotsInTick (s : State) : Nat := 2 * tickLen s / 3

/-- TRUNK_CELL_SEND (R346). -/
def execTrunkCellSend (port slot : Nat) (s : State) : Out1 :=
  done s (if port < 40 ∧ (portAt s port).state = .up ∧ slot < slotsInTick s then cellSend s port slot else s)

/-- The message that 16 header bytes and a body spell. -/
def readMsg (b : List Byte) (vc : Nat) (epoch : Bool) : TrunkMsg :=
  { dest := leAt b 0 4 % 2 ^ 18, src := leAt b 4 4 % 2 ^ 18, hops := leAt b 10 1, type := leAt b 11 1, epoch := epoch,
    vc := vc, body := slice b 16 (leAt b 8 2) }

/-- A message cell joins the message in progress of its channel; a whole message waits to be forwarded. -/
def msgCell (s : State) (p : Nat) (h : CellHdr) (payload : List Byte) : State :=
  let x := portAt s p
  let b := if h.pos = 1 ∨ h.pos = 3 then payload else look x.rx h.vc ++ payload
  if h.pos = 2 ∨ h.pos = 3 then
    updPort s p fun x => { x with rx := put x.rx h.vc [], inbox := x.inbox ++ [readMsg b h.vc (if h.vc = 1 then s.routeEpoch else h.epoch)] }
  else updPort s p fun x => { x with rx := put x.rx h.vc b }

/-- An offset difference reduced to the range −L/2 to L/2 (R351). -/
def reduced (len : Nat) (d : Int) : Int :=
  let m := d % (len : Int)
  if m ≤ (len : Int) / 2 then m else m - len

/-- The MARK cell's skew, recorded; a followed port steers the generator (R351, R352). Log 187, DEDUCED. -/
def markSkew (s : State) (p arrival : Nat) : State :=
  let k := reduced (tickLen s) ((arrival : Int) - portLat s p)
  let s := updPort s p fun x => { x with skew := k, skewMax := max x.skewMax k.natAbs }
  let s := if 4 < k.natAbs then orReg s (bTrk + 0xC) 0x8 else s
  if followEn s ∧ followPort s = p then servoTake s (k * 2000 / 3) else s

/-- The slot of a cell that arrives at an offset, by the skew of the link. -/
def slotOfArrival (s : State) (p arrival : Nat) : Nat :=
  let d := ((arrival : Int) - portLat s p - (portAt s p).skew) % (tickLen s : Int)
  (2 * d.toNat + 2) / 3

/-- A VC0 cell is held for its delivery, or late (R350). -/
def holdCell (s : State) (p arrival wv : Nat) (payload : List Byte) : State :=
  let slot := slotOfArrival s p arrival
  let ws := (List.range 4).filterMap fun j =>
    if bitOf wv j then some (j, natWord (ofLe payload / 2 ^ (184 * j) % 2 ^ 184)) else none
  if 4 < (portAt s p).skew then s
  else updPort s p fun x => { x with held := x.held ++ [(slot, ws)] }

/-- An authentic cell takes effect. -/
def takeCell (s : State) (p arrival : Nat) (h : CellHdr) (payload : List Byte) : State :=
  let s := if h.mark then markSkew s p arrival else s
  let s := if 2 ≤ h.creditVc ∧ h.creditVc ≤ 5 then
      updPort s p fun x => { x with credits := upd x.credits h.creditVc (· + h.credits) }
    else s
  if h.idle then s
  else
    let s := bump s (portWindow p + 0x28) 1
    if h.vc = 0 then holdCell s p arrival h.wv payload
    else if h.vc ≤ 5 then msgCell s p h payload
    else s

def cellReceive (s : State) (p : Nat) (c : BitVec 800) (arrival : Nat) (uncorrectable : Bool) : State :=
  let x := portAt s p
  let s := updPort { s with tick := { s.tick with off := arrival } } p fun x => { x with rxCount := x.rxCount + 1 }
  let s := bump { s with fresh := s.fresh + 1 } (portWindow p + 0x30) (Config.trunkCorrected s.fresh)
  if uncorrectable then bump s (portWindow p + 0x38) 1
  else match openCell x.rxKey x.rxCount c with
    | none => bump s (portWindow p + 0x40) 1
    | some payload => takeCell s p arrival (wordHdr (c.toNat % 2 ^ 32)) payload

/-- TRUNK_CELL_RECEIVE (R348, R350, R351). Log 255, DESIGN CHOICE. -/
def execTrunkCellReceive (port : Nat) (cell : BitVec 800) (arrival : Nat) (uncorrectable : Bool) (s : State) : Out1 :=
  done s (if port < 40 ∧ (portAt s port).state = .up then cellReceive s port cell arrival uncorrectable else s)

/-- The held words of a slot. -/
def heldOf (x : TrunkPort) (slot : Nat) : List (Nat × TWord) :=
  ((x.held.find? fun h => decide (h.1 = slot)).map (·.2)).getD []

/-- An expected word is lost (R354): code 44, the brake with cause LOST, and then the response to the fault, unless the
context has stopped before. -/
def wordLost (s : State) (c p : Nat) : State :=
  let q : FaultReq := { code := 44, named := .context c, locKind := 6, location := p, off := s.tick.off }
  if isConseq s q.code q.named then raiseBrake (recordFault s q) c 4
  else respond (raiseBrake (recordFault s q) c 4) q.named

/-- Deliver one expected word, or lose it. Log 253, DEDUCED. -/
def deliverWord (s : State) (c p slot : Nat) (held : List (Nat × TWord)) (j : Nat) : State :=
  match held.find? fun h => decide (h.1 = j) with
  | some (_, w) => hubPlace s (partOfCtx c) (trunkHub p) (Config.trunkRegister p j 1) (placeOffset s p slot + j) w
  | none => wordLost (bump s (portWindow p + 0x48) 1) c p

def vc0Deliver (s : State) (p slot : Nat) : State :=
  let held := heldOf (portAt s p) slot
  let had := (portAt s p).held.any fun h => decide (h.1 = slot)
  let s := { s with tick := { s.tick with off := placeOffset s p slot % tickLen s } }
  let s := updPort s p fun x => { x with held := x.held.filter fun h => decide (h.1 ≠ slot) }
  match slotUser s p slot with
  | some c => (listedWords s c p slot).foldl (fun s j => deliverWord s c p slot held j) s
  | none => if had then orReg (bump s (bTrk + 0x20) 1) (bTrk + 0xC) 0x20 else s

/-- VC0_DELIVERY (R350, R353, R354): also where the link is down, whose words are lost. -/
def execVc0Delivery (port slot : Nat) (s : State) : Out1 :=
  done s (if port < 40 ∧ slot < slotsInTick s then vc0Deliver s port slot else s)

/-- A link key is replaced after 2^31 cells (R348). Log 183, DESIGN CHOICE. -/
def ratcheted (key : List Byte) : List Byte := hkdf384 [] key [0x6E, 0x65, 0x78, 0x74] 32

def execKeyRatchet (port : Nat) (rx : Bool) (s : State) : Out1 :=
  let x := portAt s port
  done s (if x.state ≠ .up ∨ (if rx then x.rxCount else x.txCount) < 2 ^ 31 then s
    else if rx then updPort s port fun x => { x with rxKey := ratcheted x.rxKey, rxCount := 0, rxGen := !x.rxGen }
    else updPort s port fun x => { x with txKey := ratcheted x.txKey, txCount := 0, txGen := !x.txGen })

/-- The first message of a port leaves its buffer: delivered here, forwarded, or dropped; its buffer cells
return as credits. -/
def messageForward (s : State) (p : Nat) : State :=
  match (portAt s p).inbox with
  | [] => s
  | m :: l =>
    let s := updPort s p fun x =>
      { x with inbox := l, toReturn := if 2 ≤ m.vc then upd x.toReturn m.vc (· + msgCells m) else x.toReturn }
    forward s m

/-- MESSAGE_FORWARD (R356, R357). What a delivered ALARM message does is BRAKE_RECEIVED, READY_RECEIVED or
GO_RECEIVED. Log 185, DEDUCED. -/
def execMessageForward (port : Nat) (s : State) : Out1 := done s (messageForward s port)

/-! ## Identity and routes (R14, R356, R357) -/

def fabricIdBody (id : Nat) (s : State) (_ : Nat) : Reply :=
  if reservedId id then refuse s stReservedId
  else if ctxsWhere s (fun t => decide (1 < t.report.chips)) ≠ [] then refuse s stState
  else accept ((List.range 40).foldl portRetrain { s with fabricId := id })

/-- FABRIC_ID_SET. -/
def execFabricIdSet (h : CmdHdr) (id : Nat) (s : State) : Out1 :=
  done s (takeCommand s h { opcode := 0x0C01, agent := 1 } (decide (id < 2 ^ 18)) true (fabricIdBody id))

def shadowValid (s : State) (a : Nat) : Bool := bitOf (reg s a) 7

/-- The shadow tables have a valid route to a reserved ID: groups 3,907 to 4,095, and members 16 to 63 where the own
group is 3,906 (R14). -/
def routesReserved (s : State) : Bool :=
  ((List.range' 3907 189).any fun g => shadowValid s (bTrk + 0x20000 + 4 * g)) ||
    (decide (s.fabricId / 64 = 3906) && (List.range' 16 48).any fun m => shadowValid s (bTrk + 0x30100 + 4 * m))

/-- Log 186, DEDUCED. -/
def routePending (s : State) : Bool := s.effects.any fun e => decide (e.effect = .routeSwap)

/-- Log 186, DEDUCED. -/
def routeSwapBody (h : CmdHdr) (s : State) (i : Nat) : Reply :=
  let g := s.fabricId / 64
  let m := s.fabricId % 64
  if routesReserved s then refuse s stReservedId
  else if s.drain ≠ 0 ∨ routePending s then refuse s stState
  else if shadowValid s (bTrk + 0x20000 + 4 * g) then refuseAt s stState g 0
  else if shadowValid s (bTrk + 0x30100 + 4 * m) then refuseAt s stState (0x10000 + m) 0
  else acceptAt (addEffect s h i (nextTick s) .routeSwap) (nextTick s) 0

/-- ROUTE_SWAP. -/
def execRouteSwap (h : CmdHdr) (s : State) : Out1 :=
  done s (takeCommand s h { opcode := 0x0C02, agent := 1, pends := true } true true (routeSwapBody h))

/-- Where a table word goes in the exchange of active and shadow copies, by word index. Log 186, DEDUCED. -/
def routeMoved (k : Nat) : Nat :=
  let a := 4 * k - bTrk
  if 4 * k < bTrk then k
  else if 0x10000 ≤ a ∧ a < 0x14000 then k + 0x4000
  else if 0x20000 ≤ a ∧ a < 0x24000 then k - 0x4000
  else if 0x30000 ≤ a ∧ a < 0x30100 then k + 0x40
  else if 0x30100 ≤ a ∧ a < 0x30200 then k - 0x40
  else k

/-- The route tables of both copies trade places; the old ones drain (R357). Log 186, DEDUCED. -/
def takeRouteSwap (s : State) : State :=
  let moved := s.regs.filter fun kv => decide (routeMoved kv.1 ≠ kv.1)
  let kept := s.regs.filter fun kv => decide (routeMoved kv.1 = kv.1)
  orReg { s with
    regs := moved.foldl (fun t kv => insert t (routeMoved kv.1) kv.2) kept
    routeEpoch := !s.routeEpoch
    drain := bits (reg s (bTrk + 0x4)) 31 24 } (bTrk + 0xC) 0x10

/-- ROUTE_DRAIN_END (R357). -/
def execRouteDrainEnd (s : State) : Out1 := done s (if s.drain = 1 then { s with drain := 0 } else s)

end Sys2Proof.Machine
end

