-- ==== Sys2Proof/Machine/Lifecycle.lean ====
section
/-!
DEFINITION. Rails, boot and power-off (R399–R405), the reset pin (R406–R409), firmware updates (R410, R411),
retirement and retraining (R60, R414), SerDes recalibration (R415) and thermal protection (R426). Versions are 32-bit values that compare as
unsigned integers (R429).
-/

namespace Sys2Proof.Machine

/-! ## Loss of power (R12, R295, R400, R405) -/

/-- What outlives a loss of power: the SC's store with the key domains, the map, the flash and its fuses, and
which physical pseudo-channels serve. Everything else stands at its power-on reset value. Log 222, DEDUCED. -/
def powerLost (s : State) : State :=
  { pending := s.pending
    disabled := s.disabled
    domains := s.domains
    spareBad := s.spareBad
    retiredPcs := s.retiredPcs
    pcs := mapT s.pcs fun _ x => { physDelta := x.physDelta, failed := x.failed }
    store := storeNow s
    life :=
      { bankA := (updateKept s.life).bankA, bankB := (updateKept s.life).bankB, minimums := s.life.minimums
        goods := s.life.goods }
    wire := s.wire
    fresh := s.fresh }

/-! ## Rails (R399, R400) -/

/-- POWER_ON: PWR_OK asserts, power-on reset, and the first enable is raised. Log 5, DESIGN CHOICE. Log 222,
DEDUCED. -/
def execPowerOn (s : State) : Out1 :=
  done s (if s.life.pwrOk then s
    else
      let t := powerLost s
      { t with life := { t.life with pwrOk := true, stage := .rails, enables := [true, false, false, false] } })

/-- The group whose power-good the sequencer waits for: the last one enabled. -/
def railAwaited (l : Life) (g : Nat) : Bool :=
  decide (l.stage = .rails) && l.enables.getD g false && !l.enables.getD (g + 1) false

/-- RAIL_POWER_GOOD: the next enable is raised, or the rails are up, and the PCIe link trains (R404). Log 221, DEDUCED. -/
def railGood (l : Life) (g : Nat) : Life :=
  let l := { l with goods := l.goods.set g true }
  if g < 3 then { l with enables := l.enables.set (g + 1) true } else { l with stage := .scRom }

def execRailPowerGood (group : Nat) (s : State) : Out1 :=
  done s (if railAwaited s.life group then
      let t := { s with life := railGood s.life group }
      if t.life.stage = .scRom then trainPcie t else t
    else s)

/-- RAIL_PG_TIMEOUT: every enable falls and the boot has failed with cause 1. Log 221, DEDUCED. -/
def execRailPgTimeout (group : Nat) (s : State) : Out1 :=
  done s (if railAwaited s.life group ∧ s.life.goods.getD group false = false then
      { s with life := { s.life with enables := [false, false, false, false], stage := .failed, fail := 1 } }
    else s)

/-- Lower the highest enable among the first n groups; a group whose power-good is down already is passed at
once, and below the last one PWR_OFF_DONE asserts. Log 221, DEDUCED. -/
def lowerRails (l : Life) : Nat → Life
  | 0 => { l with pwrOffDone := true }
  | n + 1 =>
    let l := { l with enables := l.enables.set n false }
    if l.goods.getD n false then l else lowerRails l n

/-- Every output goes to electrical idle: subports with a carrier, and trunk ports that are UP (R400). -/
def allQuiet (s : State) : State :=
  let s := goQuiet s
  { s with wire := ((s.trunk.filter (·.2.state = .up)).map fun kv => Out.quiet (16 + kv.1) 0) ++ s.wire }

/-- Power-off begins (R400, R416): a boot or reset in progress ends, and only the always-on domain is left. Log
221, DEDUCED. -/
def beginPowerOff (s : State) : State :=
  let t := deviceCleared (allQuiet s) false
  { t with
    life := lowerRails { t.life with
      stage := .ao, resetting := false, resetHolding := false, endBeacon := false, poweringOff := true, serdesHiZ := true } 4
    station := { t.station with txq := [], attempts := 0, backoff := none } }

/-- POWER_OFF. Log 222, DEDUCED. -/
def execPowerOff (s : State) : Out1 :=
  done s (if s.life.pwrOk ∧ s.life.poweringOff = false then beginPowerOff s else s)

/-- POWER_GOOD_DEASSERT: the next enable is lowered. -/
def execPowerGoodDeassert (group : Nat) (s : State) : Out1 :=
  let l := s.life
  done s (if l.poweringOff ∧ l.pwrOffDone = false ∧ l.enables.getD group false = false ∧ l.goods.getD group false ∧
      (group = 0 ∨ l.enables.getD (group - 1) false) then
      { s with life := lowerRails { l with goods := l.goods.set group false } group }
    else s)

/-- PWR_OK_FALL: a loss of power. Log 222, DEDUCED. -/
def execPwrOkFall (s : State) : Out1 := done s (if s.life.pwrOk then powerLost s else s)

/-! ## Boot (R402–R405) -/

/-- An image passes the checks of R403. Log 219, DEDUCED. -/
def imageOk (l : Life) (i : Nat) (x : Image) : Bool :=
  x.valid && x.signed && decide (l.minimums.getD i 0 ≤ x.version)

/-- The bank taken for an image, true for B; none where neither passes. Log 219, DEDUCED. -/
def chooseBank (l : Life) (i : Nat) : Option Bool :=
  let a := l.bankA.getD i {}
  let b := l.bankB.getD i {}
  if imageOk l i a ∧ (imageOk l i b = false ∨ b.version ≤ a.version) then some false
  else if imageOk l i b then some true
  else none

/-- An image of a bank runs: its version and measurement. -/
def runImage (l : Life) (i : Nat) (bank : Bool) (x : Image) : Life :=
  { l with banks := l.banks.set i bank, versions := l.versions.set i x.version, measures := l.measures.set i x.digest }

def bootFails (l : Life) (cause : Nat) : Life := { l with stage := .failed, fail := cause }

/-- Take image i, or fail with its cause. -/
def bootImage (i cause : Nat) (l : Life) : Life :=
  if l.stage = .failed then l
  else match chooseBank l i with
    | some b => runImage l i b (((if b then l.bankB else l.bankA)).getD i {})
    | none => bootFails l cause

/-- The stage in progress ends and the next one begins, unless the boot has failed. -/
def nextStage (st : Stage) (l : Life) : Life := if l.stage = .failed then l else { l with stage := st }

/-- BOOT_SC_ROM. A reset held by RESET_N waits before it (R406). -/
def execBootScRom (s : State) : Out1 :=
  done s (if s.life.stage = .scRom ∧ s.life.resetHolding = false then
      { s with life := nextStage .scFw (bootImage 0 2 s.life) }
    else s)

/-- BOOT_SC_FW. -/
def execBootScFw (s : State) : Out1 :=
  done s (if s.life.stage = .scFw then { s with life := nextStage .mgmt (bootImage 2 4 (bootImage 1 3 s.life)) } else s)

/-- BOOT_MGMT: both management cores run, the standby is ready, and the PHYs begin to train. -/
def bootMgmt (s : State) : State :=
  let s := { s with life := { s.life with stage := .train, activeM1 := false, standbyReady := true, serdesHiZ := false
                                          smBeat := s.tick.count, scBeat := s.tick.count } }
  (List.range 40).foldl portRetrain s

def execBootMgmt (s : State) : Out1 := done s (if s.life.stage = .mgmt then bootMgmt s else s)

/-- BOOT_TRAIN: HBM that fails to train ends the boot with cause 5. -/
def execBootTrain (hbmOk : Bool) (s : State) : Out1 :=
  done s (if s.life.stage = .train then
      { s with life := if hbmOk then { s.life with stage := .restore } else bootFails s.life 5 }
    else s)

/-- Every page of every allocatable pseudo-channel is Clearing (R405). Log 30, DEDUCED. -/
def allClearing : Table Page :=
  ((List.range 256).filter allocatable).flatMap fun pc => (List.range 384).map fun page =>
    (pageKey pc page, { kind := .clearing, blank := true })

/-- The SC's store is restored; after a cold boot nothing that lived in HBM is (R295, R405). Log 30, DEDUCED. -/
def bootRestore (s : State) : State :=
  { s with
    parts := s.store.parts
    vfs := s.store.vfs
    retired := s.store.retired
    pages := if s.life.cold then allClearing else s.pages
    life := { s.life with stage := .done, cold := false } }

/-- BOOT_RESTORE: a store that cannot be restored ends the boot with cause 6. -/
def execBootRestore (storeOk : Bool) (s : State) : Out1 :=
  done s (if s.life.stage = .restore then
      if storeOk then bootRestore s else { s with life := bootFails s.life 6 }
    else s)

/-! ## Temperatures (R426–R428) -/

/-- Thresholds of a unit in 1/16 °C: ALARM, HOT, TRIP. -/
def alarmAt (unit : Nat) : Int := if unit < 64 then 1600 else 1360
def hotAt (unit : Nat) : Int := if unit < 64 then 1728 else 1440
def tripAt (unit : Nat) : Int := if unit < 64 then 1840 else 1520

def tempOf (s : State) (unit : Nat) : Int := look s.life.temps unit
def units : List Nat := List.range 72

/-- A HOT threshold is crossed now. -/
def hotNow (s : State) : Bool := units.any fun u => decide (hotAt u ≤ tempOf s u)

/-- The hottest unit relative to its ALARM threshold, the lowest of equals. -/
def hottestUnit (s : State) : Nat :=
  units.foldl (fun b u => if tempOf s b - alarmAt b < tempOf s u - alarmAt u then u else b) 0

def bTherm : Nat := bDie + 0xD20

/-- A sensor reading is taken, and HOTTEST follows. -/
def sense (s : State) (unit : Nat) (temp : Int) : State :=
  let s := { s with life := { s.life with
    temps := put s.life.temps unit temp, tempRegs := put s.life.tempRegs unit temp } }
  setReg s bTherm (bits (reg s bTherm) 3 0 + 2 ^ 8 * hottestUnit s)

/-- ALARM: the status of the unit's kind, and the event. Log 225, DEDUCED. -/
def thermAlarm (s : State) (unit : Nat) : State :=
  orReg (orReg s bTherm (if unit < 64 then 0x1 else 0x2)) (bTherm + 4) 0x1

/-- HOT: the drop to beacon. Log 225, DEDUCED. -/
def thermHot (s : State) : State := dropLevel (orReg (orReg s bTherm 0x4) (bTherm + 4) 0x2) .beacon

/-- THERM_N goes low and TRIP_LAST sets. -/
def thermLow (s : State) : State := orReg { s with life := { s.life with thermN := false } } bTherm 0x8

/-- TRIP crosses the lower thresholds too, and power-off runs; where it runs already, a trip only drives THERM_N and sets
TRIP_LAST. Log 225, DEDUCED. -/
def thermTrip (s : State) (unit : Nat) (temp : Int) : State :=
  if s.life.poweringOff then thermLow s
  else beginPowerOff (thermLow (thermHot (thermAlarm (sense s unit temp) unit)))

/-- A reading of a unit that crosses a threshold counts for the lower ones too. -/
def crossed (s : State) (unit : Nat) (temp level : Int) : Bool :=
  s.life.pwrOk && decide (unit < 72) && decide (level ≤ temp)

/-- THERMAL_ALARM. -/
def execThermalAlarm (unit : Nat) (temp : Int) (s : State) : Out1 :=
  done s (if crossed s unit temp (alarmAt unit) then thermAlarm (sense s unit temp) unit else s)

/-- Every sensor is 5 °C below its ALARM threshold. Log 225, DEDUCED. -/
def allCool (s : State) : Bool := units.all fun u => decide (tempOf s u ≤ alarmAt u - 80)

/-- Log 225, DEDUCED. -/
def thermClear (s : State) (temps : List (Nat × Int)) : State :=
  let s := (temps.filter fun ut => decide (ut.1 < 72)).foldl (fun s ut => sense s ut.1 ut.2) s
  if allCool s then clrReg s bTherm 0x3 else s

/-- THERMAL_ALARM_CLEAR: readings of the named units, after which ALARM may clear. -/
def execThermalAlarmClear (temps : List (Nat × Int)) (s : State) : Out1 :=
  done s (if s.life.pwrOk then thermClear s temps else s)

/-- THERMAL_HOT. -/
def execThermalHot (unit : Nat) (temp : Int) (s : State) : Out1 :=
  done s (if crossed s unit temp (hotAt unit) then thermHot (thermAlarm (sense s unit temp) unit) else s)

/-- THERMAL_TRIP. -/
def execThermalTrip (unit : Nat) (temp : Int) (s : State) : Out1 :=
  done s (if crossed s unit temp (tripAt unit) then thermTrip s unit temp else s)

/-! ## The end of a boot (R388, R402, R409) -/

/-- The level that a boot or device reset ends at (R388, R426). -/
def bootLevel (s : State) : Level := if s.life.endBeacon ∨ hotNow s then .beacon else .full

/-- The level is written, with KIND 5 notices where it changes. -/
def writeLevel (s : State) (lv : Level) : State :=
  if lv = s.level then s else noticeAll { s with level := lv } { kind := 5, detail := leBytes 1 (levelCode lv) }

/-- Log 5, DESIGN CHOICE. Log 224, DEDUCED. -/
def bootDone (s : State) (ms : Nat) : State :=
  let s := writeLevel s (bootLevel s)
  let s := if hotNow s then s else clrReg s bTherm 0x4
  let s := if s.life.resetting then setReg s (bRst + 0x8) (min ms (2 ^ 32 - 1)) else s
  { s with life := { s.life with
      bootMs := min ms 65535, alive := true, resetting := false, endBeacon := false
      permit := s.store.enrolled, auth := s.store.stationMac } }

/-- BOOT_DONE. -/
def execBootDone (bootMs : Nat) (s : State) : Out1 :=
  done s (if s.life.stage = .done ∧ s.life.alive = false then bootDone s bootMs else s)

/-! ## The reset pin (R406–R409) -/

/-- The pin is watched: PWR_OK is up and no power-off runs. -/
def pinWatched (s : State) : Bool := s.life.pwrOk && !s.life.poweringOff

/-- RESET_N_ASSERT: a device reset that holds, unless the pin is masked. Log 223, DEDUCED. -/
def resetPinLow (s : State) : State :=
  let s := { s with life := { s.life with resetLevel := false } }
  if s.life.mask then s
  else
    let s := startDeviceReset s 1 false
    { s with life := { s.life with resetHolding := true } }

def execResetNAssert (s : State) : Out1 :=
  done s (if pinWatched s ∧ s.life.resetHolding = false then resetPinLow s else s)

/-- RESET_N_RELEASE: the rest of the reset runs, and HELD clears. Log 223, DEDUCED. -/
def execResetNRelease (s : State) : Out1 :=
  done s (if pinWatched s then
      { s with life := { s.life with resetLevel := true, resetHolding := false, held := false } }
    else s)

/-- RESET_N_HELD: low for more than 5 s. -/
def execResetNHeld (s : State) : Out1 :=
  done s (if pinWatched s ∧ s.life.resetHolding then { s with life := { s.life with held := true } } else s)

/-- The sender may mask the pin. Log 224, DEDUCED. -/
def mayMask (s : State) (src : CmdSrc) : Bool :=
  match src with
  | .station mac => decide (mac = s.life.auth) && s.life.permit
  | .ring _ => false

def resetPinMaskBody (h : CmdHdr) (mask : Nat) (s : State) (_ : Nat) : Reply :=
  if mask = 0 then accept { s with life := { s.life with mask := false } }
  else if mayMask s h.src then
    accept { s with life := { s.life with mask := true, resetHolding := false, held := false } }
  else refuse s stNotPermitted

/-- RESET_PIN_MASK. -/
def execResetPinMask (h : CmdHdr) (mask : Nat) (s : State) : Out1 :=
  done s (takeCommand s h { opcode := 0x0D01, agent := 4, stationOnly := true, atBeacon := true }
    (decide (mask < 2)) true (resetPinMaskBody h mask))

/-- The SC runs: from its firmware's start on, in recovery too (R403). -/
def scRuns (s : State) : Bool :=
  !s.life.poweringOff && !s.life.scPaused &&
    (coresRun s || decide (s.life.stage = .scFw) || decide (s.life.stage = .mgmt) ||
      (decide (s.life.stage = .failed) && decide (2 < s.life.fail)))

/-- No partition is OPEN, in use or in the store. Log 224, DEDUCED. -/
def noneOpen (s : State) : Bool :=
  s.parts.all (fun kv => decide (kv.2.state ≠ .opened)) &&
    (decide (s.life.stage = .done) || s.store.parts.all fun kv => decide (kv.2.state ≠ .opened))

/-- STATION_MANAGER_ENROLMENT (R409). Log 224, DEDUCED. -/
def execStationManagerEnrolment (mac : BitVec 48) (s : State) : Out1 :=
  done s (if scRuns s ∧ noneOpen s then { s with store := { s.store with stationMac := mac, enrolled := true } } else s)

/-! ## HBM retraining (R414) -/

/-- The fill reads its home copy from a pseudo-channel. -/
def fillReads (s : State) (pc : Nat) (f : Fill) : Bool :=
  decide (f.source = 1) && (homeLines (look s.lib f.entry) f.quad).any fun l => decide (l.1 = pc)

/-- Fills that read a position are aborted: their Sidings are FAILED (R172). -/
def abortFills (s : State) (pc : Nat) : State :=
  (s.fills.filter (fillReads s pc)).foldl (fun s f => fillFailed (dropFill s f) f) s

/-- Log 62, DEDUCED. -/
def hbmRetrainBody (h : CmdHdr) (pc : Nat) (s : State) (_ : Nat) : Reply :=
  withActivity s 1 pc 0 fun i s =>
    if pc / 32 ∈ s.spareBad then refuse s stState
    else startedNow h (startAct { abortFills s pc with
      pcs := upd s.pcs pc fun x => { x with copy := some 0, switching := false } } i 1 pc false)

/-- HBM_RETRAIN. -/
def execHbmRetrain (h : CmdHdr) (pc : Nat) (s : State) : Out1 :=
  done s (takeCommand s h { opcode := 0x0B01, agent := 1, activity := true } (allocatable pc) true
    (hbmRetrainBody h pc))

/-- Lines still to be copied whose source is uncorrectable. -/
def badLines (s : State) (pc from' : Nat) : List Nat :=
  (s.lines.filter fun kv => decide (kv.1 / 2 ^ 24 = pc) && decide (from' ≤ kv.1 % 2 ^ 24) && kv.2.ue).map
    fun kv => kv.1 % 2 ^ 24

/-- HBM_COPY_DONE: the lines not yet copied are, and the switch waits for the boundary. Log 62, DEDUCED. -/
def execHbmCopyDone (pc : Nat) (s : State) : Out1 :=
  done s (match (pcOf s pc).copy with
    | some n =>
      let s := (badLines s pc n).foldl (fun s l => copyLine s pc l) s
      { s with pcs := upd s.pcs pc fun x => { x with copy := none, switching := true } }
    | none => s)

/-- The retrain of a position has made its switch and waits for the former pseudo-channel. -/
def retrainWaits (s : State) (pc : Nat) : Bool :=
  (findAct s 1 pc).isSome && (pcOf s pc).copy.isNone && !(pcOf s pc).switching

/-- HBM_RETRAIN_DONE: the former pseudo-channel becomes the spare, or is retired. Log 62, DEDUCED. -/
def execHbmRetrainDone (pc : Nat) (pass : Bool) (s : State) : Out1 :=
  done s (if retrainWaits s pc then
      let s := if pass then { s with spareBad := s.spareBad.filter (· ≠ pc / 32) }
        else { s with retiredPcs := upd s.retiredPcs (pc / 32) (· + 1) }
      scrubDueStart (endActOf s 1 pc 1)
    else s)

/-! ## Firmware updates (R410, R411) -/

/-- The image a command carries, as it will stand in the inactive bank. -/
def imageOf (which : Nat) (b : List Byte) : Image :=
  let p := Config.imagePart which b
  { version := Config.imageVersion which b, valid := false, signed := Config.imageSigned which b, digest := sha384 p }

/-- It passes the SC's checks (R403) but for the valid marker, which comes last. -/
def imageAccepted (l : Life) (which : Nat) (x : Image) : Bool := x.signed && decide (l.minimums.getD which 0 ≤ x.version)

/-- The image is written to the bank not in use. -/
def writeBank (l : Life) (i : Nat) (x : Image) : Life :=
  if l.banks.getD i false then { l with bankA := l.bankA.set i x } else { l with bankB := l.bankB.set i x }

/-- The bank written becomes valid and the one in use, and the fused minimum rises. Log 220, DEDUCED. -/
def validBank (l : Life) (i : Nat) (x : Image) : Life :=
  let l := writeBank l i { x with valid := true }
  { l with
    banks := l.banks.modify i (!·)
    minimums := l.minimums.modify i fun m => if m ≤ x.version then x.version else m }

def imageBytes (s : State) (image len : Nat) : State × List Byte :=
  let r := hostRead s (.function 0) 0 image len
  (r.1, (r.2.map (·.1)).getD [])

/-- Log 220, DEDUCED. -/
def smUpdateBody (h : CmdHdr) (image len : Nat) (s : State) (_ : Nat) : Reply :=
  withActivity s 4 0 0 fun i s =>
    let r := imageBytes s image len
    let s := r.1
    let x := imageOf 1 r.2
    if imageAccepted s.life 1 x = false then refuse s stDigest
    else
      let l := writeBank s.life 1 x
      startedNow h (startAct { s with life :=
        { l with updating := true, standbyReady := false, smUpdate := { active := true, image := x, act := i } } } i 4 0 false)

/-- SM_UPDATE. -/
def execSmUpdate (h : CmdHdr) (image len : Nat) (s : State) : Out1 :=
  done s (takeCommand s h { opcode := 0x0B02, agent := 1, activity := true } (decide (image < 2 ^ 64 ∧ len < 2 ^ 32))
    (hostOk s 0 image len) (smUpdateBody h image len))

/-- SM_MIRROR_DONE: the handover waits for the boundary. -/
def execSmMirrorDone (s : State) : Out1 :=
  done s (if s.life.smUpdate.active ∧ s.life.smUpdate.handedOver = false then
      { s with life := { s.life with smUpdate := { s.life.smUpdate with mirrored := true } } }
    else s)

/-- SM_UPDATE_DONE: the former active core is the standby on the new image. Log 94, DEDUCED. Log 220, DEDUCED.
-/
def execSmUpdateDone (s : State) : Out1 :=
  done s (if s.life.smUpdate.active ∧ s.life.smUpdate.handedOver then
      let u := s.life.smUpdate
      let s := endAct { s with life :=
        { validBank s.life 1 u.image with updating := false, standbyReady := true, smUpdate := {} } } u.act 1
      scrubDueStart s
    else s)

def scUpdateBody (h : CmdHdr) (image len : Nat) (s : State) (_ : Nat) : Reply :=
  withActivity s 8 0 0 fun i s =>
    let r := imageBytes s image len
    let s := r.1
    let x := imageOf 0 r.2
    let y := imageOf 2 r.2
    if imageAccepted s.life 0 x = false ∨ imageAccepted s.life 2 y = false then refuse s stDigest
    else
      let l := writeBank (writeBank s.life 0 x) 2 y
      startedNow h (startAct { s with life :=
        { l with scPaused := true, scUpdate := { active := true, image := x, image2 := y, act := i } } } i 8 0 false)

/-- SC_UPDATE: the SC pauses until it runs on the new image. -/
def execScUpdate (h : CmdHdr) (image len : Nat) (s : State) : Out1 :=
  done s (takeCommand s h { opcode := 0x0B03, agent := 2, activity := true } (decide (image < 2 ^ 64 ∧ len < 2 ^ 32))
    (hostOk s 0 image len) (scUpdateBody h image len))

/-- SC_UPDATE_DONE: the new firmware runs; the new monitor waits for the harts (R412). -/
def execScUpdateDone (s : State) : Out1 :=
  done s (if s.life.scUpdate.active then
      let u := s.life.scUpdate
      let l := validBank (validBank s.life 0 u.image) 2 u.image2
      let s := endAct { s with life :=
        { l with
          versions := l.versions.set 0 u.image.version
          measures := l.measures.set 0 u.image.digest
          scPaused := false, scUpdate := {}, monHarts := []
          monNew := some u.image2.version, monDigest := u.image2.digest } } u.act 1
      scrubDueStart s
    else s)

/-! ## SerDes recalibration (R415) -/

/-- Log 226, DEDUCED. -/
def serdesRecalBody (h : CmdHdr) (port : Nat) (s : State) (_ : Nat) : Reply :=
  withActivity s 5 port 0 fun i s => startedNow h (startAct s i 5 port false)

/-- SERDES_RECAL: ports 0–15 are E0–E15, 16–55 T0–T39. -/
def execSerdesRecal (h : CmdHdr) (port : Nat) (s : State) : Out1 :=
  done s (takeCommand s h { opcode := 0x0B04, agent := 1, activity := true } (decide (port < 56)) true
    (serdesRecalBody h port))

/-- SERDES_RECAL_DONE: it ends done, or aborted where the link went down. Log 226, DEDUCED. -/
def execSerdesRecalDone (port : Nat) (linkDown : Bool) (s : State) : Out1 :=
  done s (if (findAct s 5 port).isSome then scrubDueStart (endActOf s 5 port (if linkDown then 2 else 1)) else s)

/-! ## Retirement and admission rebuild (R60, R338) -/

/-- An admitted timetable fires on, routes through or holds a cell of the die. -/
def dieUsed (s : State) (die : Nat) : Bool :=
  (ctxsWhere s fun t =>
    t.report.tiles.any (fun u => decide (u.die = die)) || t.report.cells.any (fun q => decide (q.1 / 4 = die)) ||
      t.report.crossings.any fun x => decide (x.snd.die = die) || decide (x.rcv.die = die)) ≠ []

/-- The die is powered off; entries with library tiles there fall back to their home copies (R182). The map of a die
retired before does not change, and MAP_CHANGED does not set (R65). Log 60, DEDUCED. -/
def retireDie (s : State) (die : Nat) : State :=
  let m : BitVec 40 := BitVec.ofNat 40 (2 ^ die)
  orReg (setLibCount (renewResidence { s with
    retired := s.retired ||| m
    store := { s.store with retired := s.retired ||| m }
    libTiles := s.libTiles.filter fun kv => decide (kv.1 / 4 ≠ die)
    tiles := s.tiles.filter fun kv => decide (kv.1 / 256 ≠ die) })) (bDie + 0x18) (if s.retired ||| m = s.retired then 0 else 0x4)

/-- An activity that ends as it starts. -/
def ranAct (s : State) (i code scope : Nat) : State := endAct (startAct s i code scope false) i 1

/-- Log 60, DEDUCED. -/
def dieRetireBody (h : CmdHdr) (die : Nat) (s : State) (_ : Nat) : Reply :=
  withActivity s 6 die 0 fun i s =>
    if dieUsed s die then refuse s stInUse else startedNow h (ranAct (retireDie s die) i 6 die)

/-- DIE_RETIRE. -/
def execDieRetire (h : CmdHdr) (die : Nat) (s : State) : Out1 :=
  done s (takeCommand s h { opcode := 0x0B05, agent := 1, activity := true } (decide (die < 40)) true
    (dieRetireBody h die))

/-- Log 60, DEDUCED. -/
def admitRebuildBody (h : CmdHdr) (s : State) (_ : Nat) : Reply :=
  withActivity s 7 0 0 fun i s => startedNow h (ranAct s i 7 0)

/-- ADMIT_REBUILD. -/
def execAdmitRebuild (h : CmdHdr) (s : State) : Out1 :=
  done s (takeCommand s h { opcode := 0x0B06, agent := 1, activity := true } true true (admitRebuildBody h))

end Sys2Proof.Machine
end

