-- ==== Sys2Proof/Machine/Overrun.lean ====
section
/-!
DEFINITION. The overrun check of a tick boundary (R32–R34, R159, R369, R373) and what a boundary carries over
in the tiles and hub ports (R27, R75). A timetable overruns when it has not fired, drained and posted its
tick-close by the last ac of the tick (R31).
-/

namespace Sys2Proof.Machine

/-! ## Overruns -/

/-- Timetables that ran in the tick that ends and posted no tick-close; a replay is judged on its own (R373). -/
def lateCtxs (s : State) : List Nat := (ctxsWhere s fun t => t.ran && !t.closed).filter fun c => !replaying s c

/-- The tile and slot of the unfinished actor: the first of the report that started and has not ended. Log 79,
DEDUCED. -/
def unfinished (s : State) (c : Nat) : Option (Nat × Nat) :=
  (ttOf s c).report.tiles.findSome? fun u =>
    let k := tileKey u.die u.tile
    let d := look (tileOf s k).slots u.slot
    if d.started ∧ d.halted = false then some (k, u.slot) else none

/-- Contexts with a slot that fired on a compute tile in the tick, ascending. -/
def firedOn (s : State) (p k : Nat) : List Nat :=
  let t := tileOf s k
  let l := ((List.range 8).map (slotImg (mainSet t p))).filter fun sl => sl.valid && decide ((look t.slots sl.ix).firings ≠ 0)
  sortBy (fun a b => decide (a ≤ b)) (l.map (·.ctx)).eraseDups

/-- Who an overrun names (R369, code 14). Log 79, DEDUCED. -/
def overrunNamed (s : State) (c k : Nat) : Named :=
  let cs := if kindOfTile (k % 256) = 0 then firedOn s (partOfCtx c) k else [c]
  if cs.all fun x => decide (x = c) then .context c else .suspects (partOfCtx c) (k / 256) (k % 256) cs

/-- The fault of an overrun, at the last offset of the tick that ends. Log 79, DEDUCED. -/
def overrunFault (s : State) (c : Nat) : FaultReq :=
  match unfinished s c with
  | some (k, ix) =>
    { code := 14, named := overrunNamed s c k, locKind := 1, location := k / 256 + k % 256 * 2 ^ 8 + ix * 2 ^ 16
      detail := (look (tileOf s k).slots ix).firings, off := tickLen s - 1 }
  | none => { code := 14, named := .context c, off := tickLen s - 1 }

/-- Context c is a suspect of its partition's quarantine. Log 89, DEDUCED. -/
def underQuarantine (s : State) (c : Nat) : Bool :=
  let q := look s.quarantines (partOfCtx c)
  q.active && decide (c ∈ q.suspects)

/-- An overrun tenant timetable fires no more; its state may still be collected until the first changeover of
each quadrant (R33), and its requests get no reply (R270). Log 79, DEDUCED. -/
def stopOverrun (s : State) (c : Nat) : State :=
  let s := dropReplies (markDumpable s c) c
  { s with tts := upd s.tts c fun t =>
      { t with ran := false, state := if underQuarantine s c then .suspended else .faulted } }

/-- Count and record one overrun. -/
def overrun (s : State) (c : Nat) : State :=
  let p := partOfCtx c
  let s := orReg (incReg s (bTck + 0x38) 1) (bTck + 0x30) 0x8
  let s := orReg (incReg s (ttbBase p + 0xC) 1) (ttbBase p + 0x4) 0x4
  let s := raiseFault s (overrunFault s c)
  let s := deliverRec s c (recOf s c 2 0 false)
  if (part s p).radio then s else stopOverrun s c

/-- The partition overran in the tick that ends, so its swaps at this boundary are withheld (R34, R178). -/
def withholdOverrun (s : State) (tick c : Nat) : State :=
  withhold s (partOfCtx c) fun g => decide (g.tick = tick ∧ g.slice = 0)

def overrunCheck (s : State) : State :=
  let l := lateCtxs s
  l.foldl (fun s c => withholdOverrun s (nextTick s) c) (l.foldl overrun s)

/-- Other timetables of a quarantined partition with cells in the quadrant. -/
def bystandersOf (s : State) (p : Nat) (q : Quarantine) : List Nat :=
  (ctxsWhere s fun t => t.ran && (quadsOf t.report).any fun x => decide (x = q.quad)).filter fun c =>
    decide (partOfCtx c = p) && decide (c ∉ q.suspects)

/-- Step 1 of a quarantine: suspects that closed, and the other timetables of the quadrant, are suspended; the
words of the overrun pass are kept for the replay. -/
def quarantineStop (s : State) (p : Nat) (q : Quarantine) : State :=
  let by' := bystandersOf s p q
  let closers := q.suspects.filter fun c => (ttOf s c).ran
  let s := (closers ++ by').foldl (fun s c => suspendTt s c false) s
  { s with
    tts := mapT s.tts fun c t => if c ∈ q.suspects then { t with replay := t.entries } else t
    quarantines := put s.quarantines p { q with stopped := true, bystanders := by' } }

def quarantineStops (s : State) : State :=
  (s.quarantines.filter fun kv => kv.2.active && !kv.2.stopped).foldl (fun s kv => quarantineStop s kv.1 kv.2) s

/-! ## What a boundary carries over (R27, R75) -/

/-- A tile whose owner is unchanged: it restarts at offset 0 and keeps what R75 keeps. No word on its way persists
(R137). Log 81, DEDUCED. -/
def carriedTile (t : Tile) : Tile :=
  restartTile { t with
    faulted := []
    inq := []
    slots := mapT t.slots fun _ d => { d with rounds := [] } } 0

/-- A tile in a changeover: everything but the configuration sets is zero. What it has faulted in the tick stays
known (R96, R101). -/
def clearedTile (t : Tile) : Tile := { sets := t.sets, fault := t.fault, faulted := t.faulted }

/-- Every scan of a quadrant in a changeover is aborted (R183). Log 88, DEDUCED. Log 128, DEDUCED. -/
def abortScansIn (s : State) (qs : List Nat) : State :=
  (s.scans.filter fun x => decide (x.quad ∈ qs)).foldl abortScan s

/-- Changeover begins in a list of quadrants. Log 100, DEDUCED. -/
def beginChangeover (s : State) (qs : List Nat) : State :=
  if qs = [] then s
  else
    let s := abortScansIn s qs
    { s with
      tiles := mapT s.tiles fun k t => if quadOfTile k ∈ qs then clearedTile t else t
      sdg := mapT s.sdg fun _ d => { d with dumpable := d.dumpable.filter fun q => decide (q ∉ qs) }
      changing := qs }

/-- Quadrants whose owner differs between two cells. -/
def changedQuads (a : Nat → Option Nat) (b : Nat → Option Nat) : List Nat :=
  quads.filter fun q => decide (a q ≠ b q)

/-- The words on the out sides of radio ports, which have crossed to the radio block (R276, R278). -/
def radioPast (s : State) : Table (List (Nat × TWord)) :=
  (ctxsWhere s fun t => t.report.radio && t.exitQ.isNone).foldl (fun h c =>
    let e := (ttOf s c).report.exit
    put h (hubPastKey (hubKey e.hub e.port)) (look s.hub (hubKey e.hub e.port))) []

/-- Tiles and hub ports pass a tick boundary: no word in a hub port persists (R137). -/
def carryOver (s : State) : State :=
  { s with tiles := mapT s.tiles fun _ t => carriedTile t, hub := radioPast s }

/-! ## The plan (R28, R166, R179, R293, R431) -/

/-- Partition p owns a cell of the quadrant. -/
def ownsSome (s : State) (p q : Nat) : Bool :=
  (List.range (activeStarts s).length).any fun i => decide (cellOwner s.cellA i q = some p)

/-- TCK_SLICE_A and ACTIVE_N of a plan. Log 82, DEDUCED. -/
def writePlan (s : State) (starts : List Nat) : State :=
  let t := (List.range 16).foldl (fun t i => regsPut t (bTck + 0x100 + 4 * i) (starts.getD i 0)) s.regs
  { s with regs := regsPut t (bTck + 0x40) (regOf t (bTck + 0x40) / 2 ^ 8 * 2 ^ 8 + starts.length) }

/-- Sidings follow ownership: NONE where the partition owns no cell, STALE where it first owns one. Log 88,
DEDUCED. Log 121, DEDUCED. -/
def settleSidings (s : State) : Table SidingState :=
  (List.range 5120).filterMap fun k =>
    let old := look s.siding k
    let st := if ownsSome s (k / 160) (k % 160) then (if old = .none then .stale else old) else .none
    if st = .none then none else some (k, st)

/-- Fills, scans and sets of partitions that have lost the quadrant are gone. Log 88, DEDUCED. -/
def dropLost (s : State) : State :=
  let s := (s.scans.filter fun x => !ownsSome s x.part x.quad).foldl abortScan s
  { s with
    siding := settleSidings s
    fills := s.fills.filter fun f => ownsSome s f.part f.quad
    effects := s.effects.filter fun e => match e.effect with
      | .fill p q => ownsSome s p q
      | _ => true
    tiles := mapT s.tiles fun k t => { t with sets := t.sets.filter fun x => ownsSome s x.part (quadOfTile k) } }

/-- A shunting plan of partition p ends: its Sidings are READY, and the timetables they hold, which run no more, are
staged in them. Log 96, DEDUCED. -/
def shuntStops (s : State) (p : Nat) : State :=
  let q := (look s.sdg p).shuntQ
  { s with
    sdg := upd s.sdg p fun d => { d with shunt := 0, shuntOn := false, shuntQ := 0 }
    siding := mapT s.siding fun k v => if k / 160 = p ∧ q.getLsbD (k % 160) ∧ v = .shunting then .ready else v
    tts := mapT s.tts fun c t =>
      if partOfCtx c = p ∧ t.state = .running ∧ (quadsOf t.report).any fun x => q.getLsbD x && sideHolds s p x c &&
          !mainHolds s p x c then { t with state := .staged, ran := false } else t }

/-- A plan swap ends every running shunting plan (R179). -/
def endShunts (s : State) : State :=
  ((s.sdg.filter fun kv => kv.2.shuntOn).map (·.1)).foldl shuntStops s

/-- Reports of the timetables that a swap group brings in: those staged, and those of library entries. -/
def incomingOf (s : State) (p : Nat) (g : SwapGroup) : List Report :=
  ((g.adds.filter fun c => decide ((ttOf s c).state = .staged)).map fun c => (ttOf s c).report) ++
    (sideEntries s p g.qmask).map fun e => (look s.lib e).report

/-- The armed swaps of partition p whose incoming timetables no longer fit the plan of their boundary are withheld
(R28, R178). -/
def withholdUnfit (s : State) (p : Nat) : State :=
  withhold s p fun g =>
    ((incomingOf s p g).any fun r => !cellsFit (tickLen s) (planAt s g.tick) p r) ||
      (setBitsOf 160 g.qmask.toNat).any fun q => !ownsSome s p q

def isCellEffect (e : Effect) : Bool := isPlanSwap e || isReserve e

/-- Plan swaps and reservations due at the boundary just counted take effect. Log 68, DEDUCED. Log 69, DEDUCED.
Log 88, DEDUCED. -/
def takePlan (s : State) : State :=
  let n := tickCount s
  let swaps := dueBy s n isPlanSwap
  let reserves := dueBy s n isReserve
  if swaps = [] ∧ reserves = [] then s
  else
    let pl := planAt s n
    let s := if swaps = [] then s else orReg (endShunts (writePlan s pl.starts)) (bTck + 0x30) 0x10
    let shadow := (reserves.foldl (planEffect s.cellS) { starts := pl.starts, cells := s.cellS }).cells
    let s := dropLost { s with
      cellA := pl.cells
      cellS := shadow
      effects := s.effects.filter fun e => !(decide (e.due ≤ n) && isCellEffect e.effect) }
    (s.sdg.map (·.1)).foldl withholdUnfit s

/-! ## Swaps (R32, R174–R178) -/

/-- Swap groups of a boundary, those of radio partitions first. Log 113, DEDUCED. -/
def groupsDue (s : State) (tick slice : Nat) : List (Nat × SwapGroup) :=
  let l := s.sdg.flatMap fun kv =>
    (kv.2.groups.filter fun g => decide (g.tick = tick ∧ g.slice = slice)).map fun g => (kv.1, g)
  (l.filter fun x => (part s x.1).radio) ++ l.filter fun x => !(part s x.1).radio

/-- A group is carried to the next eligible boundary, and counts once as carried forward (R175). Log 118, DEDUCED. -/
def deferGroup (s : State) (p : Nat) (g : SwapGroup) : State :=
  let b := firstEligible s p g.qmask (addedReports s p g.qmask) (s.tick.off + 1)
  let s := { s with
      sdg := upd s.sdg p fun d =>
        { d with groups := d.groups.map fun h =>
            if h = g then { h with tick := b.1, slice := b.2.1, deferred := true } else h }
      effects := s.effects.map fun e =>
        if e.effect = .swapIn p g.tick g.slice then { e with effect := .swapIn p b.1 b.2.1, due := b.1 } else e }
  if g.deferred then s else noteDeferred s

/-- A job of a timetable that the group adds has been braked: staged members never swap in (R364). -/
def addsBraked (s : State) (g : SwapGroup) : Bool := g.adds.any fun c => decide ((ttOf s c).job.state = .braked)

/-- A swap group at its boundary. -/
def swapAt (s : State) (p : Nat) (g : SwapGroup) : State :=
  if addsBraked s g then withhold s p fun h => decide (h = g)
  else if groupReady s p g then takeSwap s p g s.tick.off
  else if g.strict then withhold s p fun h => decide (h = g)
  else deferGroup s p g

/-- Log 113, DEDUCED. -/
def takeSwaps (s : State) (slice : Nat) : State :=
  (groupsDue s (tickCount s) slice).foldl (fun s x => swapAt s x.1 x.2) s

end Sys2Proof.Machine
end

