-- ==== Sys2Proof/Machine/Radio.lean ====
section
/-!
DEFINITION. Fronthaul (R273–R277, R285, R286) and carriers (R274, R283, R288).
-/

namespace Sys2Proof.Machine

def carrierOf (s : State) (c : Nat) : Carrier := look s.carriers c

/-- Count in a carrier's counters: 0 RX_OK, 8 RX_LATE, 0x10 RX_EARLY, 0x18 RX_BAD, 0x20 TX_SENT, 0x28 TX_MISS.
Log 179, DEDUCED. -/
def radCount (s : State) (c o n : Nat) : State := bump s (bRad + 0x10000 + 0x40 * c + o) n
def radBit (s : State) (m : Nat) : State := orReg s (bRad + 0xC) m

/-- Network die of a carrier. -/
def carrierDie (x : Carrier) : Nat := x.port / 2

/-- The radio timetables of a carrier's partition on its hub die (R278): downlink, those whose exit port is a radio
port and feeds no queue; uplink, those whose entry port no queue feeds. Log 173, DESIGN CHOICE. -/
def radioTts (s : State) (x : Carrier) (dl : Bool) : List Nat :=
  (ctxsWhere s fun t => t.report.radio &&
    (if dl then t.exitQ.isNone && decide (t.report.exit.hub = carrierDie x)
     else t.entryQ.isNone && decide (t.report.entry.hub = carrierDie x))).filter fun c => decide (partOfCtx c = x.part)

/-- The timetable that serves a carrier. Log 173, DESIGN CHOICE. -/
def radioTt (s : State) (c : Nat) (dl : Bool) : Option Nat :=
  let l := radioTts s (carrierOf s c) dl
  l[Config.carrierPlace c (ofBool dl) % l.length]?

/-- Offset of the entry that a symbol is (R149). Log 173, DESIGN CHOICE. -/
def symbolOffset (t : Timetable) (c symbol : Nat) : Nat := t.report.entry.e0 + Config.symbolEntry c symbol * t.report.entry.ii

/-- A carrier is on the air: it is in service, its partition is OPEN and holds an admitted timetable for it, and the
part is not at beacon (R285, R286). -/
def onAir (s : State) (c : Nat) (dl : Bool) : Bool :=
  let x := carrierOf s c
  x.valid && decide (s.level ≠ .beacon) && decide ((part s x.part).state = .opened) && (radioTt s c dl).isSome

/-- Offset in the current tick of a PTP time, where it lies in it. -/
def airOff (s : State) (t : Int) : Option Nat :=
  let d := t - s.tick.boundaryNs
  if 0 ≤ d ∧ nsToAc d.toNat < tickLen s then some (nsToAc d.toNat) else none

/-- The radio-class ring of a subport: the lowest one bound to it. -/
def radioRingOf (s : State) (k : Nat) : Option Nat :=
  (s.queues.find? fun kv => decide (kv.2.kind = 2) && ringBound s kv.1 && decide (ringSubKey s kv.1 = k) &&
    decide (ringClass s kv.1 = 1)).map (·.1)

/-! ## Messages (R273) -/

/-- Ethernet and VLAN header of a carrier's messages. Log 174, PRESUMED. -/
def fhHeader (x : Carrier) : List Byte :=
  beBytes 6 x.ruMac.toNat ++ beBytes 6 (Config.portMac x.port x.sub).toNat ++
    (if x.tagged then beBytes 2 0x8100 ++ beBytes 2 (x.pcp * 2 ^ 13 + x.vid) else []) ++ beBytes 2 0xAEFE

/-- An eCPRI message of revision 1 without concatenation: type 0 or 2, the stream's eAxC ID and a sequence
number. Log 174, PRESUMED. -/
def ecpri (type eaxc seq : Nat) (body : List Byte) : List Byte :=
  [0x10] ++ leBytes 1 type ++ beBytes 2 (4 + body.length) ++ beBytes 2 eaxc ++ beBytes 2 seq ++ body

/-- eAxC ID of a carrier's stream: streams number on in the RU port field, which EAXC.WIDTHS gives a width. Log 174,
PRESUMED. -/
def eaxcOf (x : Carrier) (stream : Nat) : Nat :=
  let n := 2 ^ bits x.eaxcWidths.toNat 15 12
  x.eaxcBase.toNat / n * n + (x.eaxcBase.toNat + stream) % n

/-- udCompHdr of an iqWidth: block floating point, or no compression at width 16. Log 174, PRESUMED. -/
def udComp (w : Nat) : Nat := if w = 16 then 0 else 16 * w + 1

/-- A C-plane message's content: application and section header, and on category B section extension 1 with the
weights (R273). Log 174, PRESUMED. -/
def cplaneBody (x : Carrier) (c symbol : Nat) : List Byte :=
  let h := Config.sectionHeader c symbol 0 0
  let w := Config.beamWeights c symbol
  let n := (w.length + 5) / 4
  [0x90] ++ slice h 0 3 ++ leBytes 1 1 ++ leBytes 1 ([0, 1, 3].getD (Config.sectionType c symbol % 3) 1) ++
    leBytes 1 (udComp x.iqwDl) ++ [0] ++ slice h 3 6 ++
    beBytes 2 (2 ^ 15 * ofBool x.catB + beAt h 9 2 % 2 ^ 15) ++
    (if x.catB then [1] ++ leBytes 1 n ++ slice w 0 (4 * n - 2) else [])

/-- What a U-plane message holds before its PRBs: application and section header, with udCompHdr in every section or in
none (R273). Log 174, PRESUMED. -/
def uplaneHeader (x : Carrier) (c symbol stream k : Nat) : List Byte :=
  [0x90] ++ slice (Config.sectionHeader c symbol stream (k + 1)) 0 7 ++
    (if x.dynHdr then leBytes 1 (udComp x.iqwDl) ++ [0] else [])

/-- A message joins the carrier's radio ring. The sequence number is not stated: a free value. Log 174, PRESUMED. -/
def fhSend (s : State) (c q type stream : Nat) (body : List Byte) : State :=
  let x := carrierOf s c
  let b := fhHeader x ++ ecpri type (eaxcOf x stream) (Config.freeBits s.fresh 16).toNat body
  enqueue { radCount s c 0x20 1 with fresh := s.fresh + 1 } q { ring := q, bytes := framed b }

/-! ## Compression (R275) -/

/-- Real and imaginary parts of n CFX16 samples, five to a word. -/
def samplesOf (ws : List TWord) (n : Nat) : List (Int × Int) :=
  (List.range n).map fun i =>
    let v := bits ((ws.getD (i / 5) {}).payload.toNat) (32 * (i % 5) + 31) (32 * (i % 5))
    (signedOf 16 v, signedOf 16 (v / 2 ^ 16))

/-- A mantissa of width w at exponent e, before saturation. -/
def mantissa (w e : Nat) (x : Int) : Int := x / (2 ^ (16 - w + e) : Nat)

def mantissaFits (w : Nat) (m : Int) : Bool := decide (-(2 ^ (w - 1) : Nat) ≤ m) && decide (m ≤ (2 ^ (w - 1) : Nat) - 1)

/-- The smallest exponent under which every part fits, or 15. -/
def blockExp (w : Nat) (parts : List Int) : Nat :=
  ((List.range 16).find? fun e => parts.all fun x => mantissaFits w (mantissa w e x)).getD 15

def satMantissa (w : Nat) (m : Int) : Int := max (-(2 ^ (w - 1) : Nat)) (min ((2 ^ (w - 1) : Nat) - 1) m)

/-- Values of w bits, most significant first, packed into bytes. -/
def packWidth (w : Nat) (l : List Nat) : List Byte :=
  beBytes (w * l.length / 8) (l.foldl (fun a v => a * 2 ^ w + v % 2 ^ w) 0)

/-- A PRB as it is sent: exponent and mantissas, or plain samples at width 16. -/
def prbBytes (w : Nat) (l : List (Int × Int)) : List Byte :=
  let parts := l.flatMap fun x => [x.1, x.2]
  if w = 16 then packWidth 16 (parts.map (wrapInt 16))
  else
    let e := blockExp w parts
    leBytes 1 e ++ packWidth w (parts.map fun x => wrapInt w (satMantissa w (mantissa w e x)))

/-! ## Downlink (R276, R285) -/

/-- Words of one stream of a symbol: 12 samples per PRB, five to a word. Log 175, DEDUCED. -/
def streamWords (x : Carrier) : Nat := (12 * x.nPrb + 4) / 5

/-- Out side of the radio port of a timetable, in this tick and as the tick before left it: the word at an offset. -/
def radioWord (s : State) (t : Timetable) (past : Bool) (off : Nat) : Option TWord :=
  let key := hubKey t.report.exit.hub t.report.exit.port
  hubWordAt s (if past then hubPastKey key else key) off

/-- The words of a downlink symbol, at the offsets the report gives, where all of them stand complete. A send less than
512 ac after the last of them is of the tick before (R276). -/
def dlStanding (s : State) (x : Carrier) (t : Timetable) (c symbol off : Nat) : Option (List TWord) :=
  let at' := t.report.exit.offsets.map (symbolOffset t c symbol + ·)
  let ws := at'.filterMap (radioWord s t (decide (off < at'.foldl max 0 + 512)))
  if ws.length = at'.length ∧ x.dlLayers * streamWords x ≤ ws.length then some ws else none

/-- Words of a symbol taken into the radio block with its C-plane message. Log 175, DEDUCED. -/
def takeSymbol (s : State) (c symbol : Nat) (ws : List TWord) : State :=
  { s with carriers := upd s.carriers c fun y => { y with dlWords := y.dlWords.filter (·.1 ≠ symbol) ++ [(symbol, ws)] } }

/-- A downlink symbol that is not sent (R276, R285). -/
def txMiss (s : State) (c : Nat) : State := radBit (radCount s c 0x28 1) 0x2

/-- The ring by which a carrier sends now. Log 175, DEDUCED. -/
def fhRing (s : State) (x : Carrier) : Option Nat :=
  if linkUp s x.port x.sub then radioRingOf s (subKey x.port x.sub) else none

/-- Log 175, DEDUCED. -/
def cplaneSend (s : State) (c symbol off : Nat) : State :=
  let x := carrierOf s c
  match fhRing s x, (radioTt s c true).bind fun k => dlStanding s x (ttOf s k) c symbol off with
  | some q, some ws => fhSend (takeSymbol s c symbol ws) c q 2 0 (cplaneBody x c symbol)
  | _, _ => txMiss s c

/-- CPLANE_SEND: at air(s) − TXADV − CPLEAD. -/
def execCplaneSend (carrier : Nat) (symbol : AirSymbol) (s : State) : Out1 :=
  let x := carrierOf s carrier
  done s (match airOff s ((symbol.airNs : Int) - x.txAdv - x.cpLead) with
    | some off =>
      let s := { s with tick := { s.tick with off := off } }
      if onAir s carrier true then cplaneSend s carrier symbol.n off else s
    | none => s)

/-- PRBs that one message holds beside n header bytes. -/
def prbsPerMessage (s : State) (x : Carrier) (n : Nat) : Nat :=
  max 1 ((maxLen s x.port - 4 - n) / (if x.iqwDl = 16 then 48 else 3 * x.iqwDl + 1))

/-- The messages of one stream: PRBs in order, as many to each as fit. Log 179, DEDUCED. -/
def sendStream (s : State) (c q symbol stream : Nat) (prbs : List (List Byte)) : State :=
  let x := carrierOf s c
  let n := prbsPerMessage s x ((fhHeader x).length + 8 + (uplaneHeader x c symbol stream 0).length)
  (List.range ((prbs.length + n - 1) / n)).foldl (fun s k =>
    fhSend s c q 0 stream (uplaneHeader x c symbol stream k ++ ((prbs.drop (n * k)).take n).flatten)) s

/-- PRBs of one stream of a symbol, compressed. -/
def streamPrbs (x : Carrier) (ws : List TWord) : List (List Byte) :=
  let l := samplesOf ws (12 * x.nPrb)
  (List.range x.nPrb).map fun k => prbBytes x.iqwDl ((l.drop (12 * k)).take 12)

def uplaneSend (s : State) (c symbol : Nat) (ws : List TWord) : State :=
  let x := carrierOf s c
  let s := { s with carriers := upd s.carriers c fun y => { y with dlWords := y.dlWords.filter (·.1 ≠ symbol) } }
  match fhRing s x with
  | none => txMiss s c
  | some q =>
    let n := streamWords x
    (List.range x.dlLayers).foldl (fun s k =>
      sendStream s c q symbol k (streamPrbs x ((ws.drop (n * k)).take n))) s

/-- UPLANE_SEND: at air(s) − TXADV, for a symbol whose C-plane message went. -/
def execUplaneSend (carrier : Nat) (symbol : AirSymbol) (s : State) : Out1 :=
  let x := carrierOf s carrier
  done s (match airOff s ((symbol.airNs : Int) - x.txAdv), x.dlWords.find? fun w => decide (w.1 = symbol.n) with
    | some off, some w =>
      let s := { s with tick := { s.tick with off := off } }
      if onAir s carrier true then uplaneSend s carrier symbol.n w.2 else s
    | _, _ => s)

/-! ## Uplink (R275, R277) -/

/-- A received mantissa in a lane part. Log 176, DEDUCED. -/
def placedPart (w : Nat) (m : Int) : Nat := wrapInt 16 (m * (2 ^ (16 - w) : Nat))

/-- The three BFP words of a PRB: four samples each, the exponent in lane 4. -/
def bfpWords (w : Nat) (iq : List (Int × Int)) (e : Nat) : List TWord :=
  (List.range 3).map fun k =>
    let l := (iq.drop (4 * k)).take 4
    let v := l.zipIdx.foldl (fun a x => a + (placedPart w x.1.1 + 2 ^ 16 * placedPart w x.1.2) * 2 ^ (32 * x.2)) 0
    { payload := BitVec.ofNat 160 (v + (if w = 16 then 0 else e % 256) * 2 ^ 128) }

/-- The data is what R273 supports for the carrier. Log 176, DEDUCED. -/
def uplaneOk (x : Carrier) (port sub prb : Nat) (iq : List (Int × Int)) : Bool :=
  decide (x.port = port ∧ x.sub = sub) && decide (prb < x.nPrb * x.ulLayers) && decide (iq.length = 12) &&
    iq.all fun v => mantissaFits x.iqwUl v.1 && mantissaFits x.iqwUl v.2

/-- The PRB has been received for the symbol of this air time. -/
def hasPrb (x : Carrier) (symbol airNs prb : Nat) : Bool :=
  x.prbs.any fun p => decide (p.symbol = symbol ∧ p.airNs = airNs ∧ p.prb = prb)

/-- A PRB is stored; what is left of the symbol's earlier air times goes. -/
def storePrb (x : Carrier) (p : RadioPrb) : Carrier :=
  { x with prbs := (x.prbs.filter fun q => decide (¬(q.symbol = p.symbol ∧ q.airNs ≠ p.airNs))) ++ [p] }

/-- Log 179, DEDUCED. -/
def uplaneReceive (s : State) (port sub c symbol prb : Nat) (iq : List (Int × Int)) (exp timeNs airNs : Nat)
    (bad : Bool) : State :=
  let x := carrierOf s c
  if bad ∨ uplaneOk x port sub prb iq = false then radBit (radCount s c 0x18 1) 0x4
  else if timeNs < airNs + x.rxMin ∨ hasPrb x symbol airNs prb then radCount s c 0x10 1
  else if airNs + x.rxMax < timeNs then s
  else
    let p : RadioPrb := { symbol := symbol, airNs := airNs, prb := prb, words := bfpWords x.iqwUl iq exp }
    { radCount s c 0 1 with carriers := upd s.carriers c (storePrb · p) }

/-- UPLANE_RECEIVE: one PRB of a symbol, PRBs of further layers numbered on. Data after the window is not taken. -/
def execUplaneReceive (port sub : Nat) (carrier symbol prb : Nat) (iq : List (Int × Int)) (exp : Nat)
    (timeNs airNs : Nat) (bad : Bool) (s : State) : Out1 :=
  done s (if onAir s carrier false ∧ linkUp s port sub then
      uplaneReceive s port sub carrier symbol prb iq exp timeNs airNs bad
    else s)

/-- The words of one PRB of a symbol: three words of zeros where it has not arrived. -/
def prbWords (x : Carrier) (symbol airNs prb : Nat) : List TWord :=
  match x.prbs.find? fun p => decide (p.symbol = symbol ∧ p.airNs = airNs ∧ p.prb = prb) with
  | some p => p.words
  | none => List.replicate 3 default

/-- The words of a delivered symbol leave the radio block, which still knows which PRBs it has had. -/
def prbsDelivered (x : Carrier) (symbol airNs : Nat) : Carrier :=
  { x with prbs := x.prbs.map fun p => if p.symbol = symbol ∧ p.airNs = airNs then { p with words := [] } else p }

/-- The words of a symbol on the entry port of a timetable, from an offset on. Log 176, DEDUCED. -/
def uplinkDelivery (s : State) (c symbol airNs off : Nat) (t : Timetable) : State :=
  let x := carrierOf s c
  let n := x.nPrb * x.ulLayers
  let late := ((List.range n).filter fun k => !hasPrb x symbol airNs k).length
  let ws := (List.range n).flatMap (prbWords x symbol airNs)
  let s := if late = 0 then s else radBit (radCount s c 8 late) 0x1
  let s := { s with carriers := upd s.carriers c fun y => prbsDelivered y symbol airNs }
  ws.zipIdx.foldl (fun s w => hubPlace s x.part t.report.entry.hub t.report.entry.port (off + w.2) w.1) s

/-- An offset lies at least 64 ac after the receive window of a symbol (R277). -/
def afterWindow (s : State) (x : Carrier) (airNs off : Nat) : Bool :=
  let d := (airNs : Int) + x.rxMax - s.tick.boundaryNs
  decide (d < 0) || decide (nsToAc d.toNat + 64 ≤ off)

/-- UPLINK_DELIVERY: at the offset of the report; late or missing data changes only the sample values. -/
def execUplinkDelivery (carrier : Nat) (symbol : AirSymbol) (s : State) : Out1 :=
  done s (match radioTt s carrier false with
    | some k =>
      let off := symbolOffset (ttOf s k) carrier symbol.n
      if onAir s carrier false ∧ afterWindow s (carrierOf s carrier) symbol.airNs off then
        uplinkDelivery { s with tick := { s.tick with off := off } } carrier symbol.n symbol.airNs off (ttOf s k)
      else s
    | none => s)

/-! ## Delay measurement (R273) -/

/-- Offset of the eCPRI header of a frame. -/
def ecpriOff (b : List Byte) : Nat := 14 + 4 * (vlanTags b).length

/-- A one-way delay measurement request that the responder answers: revision 1, C = 0, type 5, a request with or
without follow-up. Log 177, PRESUMED. -/
def delayRequest (b : List Byte) : Bool :=
  let o := ecpriOff b
  decide (beAt b (o - 2) 2 = 0xAEFE) && decide (beAt b o 1 = 0x10) && decide (beAt b (o + 1) 1 = 5) &&
    decide (beAt b (o + 5) 1 ≤ 1) && decide (o + 24 ≤ b.length)

/-- The response: addresses exchanged, the request's tags and measurement ID, action 2, the time of arrival, and
a compensation value that the spec does not state. Log 177, PRESUMED. -/
def delayResponse (s : State) (b : List Byte) (off : Nat) : List Byte :=
  let o := ecpriOff b
  let ns := s.tick.boundaryNs + acToNs off
  slice b 6 6 ++ slice b 0 6 ++ slice b 12 (o - 12) ++ [0x10, 5] ++ beBytes 2 20 ++ slice b (o + 4) 1 ++ [2] ++
    beBytes 6 (ns / 1000000000) ++ beBytes 4 (ns % 1000000000) ++ beBytes 8 (Config.freeBits s.fresh 64).toNat

/-- A message that R273 does not list: counted for the subport's lowest carrier. -/
def ecpriBad (s : State) (port sub : Nat) : State :=
  let s := match s.carriers.find? fun kv => kv.2.valid && decide (kv.2.port = port ∧ kv.2.sub = sub) with
    | some kv => radCount s kv.1 0x18 1
    | none => s
  radBit s 0x4

/-- The follow-up of a request: a message of type 5 that asks for no answer. Log 177, PRESUMED. -/
def delayFollowUp (b : List Byte) : Bool :=
  let o := ecpriOff b
  decide (beAt b (o - 2) 2 = 0xAEFE) && decide (beAt b o 1 = 0x10) && decide (beAt b (o + 1) 1 = 5) &&
    decide (beAt b (o + 5) 1 = 5)

def delayMeasurement (s : State) (port sub : Nat) (msg : List Byte) (off : Nat) : State :=
  if delayFollowUp msg then s
  else if delayRequest msg = false then ecpriBad s port sub
  else match radioRingOf s (subKey port sub) with
    | some q => enqueue { s with fresh := s.fresh + 1 } q { ring := q, bytes := framed (delayResponse s msg off) }
    | none => s

/-- ECPRI_DELAY_MEASUREMENT: `msg` is the frame without its FCS. -/
def execEcpriDelayMeasurement (port sub : Nat) (msg : List Byte) (off : Nat) (s : State) : Out1 :=
  let s := { s with tick := { s.tick with off := off } }
  done s (if linkUp s port sub ∧ s.level ≠ .beacon then delayMeasurement s port sub msg off else s)

/-! ## Carriers (R274, R283, R288) -/

/-- The carrier that 64 bytes in the layout of R288 describe. Log 178, DEDUCED. -/
def carrierBlock (b : List Byte) : Carrier :=
  let w := fun o => leAt b o 4
  { valid := true, mu := bits (w 0) 2 1, units := bits (w 0) 6 3, catB := bitOf (w 0) 7, port := bits (w 0) 19 16,
    sub := bits (w 0) 22 20, part := bits (w 0) 28 24, nPrb := bits (w 4) 8 0, dlLayers := bits (w 4) 20 16,
    ulLayers := bits (w 4) 28 24, iqwDl := bits (w 8) 4 0, iqwUl := bits (w 8) 12 8, dynHdr := bitOf (w 8) 16,
    eaxcWidths := BitVec.ofNat 16 (w 0xC), eaxcBase := BitVec.ofNat 16 (w 0xC / 2 ^ 16), txAdv := bits (w 0x10) 23 0,
    cpLead := bits (w 0x14) 23 0, rxMin := bits (w 0x18) 23 0, rxMax := bits (w 0x1C) 23 0,
    ruMac := BitVec.ofNat 48 (leAt b 0x20 6), vid := bits (w 0x28) 11 0, pcp := bits (w 0x28) 14 12,
    tagged := bitOf (w 0x28) 15 }

def widthOk (w : Nat) : Bool := decide (w ∈ [8, 9, 12, 14, 16])

def eaxcSum (w : Nat) : Nat := bits w 3 0 + bits w 7 4 + bits w 11 8 + bits w 15 12

/-- The fields hold values that R288 gives them. -/
def carrierFieldsOk (x : Carrier) : Bool :=
  decide (x.units ∈ [1, 2, 4, 8]) && within x.dlLayers 1 16 && within x.ulLayers 1 16 && widthOk x.iqwDl &&
    widthOk x.iqwUl && decide (eaxcSum x.eaxcWidths.toNat = 16)

/-- Carrier units of a network die that carriers other than c use, those still to come among them. -/
def unitsOn (s : State) (die c : Nat) : Nat :=
  let now := s.carriers.filter fun kv => kv.2.valid && decide (carrierDie kv.2 = die ∧ kv.1 ≠ c)
  let due := s.effects.filterMap fun e =>
    match e.effect with
    | .carrier k x => if carrierDie x = die ∧ k ≠ c then some (k, x) else none
    | _ => none
  (now.filter fun kv => !due.any fun d => decide (d.1 = kv.1)).foldl (fun a kv => a + kv.2.units) 0 +
    due.foldl (fun a kv => a + kv.2.units) 0

/-- A radio timetable of the partition has its ports on another hub die (R278). -/
def offHub (s : State) (p die : Nat) : Bool :=
  (ctxsWhere s fun t => t.report.radio && (decide (t.report.entry.hub ≠ die) || decide (t.report.exit.hub ≠ die))).any
    fun c => decide (partOfCtx c = p)

/-- Carrier units of the shapes that R283 lists, none for any other: by numerology, PRBs and layers, four for 4T4R. Log
178, DEDUCED. -/
def listedUnits (x : Carrier) : Option Nat :=
  if x.mu = 1 ∧ x.nPrb = 273 ∧ x.dlLayers = 16 ∧ x.ulLayers = 8 then some 8
  else if 4 < x.dlLayers ∨ 4 < x.ulLayers then none
  else if (x.mu = 0 ∧ x.nPrb = 270) ∨ (x.mu = 1 ∧ x.nPrb = 273) ∨ (x.mu = 2 ∧ x.nPrb = 135) then some 1
  else if x.mu = 3 ∧ x.nPrb = 132 then some 2
  else if x.mu = 3 ∧ x.nPrb = 264 then some 4
  else none

/-- FEC load that the carriers of a network die would bring with x as carrier c (R282). Log 178, DEDUCED. -/
def carrierLoads (s : State) (c : Nat) (x : Carrier) (encode : Bool) : Nat :=
  let load := fun y : Carrier => Config.carrierLoad encode y.mu y.nPrb y.dlLayers y.ulLayers
  ((s.carriers.filter fun kv => kv.2.valid && decide (carrierDie kv.2 = carrierDie x ∧ kv.1 ≠ c)).map
    fun kv => load kv.2).sum + load x

/-- The refusal code of a configuration, or 0: 1 period, 2 units, 3 FEC ceiling, 4 port. Log 178, DEDUCED. -/
def carrierCode (s : State) (c : Nat) (x : Carrier) : Nat :=
  if x.mu ≠ periodCode s then 1
  else if (listedUnits x).any (· ≠ x.units) ∨ 48 < unitsOn s (carrierDie x) c + x.units then 2
  else if decCeiling s < carrierLoads s c x false ∨ 2 * decCeiling s < carrierLoads s c x true then 3
  else if offHub s x.part (carrierDie x) then 4
  else 0

/-- Log 178, DEDUCED. -/
def carrierCfgBody (h : CmdHdr) (c addr boundary : Nat) (s : State) (i : Nat) : Reply :=
  let r := hostRead s (.function 0) 0 addr 64
  match r.2 with
  | some (b, false) =>
    let s := r.1
    let x := carrierBlock b
    if carrierFieldsOk x = false then refuse s stBadParam
    else if (part s x.part).state ≠ .opened ∨ (part s x.part).radio = false then refuse s stState
    else if late4096 s boundary then refuseAt s stLate boundary 0
    else if carrierCode s c x ≠ 0 then refuse s (0x500 + carrierCode s c x)
    else
      let due := if boundary = 0 then tickAfter4096 s else boundary
      acceptAt (addEffect s h i due (.carrier c x)) due 0
  | _ => refuse r.1 stAddress

/-- CARRIER_CFG. -/
def execCarrierCfg (h : CmdHdr) (carrier addr boundary : Nat) (s : State) : Out1 :=
  done s (takeCommand s h { opcode := 0x0801, agent := 1, pends := true }
    (decide (carrier < 384 ∧ addr < 2 ^ 64 ∧ boundary < 2 ^ 64)) (hostOk s 0 addr 64) (carrierCfgBody h carrier addr boundary))

def carrierRemoveBody (h : CmdHdr) (c boundary : Nat) (s : State) (i : Nat) : Reply :=
  if (carrierOf s c).valid = false then refuse s stState
  else if late4096 s boundary then refuseAt s stLate boundary 0
  else
    let due := if boundary = 0 then tickAfter4096 s else boundary
    acceptAt (addEffect s h i due (.carrierRemove c)) due 0

/-- CARRIER_REMOVE. -/
def execCarrierRemove (h : CmdHdr) (carrier boundary : Nat) (s : State) : Out1 :=
  done s (takeCommand s h { opcode := 0x0802, agent := 1, pends := true }
    (decide (carrier < 384 ∧ boundary < 2 ^ 64)) true (carrierRemoveBody h carrier boundary))

/-- A carrier changes at its boundary: what it has received and taken stays with a configuration that keeps it. -/
def takeCarrier (s : State) (c : Nat) (x : Carrier) : State :=
  { s with carriers := upd s.carriers c fun y => { x with prbs := y.prbs, dlWords := y.dlWords } }

def takeCarrierRemove (s : State) (c : Nat) : State := { s with carriers := erase s.carriers c }

end Sys2Proof.Machine
end

