-- ==== Sys2Proof/Machine/Boundary.lean ====
section
/-!
DEFINITION. The tick boundary with its events in order (R32), the boundaries of slices (R24, R27, R177, R179), and
the end of a step (R23, R435).
-/

namespace Sys2Proof.Machine

/-! ## Before the count (R368, R385, R435) -/

/-- Passes of jobs that ran are counted (R363). Log 80, DEDUCED. -/
def countPasses (s : State) : Table Timetable :=
  mapT s.tts fun _ t =>
    if (t.ran ∨ t.job.state = .braked) ∧ 1 < t.report.chips then { t with job := { t.job with pass := t.job.pass + 1 } } else t

/-- The tick has ended after ns: the active core's heartbeat, time in Holdover, time of resets, passes of jobs. -/
def tickEnded (s : State) (ns : Nat) : State :=
  { s with
    tick := { s.tick with off := 0, holdNs := if s.tick.state = .holdover then s.tick.holdNs + ns else s.tick.holdNs }
    life := { s.life with smBeat := if coresRun s then s.tick.count + 1 else s.life.smBeat }
    parts := mapT s.parts fun _ x => if x.state = .resetting then { x with resetNs := x.resetNs + ns } else x
    tts := countPasses s }

/-- The new tick is counted; it opens at a PTP time. -/
def countTick (s : State) (ns : Nat) : State :=
  { s with tick := { s.tick with
      count := s.tick.count + 1, slice := 0, boundaryNs := ns, openNs := periodNs (periodCode s) } }

/-! ## Resets at the boundary (R383, R385) -/

/-- Contexts whose reset waits for its first boundary, and whose partition does not pass its own barrier. Log
82, DEDUCED. -/
def ctxsAtB1 (s : State) : List Nat :=
  (s.ctxs.filter fun kv => decide (kv.2.state = .resetting) && decide (kv.2.stage = 1) &&
    decide ((part s (partOfCtx kv.1)).stage ≠ 1)).map (·.1)

/-- Contexts past their barrier since the boundary before: their resets complete no later than this one (R383). -/
def ctxsCleared (s : State) : List Nat := (s.ctxs.map (·.1)).filter (ctxClearing s)

def partsAtStage (s : State) (n : Nat) : List Nat :=
  (s.parts.filter fun kv => decide (kv.2.state = .resetting) && decide (kv.2.stage = n)).map (·.1)

/-- A partition past its collection: its clear at the first boundary, its retrain at the next. -/
def partAfterCollect (s : State) (p : Nat) : State :=
  if (part s p).stageTick = tickCount s then partClear s p
  else if (part s p).stageTick < tickCount s then partRetrain s p
  else s

/-- What the resets do at this boundary, for the units that stood before it. Log 82, DEDUCED. -/
def resetsAt (s : State) (cs p1 p3 : List Nat) : State :=
  let s := cs.foldl ctxResetB1 s
  let s := p1.foldl partBarrier s
  p3.foldl partAfterCollect s

/-! ## Jobs of several chips (R361–R363, R376) -/

/-- The stop pass of a braked job has come. Log 83, DEDUCED. -/
def stopsNow (t : Timetable) : Bool :=
  decide (t.job.state = .braked) && decide (t.state ≠ .none) && !t.job.stopped &&
    match t.job.stopPass with
    | some p => decide (p ≤ t.job.pass)
    | none => false

/-- A braked job stops: its exit barrier, and its timetable is faulted, or withdrawn where that waited for it. A
swap that would have brought it in is taken back. Log 80, DEDUCED. Log 83, DEDUCED. Log 227, DEDUCED. -/
def brakeStop (s : State) (c : Nat) : State :=
  let t := ttOf s c
  let s := exitBarrier s c t (queuedWords s t.entryQ) 3
  let s := if t.state = .staged then s else markDumpable s c
  let s := withhold s (partOfCtx c) fun g => decide (t.state = .staged ∧ c ∈ g.adds)
  if t.state = .withdrawing then endTimetable s c
  else
    { s with tts := upd s.tts c fun t =>
        { t with state := .faulted, ran := false, heldRecs := [], heldExits := [], job := { t.job with stopped := true } } }

/-- Log 84, DEDUCED. -/
def brakeStops (s : State) : State := (ctxsWhere s stopsNow).foldl brakeStop s

/-- Passes whose exits and records software may see at the start of this pass. Log 227, DEDUCED. -/
def mayPublish (t : Timetable) (pass : Nat) : Bool := decide (t.job.state ≠ .braked) && decide (pass + 2 ≤ t.job.pass)

/-- Log 227, DEDUCED. -/
def releaseHeld (s : State) : State :=
  (ctxsWhere s fun t => decide (1 < t.report.chips)).foldl (fun s c =>
    let ok := mayPublish (ttOf s c)
    releaseExits (releaseRecs s c ok) c ok) s

/-- A link that carries a running or waiting job's words is out of alignment. Log 187, DEDUCED. -/
def skewed (s : State) (t : Timetable) : Bool :=
  (decide (t.job.state = .running) || decide (t.job.state = .waiting)) &&
    (jobPorts t).any fun p => decide (4 < (look s.trunk p).skew.natAbs)

def skewCheck (s : State) : State :=
  (ctxsWhere s (skewed s)).foldl (fun s c => raiseBrake (orReg s (bTrk + 0xC) 0x8) c 3) s

/-- READY and GO of waiting jobs. -/
def jobMessages (s : State) : State :=
  (ctxsWhere s fun t => decide (t.job.state = .waiting)).foldl (fun s c => sendGo (sendReady s c) c) s

/-! ## Effects of commands (R156, R159, R309, R310, R388) -/

/-- A withdrawal takes effect, unless a braked job has still to reach its stop pass. Log 84, DEDUCED. -/
def waitsForStop (t : Timetable) : Bool := decide (t.job.state = .braked) && !t.job.stopped

/-- A resumed timetable begins its first pass. -/
def resumeTt (s : State) (c : Nat) : State :=
  if (ttOf s c).state = .suspended then
    notice { s with tts := upd s.tts c fun t => { t with state := .running, cut := false } } (funcOfCtx s c)
      { kind := 3, part := partOfCtx c, ctx := c, detail := leBytes 8 (tickCount s) }
  else s

/-- Running timetables of a function, newest first. Log 135, DEDUCED. -/
def newestFirst (s : State) (f : Nat) : List Nat :=
  sortBy (fun a b => decide ((ttOf s b).seq ≤ (ttOf s a).seq))
    ((ctxsWhere s fun t => decide (t.state = .running)).filter fun c => decide (funcOfCtx s c = f))

/-- A forced cut suspends until the use is within the quota. Log 135, DEDUCED. -/
def cutDown (s : State) (f : Nat) : List Nat → State
  | [] => s
  | c :: l =>
    if useTick s f [] ≤ (vfOf s f).qTick.toNat then s
    else
      let n : Notice := { kind := 2, part := partOfCtx c, ctx := c, detail := leBytes 8 (tickCount s) }
      cutDown (notice (suspendTt s c true) f n) f l

/-- Log 135, DEDUCED. -/
def forcedCut (s : State) (f : Nat) : State :=
  let s := cutDown s f (newestFirst s f)
  { s with vfs := upd s.vfs f fun v => { v with cutPending := false } }

/-- Context c is held by a quarantine. -/
def quarantined (s : State) (c : Nat) : Bool :=
  let q := look s.quarantines (partOfCtx c)
  q.active && (decide (c ∈ q.suspects) || decide (c ∈ q.bystanders))

/-- Tenant timetables that a drop of level suspended, in admission order. Log 86, DEDUCED. -/
def levelSuspended (s : State) : List Nat :=
  sortBy (fun a b => decide ((ttOf s a).seq ≤ (ttOf s b).seq))
    ((ctxsWhere s fun t => decide (t.state = .suspended) && !t.cut).filter fun c =>
      !(part s (partOfCtx c)).radio && decide ((part s (partOfCtx c)).state = .opened) &&
        decide ((ctxOf s c).state = .active) && !quarantined s c)

/-- The part returns to full (R388, R389). A part that has dropped to beacon since leaves it only by a device
reset, so the command then ends with STATE. Log 86, DEDUCED. Log 87, DEDUCED. -/
def levelFull (s : State) (e : Pending) : State :=
  let status := if s.level = .beacon then stState else stOk
  let s := if s.level = .radioOnly then
      let s := writeLevel s .full
      (levelSuspended s).foldl (fun s c => if resumeFits s c then resumeTt s c else s) s
    else s
  writeStatus s e.src
    { opcode := e.opcode.toNat, token := e.token, index := e.index, agent := 4, status,
      postmark := (vfOf s (srcFunc s e.src)).postmark.toNat }

/-- A shunting plan starts. -/
def shuntStarts (s : State) (p : Nat) (mask : BitVec 16) (qmask : BitVec 160) : State :=
  { s with
    sdg := upd s.sdg p fun d => { d with shunt := mask, shuntOn := true, shuntQ := qmask }
    siding := mapT s.siding fun k v =>
      if k / 160 = p ∧ qmask.getLsbD (k % 160) ∧ v = .ready then .shunting else v }

/-- The boundary that an effect names, or the next one, carries it out; the others wait, those of the SC while it is
paused (R411, R416). -/
def atBoundary (s : State) (e : Pending) : Bool :=
  decide (e.due ≤ tickCount s) &&
    match e.effect with
    | .withdraw c => !waitsForStop (ttOf s c)
    | .swapIn _ _ _ => false
    | .fill _ _ => false
    | .scan _ _ => false
    | .ctxReset _ => false
    | .partReset _ => false
    | .planSwap _ _ => false
    | .reserve _ _ _ => false
    | .installKey _ _ _ => !s.life.scPaused
    | .attest _ _ _ => !s.life.scPaused
    | _ => true

def takeEffect (s : State) (e : Pending) : State :=
  match e.effect with
  | .withdraw c => endTimetable s c
  | .resume c => resumeTt s c
  | .forcedCut f => forcedCut s f
  | .srtSwap => takeSrtSwap s
  | .unbind i => takeUnbind s i
  | .installKey f slot k => installKey s f slot k
  | .attest p dest nonce => takeReport s e p dest nonce
  | .carrier c x => takeCarrier s c x
  | .carrierRemove c => takeCarrierRemove s c
  | .routeSwap => takeRouteSwap s
  | .levelFull => levelFull s e
  | .shuntStart p mask qmask => shuntStarts s p mask qmask
  | .shuntStop p => shuntStops s p
  | _ => s

/-- Effects of commands, in the order accepted. -/
def takeEffects (s : State) : State :=
  let l := s.effects.filter (atBoundary s)
  l.foldl takeEffect { s with effects := s.effects.filter fun e => !atBoundary s e }

/-- The run length of a timetable that ran counts down; at its end the timetable is withdrawn, after the stop
pass of a job (R156, R362). Log 84, DEDUCED. -/
def countRun (s : State) (c : Nat) : State :=
  match (ttOf s c).run with
  | some n =>
    let s := { s with tts := upd s.tts c fun t => { t with run := some (n - 1) } }
    if 1 < n then s
    else if 1 < (ttOf s c).report.chips then
      let s := raiseBrake s c 7
      { s with tts := upd s.tts c fun t => { t with state := .withdrawing } }
    else endTimetable s c
  | none => s

/-- Timetables that run with a run length and made a pass. -/
def runners (s : State) (ran : List Nat) : List Nat :=
  ran.filter fun c => decide ((ttOf s c).state = .running) && (ttOf s c).run.isSome

/-- The level in force stops timetables: tenants with a SUSPENDED record below full, every one at beacon while
the Stationmaster runs (R389). Log 85, DEDUCED. -/
def levelStops (s : State) : State :=
  let running := ctxsWhere s fun t => decide (t.state = .running)
  match s.level with
  | .full => s
  | .radioOnly => (running.filter fun c => !(part s (partOfCtx c)).radio).foldl (fun s c => suspendTt s c false) s
  | .beacon =>
    if coresRun s then
      { s with tts := mapT s.tts fun _ t => if t.state = .running then { t with state := .suspended, ran := false } else t }
    else s

/-! ## Quarantine replays (R373, R188) -/

/-- A suspect that can still be replayed. Log 90, DEDUCED. -/
def canReplay (s : State) (c : Nat) : Bool := decide ((ttOf s c).state = .suspended) && decide ((ctxOf s c).state = .active)

def stopReplay (s : State) (c : Nat) : State := { s with tts := upd s.tts c fun t => { t with ran := false } }

/-- The verdict on one suspect. -/
def verdictOn (s : State) (p : Nat) (q : Quarantine) (c : Nat) : State :=
  let bad := decide (c ∈ q.culprits)
  let s := recordFault s
    { code := 17, named := .context c, locKind := 1, location := q.die + q.tile * 2 ^ 8, detail := ofBool bad, off := s.tick.off }
  let s := { s with tts := upd s.tts c fun t => { t with replay := [] } }
  notice s (funcOfPart s p) { kind := 11, part := p, ctx := c, detail := leBytes 2 c ++ leBytes 1 (ofBool bad) }

/-- Step 5: verdicts, the last scan-in, resets of the culprits; the others resume at the next boundary. -/
def quarantineVerdict (s : State) (p : Nat) (q : Quarantine) : State :=
  let r := quarantineScanIn (q.suspects.foldl (fun s c => verdictOn s p q c) s) p q
  if r.2 = false then quarantineFails r.1 p q else
  let s := r.1
  let s := q.culprits.foldl (fun s c => acceptCtxReset s c true) s
  let s := orReg s (bFlt + 0x14) (if q.culprits = [] then 0x18 else 0x8)
  let clear := q.suspects.filter fun c => decide (c ∉ q.culprits)
  setQuarantine s p { q with replaying := false, armed := false, resumes := clear ++ q.bystanders }

/-- The suspect under replay is done: the next one waits for its scan-in, or the verdicts are given. Log 90,
DEDUCED. -/
def nextSuspect (s : State) (p : Nat) (q : Quarantine) : State :=
  let q := { q with armed := false, replaying := false, current := q.current + 1 }
  if q.current < q.suspects.length then setQuarantine s p q else quarantineVerdict s p q

/-- A pass of a replay has ended. -/
def replayEnded (s : State) (p : Nat) (q : Quarantine) (c : Nat) : State :=
  if (ttOf s c).closed = false then nextSuspect (stopReplay s c) p { q with culprits := q.culprits ++ [c] }
  else if q.passes ≤ 1 then nextSuspect (stopReplay s c) p q
  else
    setQuarantine { s with tts := upd s.tts c freshPass } p { q with passes := q.passes - 1 }

/-- A scan-in has been made: the suspect runs alone. -/
def replayStarts (s : State) (p : Nat) (q : Quarantine) (c : Nat) : State :=
  setQuarantine { s with tts := upd s.tts c freshPass } p
    { q with armed := false, replaying := true, passes := bits (reg s bFlt) 20 17 }

/-- Timetables resume and the quarantine is over. -/
def quarantineEnds (s : State) (p : Nat) (q : Quarantine) : State :=
  let l := q.resumes.filter fun c => decide ((ctxOf s c).state = .active) && !tenantHalted s p
  l.foldl (fun s c => if resumeFits s c then resumeTt s c else s) { s with quarantines := erase s.quarantines p }

/-- One quarantine at a boundary; a suspect that has gone meanwhile is passed over. -/
def quarantineTick (s : State) (p : Nat) (q : Quarantine) : State :=
  if q.active = false ∨ q.stopped = false then s
  else if q.suspects.length ≤ q.current then quarantineEnds s p q
  else match q.suspects[q.current]? with
    | some c =>
      if q.armed = false ∧ q.replaying = false then s
      else if canReplay s c = false then nextSuspect (stopReplay s c) p q
      else if q.replaying then replayEnded s p q c
      else replayStarts s p q c
    | none => s

def quarantineTicks (s : State) : State := s.quarantines.foldl (fun s kv => quarantineTick s kv.1 kv.2) s

/-! ## The rest of the boundary -/

/-- The standby core takes over (R340, R368, R410). Log 94, DEDUCED. -/
def handovers (s : State) : State :=
  let s := if s.life.failover ∧ s.life.standbyReady then
      orReg { s with life := { s.life with activeM1 := !s.life.activeM1, standbyReady := false, failover := false } }
        (bFlt + 0x14) 0x100
    else { s with life := { s.life with failover := false } }
  let u := s.life.smUpdate
  if u.active ∧ u.mirrored ∧ u.handedOver = false then
    { s with life := { s.life with
        activeM1 := !s.life.activeM1
        smUpdate := { u with handedOver := true }
        versions := s.life.versions.set 1 u.image.version
        measures := s.life.measures.set 1 u.image.digest } }
  else s

/-- The physical pseudo-channels of a position and of position 31 trade places (R192, R414). -/
def exchangePhys (t : Table Pc) (pc : Nat) : Table Pc :=
  let j := pc % 32
  let top := pc / 32 * 32 + 31
  let d := (look t pc).physDelta
  let d31 := (look t top).physDelta
  upd (upd t pc fun x => { x with physDelta := (63 + d31 - j) % 32, switching := false }) top
    fun x => { x with physDelta := (j + d + 1) % 32 }

def spareTakes (s : State) (pc : Nat) : State :=
  orReg { s with pcs := exchangePhys s.pcs pc, spareBad := (s.spareBad ++ [pc / 32]).eraseDups } (bMem + 0x68) 0x4

def spareTakeovers (s : State) : State :=
  ((s.pcs.filter fun kv => kv.2.switching).map (·.1)).foldl spareTakes s

/-- Settings of tenants take effect (R321). Log 137, DEDUCED. Log 216, DEDUCED. -/
def tenantSettings (s : State) : State :=
  { s with
    vfs := mapT s.vfs fun _ v => { v with ctrlT := v.tctrl }
    tts := mapT s.tts fun c t => { t with dlbDenied := (vfOf s (funcOfCtx s c)).tctrl.getLsbD 0 }
    binds := mapT s.binds fun _ b => { b with holdT := (vfOf s b.func).tctrl.getLsbD 1 } }

/-- Load balancing is on for a group only while every member enables it and none is denied it (R161). -/
def dlbOn (s : State) (c : Nat) (t : Timetable) : Bool :=
  decide (t.group ≠ 0) && s.tts.all fun kv =>
    decide (kv.2.state = .none) || decide (kv.2.group ≠ t.group) || decide (funcOfCtx s kv.1 ≠ funcOfCtx s c) ||
      (kv.2.dlbEn && !kv.2.dlbDenied)

/-- Log 137, DEDUCED. -/
def dlbChange (s : State) : State := { s with tts := mapT s.tts fun c t => { t with dlbActive := dlbOn s c t } }

/-- A capture that saw no tick-close ends with its pass; armed captures begin (R164). Log 93, DEDUCED. -/
def traces (s : State) : State :=
  let s := s.tracing.foldl endTrace s
  ((List.range 32).filter fun p => bitOf (reg s (ttbBase p + 0x24)) 31).foldl (fun s p =>
    setReg { s with tracing := s.tracing ++ [p] } (ttbBase p + 0x28) 0) s

/-- The timetable makes a pass in the tick that opens. -/
def makesPass (s : State) (c : Nat) (t : Timetable) : Bool :=
  (decide (t.state = .running) || decide (t.state = .withdrawing)) &&
    decide ((part s (partOfCtx c)).state = .opened)

/-- Every pass begins (R137); ticks since admission are counted (R116). -/
def beginPasses (s : State) : State :=
  { s with
    tts := mapT s.tts fun c t => if makesPass s c t then freshPass t else t
    ctxs := mapT s.ctxs fun c x => if (ttOf s c).state = .none then x else { x with ticks := x.ticks + 1 } }

/-- Draining of an old route epoch (R357). Log 81, DEDUCED. -/
def drainTick (s : State) : State := { s with drain := if 1 < s.drain then s.drain - 1 else s.drain }

/-- Measured draw of the dies (R63, R64). Log 95, DEDUCED. -/
def powerReading (s : State) (d mw : Nat) : State :=
  if d < 64 then
    let s := setReg s (bDie + 0xA00 + 4 * d) (min mw 65535)
    if powerLimit s d < mw then orReg s (bDie + 0x18) 0x1 else s
  else s

/-- The tick boundary at PTP time `ns`, with the draws measured; owners are compared with those of the slice in
progress, which is the last slice, or, at the end of a step, that in which the step began (R27). Log 77,
DEDUCED. Log 78, DEDUCED. -/
def boundary (s : State) (ns : Nat) (power : List (Nat × Nat)) : State :=
  let last := cellOwner s.cellA s.tick.slice
  let cs := ctxsAtB1 s
  let c2 := ctxsCleared s
  let p1 := partsAtStage s 1
  let p3 := partsAtStage s 3
  let ran := ctxsWhere s (·.ran)
  let s := overrunCheck (tickEnded s (ns - s.tick.boundaryNs))
  let s := quarantineStops (takeTickState (countTick s ns))
  let s := carryOver (takePlan s)
  let qs := changedQuads last (cellOwner s.cellA 0)
  let s := beginChangeover (takeSwaps { s with changing := qs } 0) qs
  let s := brakeStops (resetsAt (c2.foldl ctxResetEnd s) cs p1 p3)
  let s := releaseHeld (drainTick s)
  let s := (runners s ran).foldl countRun (takeEffects s)
  let s := quarantineTicks (levelStops s)
  let s := spareTakeovers (handovers s)
  let s := traces (dlbChange (tenantSettings s))
  let s := jobMessages (skewCheck (beginPasses s))
  power.foldl (fun s x => powerReading s x.1 x.2) s

/-- TICK_BOUNDARY (R32): the last slice has ended. A boundary ends a step only as STEP_END. Log 78, DEDUCED. -/
def execTickBoundary (powerMw : List (Nat × Nat)) (s : State) : Out1 :=
  done s (if s.tick.state ≠ .stepping ∧ (activeStarts s).length ≤ s.tick.slice + 1 then
      boundary s (s.tick.boundaryNs + periodNs (periodCode s)) powerMw
    else s)

/-- A PTP time is a tick boundary (R18). Log 78, DEDUCED. -/
def aligned (s : State) (ns : Nat) : Bool :=
  decide (ns % periodNs (periodCode s) = reg s (bTck + 0xC) % periodNs (periodCode s))

/-- The state after a step (R435). Log 78, DEDUCED. -/
def afterStep (s : State) : State :=
  let s := orReg s (bTck + 0x30) 0x20
  enterState (nonePending s) (if s.tick.ptpOk then .acquiring else .freeRun)

/-- The tick in progress may end: it is not shortened (R23). -/
def notShort (s : State) (ns : Nat) : Bool := decide (s.tick.boundaryNs + s.tick.openNs ≤ ns)

/-- STEP_END (R23, R435): the lengthened tick ends at an aligned boundary, with the draws measured (R64). Log 78,
DEDUCED. -/
def execStepEnd (close : StepClose) (s : State) : Out1 :=
  done s (if s.tick.state = .stepping ∧ notShort s close.ns ∧ aligned s close.ns then
      afterStep (boundary s close.ns close.powerMw)
    else s)

/-! ## Boundaries of slices (R24, R27, R177, R179) -/

/-- Shunting plans that exchange at slice i. -/
def shuntsAt (s : State) (i : Nat) : List (Nat × BitVec 160) :=
  (s.sdg.filter fun kv => kv.2.shuntOn && kv.2.shunt.getLsbD i).map fun kv => (kv.1, kv.2.shuntQ)

/-- A shunting exchange; a timetable that the incoming set adds begins its first pass, a library entry's too. -/
def shuntAt (s : State) (p : Nat) (qmask : BitVec 160) : State :=
  let s := (sideEntries s p qmask).foldl adopt (exchangeSets s p qmask s.tick.off)
  (stagedIn s p qmask).foldl startFirst s

/-- Slice i opens. -/
def sliceOpens (s : State) (i : Nat) : State :=
  let before := s.tick.slice
  let s := { s with tick := { s.tick with off := (activeStarts s).getD i 0, slice := i } }
  let qs := changedQuads (cellOwner s.cellA before) (cellOwner s.cellA i)
  let s := saveSlots { s with changing := qs } fun q => if q ∈ qs then cellOwner s.cellA before q else none
  let s := takeSwaps s i
  let s := (shuntsAt s i).foldl (fun s x => shuntAt s x.1 x.2) s
  beginChangeover s qs

/-- SLICE_BOUNDARY: the slice named is the one after that in progress. Log 100, DEDUCED. -/
def execSliceBoundary (slice : Nat) (s : State) : Out1 :=
  done s (if s.tick.state ≠ .stepping ∧ slice = s.tick.slice + 1 ∧ slice < (activeStarts s).length then
      sliceOpens s slice
    else s)

/-- The incoming owners' tiles restart at the first firing ac after the changeover (R27, R75). Log 100, DEDUCED.
-/
def changeoverOver (s : State) : State :=
  let at' := (activeStarts s).getD s.tick.slice 0 + 256
  { s with
    tick := { s.tick with off := at' }
    tiles := mapT s.tiles fun k t => if quadOfTile k ∈ s.changing then restartTile t at' else t
    changing := [] }

/-- CHANGEOVER_END. Log 100, DEDUCED. -/
def execChangeoverEnd (slice : Nat) (s : State) : Out1 :=
  done s (if slice = s.tick.slice ∧ s.changing ≠ [] then changeoverOver s else s)

end Sys2Proof.Machine
end

