-- ==== Sys2Proof/Machine/Engines.lean ====
section
/-!
DEFINITION. The shared engines (R239, R240): cipher messages and their save slots, and the LDPC code blocks of
radio timetables (R279–R282).
-/

namespace Sys2Proof.Machine

def updEng (s : State) (die : Nat) (f : Engines → Engines) : State := { s with engines := upd s.engines die f }

/-! ## Cipher messages -/

/-- Operator purposes are numbered from 2048 on: first the MACsec SecYs of the 128 subports. Log 169, DEDUCED. -/
def isMacsec (c : Nat) : Bool := decide (2048 ≤ c) && decide (c < 2048 + 128)

/-- A context that may submit work, or an operator purpose. Log 169, DEDUCED. -/
def submitter (s : State) (c : Nat) : Bool :=
  decide (2048 ≤ c) || (decide ((ctxOf s c).state ≠ .free) && decide ((ctxOf s c).state ≠ .resetting))

/-- A message as it arrives; operator purposes are numbered from 2048 on. Log 169, DEDUCED. -/
def newMsg (s : State) (e : Engines) (stream c len key : Nat) : Msg :=
  { id := e.nextId, stream := stream, ctx := c, key := key, len := len, arrived := e.nextId,
    tenant := decide (c < 2048) && !(part s (partOfCtx c)).radio, postmark := (ctxOf s c).postmark }

/-- CIPHER_MESSAGE_SUBMIT (R239): the message waits, in arrival order. -/
def execCipherMessageSubmit (die stream ctx len key : Nat) (s : State) : Out1 :=
  done s (if die < 8 ∧ submitter s ctx then
      updEng s die fun e => { e with waiting := e.waiting ++ [newMsg s e stream ctx len key], nextId := e.nextId + 1 }
    else s)

/-- A message may use periods: below full level only radio's and operator MACsec do (R286, R389). Log 169, DEDUCED. -/
def mayRun (s : State) (m : Msg) : Bool :=
  decide (s.level = .full) || isMacsec m.ctx || (decide (m.ctx < 2048) && !m.tenant)

/-- The message's context has been reset since it was submitted (R383). Log 169, DEDUCED. -/
def msgStale (s : State) (m : Msg) : Bool := decide (m.ctx < 2048) && decide ((ctxOf s m.ctx).postmark ≠ m.postmark)

/-- The lowest free save slot of a die. Log 169, DEDUCED. -/
def freeSlot (e : Engines) : Option Nat := (List.range 512).find? fun n => decide (n ∉ e.slotsUsed)

/-- A message that holds a slot, or could take one. Log 169, DEDUCED. -/
def startable (e : Engines) (m : Msg) : Bool := m.slot.isSome || (freeSlot e).isSome

/-- The longest-waiting message that satisfies a test. -/
def longest (l : List Msg) (f : Msg → Bool) : Option Msg :=
  (l.filter f).foldl (fun best m =>
    match best with
    | none => some m
    | some b => if m.arrived < b.arrived then some m else some b) none

/-- A freed slot is zeroed: it is no longer in use. -/
def dropSlot (e : Engines) (m : Msg) : Engines :=
  match m.slot with
  | some n => { e with slotsUsed := e.slotsUsed.filter (· ≠ n) }
  | none => e

def setUnit (e : Engines) (u : Nat) (x : EngUnit) : Engines := { e with units := put e.units u x }

/-- One period of a message in a unit, up to its next 4 KiB boundary. The counter block and the GHASH accumulator
depend on data the spec does not follow: free values. -/
def runMsg (s : State) (e : Engines) (u : Nat) (m : Msg) : Engines :=
  let d := min m.len (4096 * (m.done / 4096 + 1))
  if m.len ≤ d then dropSlot (setUnit e u {}) m
  else setUnit e u { msg := some { m with done := d, counter := Config.freeBits s.fresh 128,
                                          ghash := Config.freeBits (s.fresh + 1) 128 } }

/-- A message leaves those waiting or saved and takes a slot if it has none. -/
def takeMsg (e : Engines) (m : Msg) : Engines × Msg :=
  let e := { e with waiting := e.waiting.filter (·.id ≠ m.id), saved := e.saved.filter (·.id ≠ m.id) }
  match m.slot, freeSlot e with
  | none, some n => ({ e with slotsUsed := n :: e.slotsUsed }, { m with slot := some n })
  | _, _ => (e, m)

/-- The message in progress goes to its save slot and waits again. -/
def saveMsg (e : Engines) (u : Nat) (m : Msg) : Engines :=
  { setUnit e u {} with saved := e.saved ++ [{ m with arrived := e.nextId }], nextId := e.nextId + 1 }

/-- The unit's message, unless its context was reset meanwhile. -/
def currentMsg (s : State) (e : Engines) (u : Nat) : Option Msg :=
  match (look e.units u).msg with
  | some m => if msgStale s m then none else some m
  | none => none

/-- A unit at a period's start: a message that went with its context's reset frees its slot. -/
def tidyUnit (s : State) (e : Engines) (u : Nat) : Engines :=
  match (look e.units u).msg with
  | some m => if msgStale s m then dropSlot (setUnit e u {}) m else setUnit e u { msg := some m }
  | none => setUnit e u {}

/-- The message in progress goes on: it may run, and no message of another stream waits (R239, step 2). -/
def goesOn (s : State) (e : Engines) (m : Msg) : Bool :=
  mayRun s m && !(e.waiting ++ e.saved).any fun x => mayRun s x && startable e x && decide (x.stream ≠ m.stream)

/-- The longest-waiting message that may run starts, restored from its slot if it was saved (R239, step 3). -/
def startLongest (s : State) (e : Engines) (u : Nat) : Option Engines :=
  (longest (e.waiting ++ e.saved) fun x => mayRun s x && startable e x).map fun y =>
    let t := takeMsg e y
    runMsg s t.1 u t.2

/-- The message that the unit works on in this period (R239). One that may not run is saved (R389). -/
def cipherWork (s : State) (e : Engines) (u : Nat) : Engines :=
  match currentMsg s e u with
  | some m =>
    if goesOn s e m then runMsg s e u m
    else (startLongest s (saveMsg e u m) u).getD (saveMsg e u m)
  | none => (startLongest s e u).getD e

/-- A message would start and finds no slot free. -/
def slotsFull (s : State) (e : Engines) : Bool := e.waiting.any fun m => mayRun s m && !startable e m

/-! ## Radio code blocks in the units (R239, R282) -/

/-- The oldest job that has become waiting, once its words have crossed from the hub die (R278). -/
def oldestJob (e : Engines) (now : Nat) : Option FecJob :=
  (e.jobs.filter fun x => x.waiting && decide (x.j + 10 ≤ now)).foldl (fun best x =>
    match best with
    | none => some x
    | some b => if x.j < b.j then some x else some b) none

/-- Location of an engine unit in a fault record (R371). -/
def unitLoc (die u : Nat) : Nat := die + u * 2 ^ 4

/-- Location of a FEC port and JOB in a fault record (R371). Log 254, DESIGN CHOICE. -/
def fecLoc (die port job : Nat) : Nat := die + port * 2 ^ 4 + job % 2 ^ 16 * 2 ^ 16

/-- A job has waited too long: the hardware departs from R282. -/
def waitOver (s : State) (die u : Nat) (x : FecJob) : State :=
  let s := orReg s (bFec + 0x148) 0x2
  match x.ctx with
  | some c => raiseFault s { code := 41, named := .partition (partOfCtx c), locKind := 5, location := unitLoc die u, off := s.tick.off }
  | none => s

/-- A unit runs a code block for one period. -/
def runJob (s : State) (die u now : Nat) (x : FecJob) : State :=
  let wait := now - (x.j + 10)
  let a := bSeg + 0x40 + 8 * die
  let s := if reg64 s a < wait then setReg64 s a wait else s
  let s := updEng s die fun e =>
    let e := { e with jobs := e.jobs.replace x { x with waiting := false } }
    setUnit e u { look e.units u with radio := true }
  if 128 < wait then waitOver s die u x else s

/-- Log 170, DEDUCED. -/
def enginePeriod (s : State) (die u : Nat) : State :=
  let now := absAc s s.tick.off
  let s := updEng s die fun e => tidyUnit s e u
  match oldestJob (look s.engines die) now with
  | some x => runJob s die u now x
  | none =>
    let e := look s.engines die
    let s := if slotsFull s e then orReg s (bSeg + 0x80) 0x2 else s
    { updEng s die fun e => cipherWork s e u with fresh := s.fresh + 2 }

/-- ENGINE_PERIOD: at the offset of the latest event. -/
def execEnginePeriod (die unit : Nat) (s : State) : Out1 :=
  done s (if die < 8 ∧ unit < 12 then enginePeriod s die unit else s)

/-- SEG_RADIO_WAIT_READ (R248): reading clears it. -/
def execSegRadioWaitRead (v : View) (die : Nat) (s : State) : Out1 :=
  let a := bSeg + 0x40 + 8 * die
  done s (if hasAccess v ∧ die < 8 then emit (setReg64 s a 0) (.regData (BitVec.ofNat 64 (reg64 s a)))
    else emit s (.regData 0))

/-! ## Job headers (R279) -/

/-- Lane i of a word. -/
def hdrLane (w : TWord) (i : Nat) : Nat := bits w.payload.toNat (32 * i + 31) (32 * i)

structure FecHdr where
  encode : Bool := false
  bg2 : Bool := false
  z : Nat := 0
  crc : Nat := 0
  k : Nat := 0
  f : Nat := 0
  ncb : Nat := 0
  job : Nat := 0
  deriving DecidableEq, Repr, Inhabited

def fecHdr (w : TWord) : FecHdr :=
  { encode := bitOf (hdrLane w 0) 0, bg2 := bitOf (hdrLane w 0) 1, z := bits (hdrLane w 0) 10 2, crc := bits (hdrLane w 0) 12 11,
    k := bits (hdrLane w 1) 13 0, f := bits (hdrLane w 2) 13 0, ncb := bits (hdrLane w 3) 15 0, job := bits (hdrLane w 4) 15 0 }

/-- Lifting sizes of TS 38.212 Table 5.3.2-1: a × 2^j up to 384. -/
def zOk (z : Nat) : Bool :=
  [2, 3, 5, 7, 9, 11, 13, 15].any fun a => (List.range 8).any fun j => decide (z = a * 2 ^ j) && decide (z ≤ 384)

/-- Information columns, code columns and rows of the base graph. -/
def kCols (h : FecHdr) : Nat := if h.bg2 then 10 else 22
def nCols (h : FecHdr) : Nat := if h.bg2 then 52 else 68
def nRows (h : FecHdr) : Nat := if h.bg2 then 42 else 46

def kOk (h : FecHdr) : Bool := if h.bg2 then [6, 8, 9, 10].any fun kb => decide (h.k = kb * h.z) else decide (h.k = 22 * h.z)

def fecHdrOk (h : FecHdr) : Bool :=
  zOk h.z && kOk h && decide (h.f < h.k) && decide (1 ≤ h.ncb) && decide (h.ncb ≤ (nCols h - 2) * h.z) &&
    (h.encode || decide (h.crc ≤ 2))

/-- Input and output words of a job, without header and status. -/
def inputWords (h : FecHdr) : Nat := if h.encode then (h.k - h.f + 159) / 160 else (h.ncb + 19) / 20
def outputWords (h : FecHdr) : Nat := if h.encode then (h.ncb + 159) / 160 else (h.k - h.f + 159) / 160

/-- 160 bits to a word, bit i in PAYLOAD[i mod 160]. -/
def packBits (l : List Bool) (n : Nat) : List TWord :=
  (List.range n).map fun k =>
    { payload := BitVec.ofNat 160 (((l.drop (160 * k)).take 160).zipIdx.foldl (fun a x => a + ofBool x.1 * 2 ^ x.2) 0) }

def unpackBits (ws : List TWord) (n : Nat) : List Bool :=
  (List.range n).map fun i => ((ws.getD (i / 160) {}).payload).getLsbD (i % 160)

/-! ## Decoding (R280) -/

/-- Log 172, DEDUCED. -/
def sat127 (x : Int) : Int := max (-127) (min 127 x)

/-- The LLR of a code bit: supplied, zero beyond NCB and in the two punctured columns, and a known zero at
filler. Log 172, DEDUCED. -/
def startLlr (h : FecHdr) (ws : List TWord) (v : Nat) : Int :=
  if h.k - h.f ≤ v ∧ v < h.k then 127
  else if kCols h * h.z ≤ v ∨ v < h.k then
    (if v < 2 * h.z ∨ h.ncb ≤ v - 2 * h.z then 0
     else
      let i := v - 2 * h.z
      signedOf 8 (bits ((ws.getD (i / 20) {}).payload.toNat) (8 * (i % 20) + 7) (8 * (i % 20))))
  else 127

/-- Columns and shifts of a base-graph row. Log 171, DESIGN CHOICE. -/
def rowShifts (h : FecHdr) (i : Nat) : List (Nat × Nat) :=
  (List.range (nCols h)).filterMap fun j => (Config.ldpcShift (ofBool h.bg2) h.z i j).map fun p => (j, p)

/-- Code bits of check r of row i. -/
def checkBits (h : FecHdr) (i r : Nat) : List Nat := (rowShifts h i).map fun x => x.1 * h.z + (r + x.2) % h.z

/-- Normalised minimum: 3/4 by an arithmetic shift of three times the magnitude. -/
def minMsg (others : List Int) : Int :=
  let m := others.foldl (fun a x => min a x.natAbs) 127
  let neg := (others.filter (· < 0)).length % 2 = 1
  let v : Int := (3 * m / 4 : Nat)
  if neg then -v else v

/-- Posterior LLRs by code bit, and the messages from each check to its bits. -/
structure LdpcState where
  q : List Int := []
  r : Table (List Int) := []

/-- One check: take its old messages out, form the new ones, put them in; messages saturate. -/
def checkStep (h : FecHdr) (s : LdpcState) (i r : Nat) : LdpcState :=
  let bs := checkBits h i r
  let old := (look? s.r (i * h.z + r)).getD (bs.map fun _ => 0)
  let t := (bs.zip old).map fun x => sat127 (s.q.getD x.1 0 - x.2)
  let new := (List.range t.length).map fun k => minMsg (t.eraseIdx k)
  { q := (bs.zip (List.zipWith (fun a b => sat127 (a + b)) t new)).foldl (fun q x => q.set x.1 x.2) s.q
    r := insert s.r (i * h.z + r) new }

/-- One iteration: base-graph rows in ascending order. Log 172, DEDUCED. -/
def iteration (h : FecHdr) (s : LdpcState) : LdpcState :=
  (List.range (nRows h)).foldl (fun s i => (List.range h.z).foldl (fun s r => checkStep h s i r) s) s

/-- Ten iterations, never fewer. Log 172, DEDUCED. -/
def decodeLlr (h : FecHdr) (ws : List TWord) : List Int :=
  let s0 : LdpcState := { q := (List.range (nCols h * h.z)).map (startLlr h ws) }
  ((List.range 10).foldl (fun s _ => iteration h s) s0).q

/-- Checks that a hard decision does not satisfy. -/
def unsatisfied (h : FecHdr) (hard : List Bool) : Nat :=
  ((List.range (nRows h)).flatMap fun i => (List.range h.z).filter fun r =>
    decide (((checkBits h i r).filter fun v => hard.getD v false).length % 2 = 1)).length

/-- Remainder of a bit string under a CRC of 24 bits. -/
def crc24 (poly : Nat) (l : List Bool) : Nat :=
  l.foldl (fun c b => if (bitOf c 23) ≠ b then (2 * c % 2 ^ 24) ^^^ poly else 2 * c % 2 ^ 24) 0

/-- CRC_OK: no CRC asked for, or CRC24B or CRC24A over the bits with their CRC leaves nothing. -/
def crcOk (crc : Nat) (l : List Bool) : Bool :=
  if crc = 1 then decide (crc24 0x800063 l = 0) else if crc = 2 then decide (crc24 0x864CFB l = 0) else true

/-- The status word. -/
def statusWord (crcok syndok hdrbad : Bool) (job unsat : Nat) : TWord :=
  { payload := BitVec.ofNat 160 (ofBool crcok + 2 * ofBool syndok + 128 * ofBool hdrbad + job * 2 ^ 32 + unsat % 65536 * 2 ^ 64) }

/-- The words of a decode, and whether its CRC failed. -/
def decodeJob (h : FecHdr) (ws : List TWord) : List TWord × Bool :=
  let hard := (decodeLlr h ws).map fun x => decide (x < 0)
  let info := hard.take (h.k - h.f)
  let n := unsatisfied h hard
  (packBits info (outputWords h) ++ [statusWord (crcOk h.crc info) (decide (n = 0)) false h.job n],
   h.crc ≠ 0 && !crcOk h.crc info)

/-! ## Encoding (R280): the parity bits are those under which every check of the base graph is satisfied -/

/-- Elements of exactly one of two lists. -/
def xorList (a b : List Nat) : List Nat := (a.filter fun x => decide (x ∉ b)) ++ b.filter fun x => decide (x ∉ a)

/-- A linear equation over bits: the unknown bits it sums, and their sum. -/
structure BitEq where
  vars : List Nat := []
  sum : Bool := false
  deriving DecidableEq, Repr, Inhabited

def addEq (a b : BitEq) : BitEq := { vars := xorList a.vars b.vars, sum := a.sum != b.sum }

/-- One more equation in a solved set: rows are (pivot, equation), and a pivot stands in its own row alone. -/
def solveStep (rows : List (Nat × BitEq)) (e : BitEq) : List (Nat × BitEq) :=
  let e := rows.foldl (fun e r => if r.1 ∈ e.vars then addEq e r.2 else e) e
  match e.vars with
  | [] => rows
  | v :: _ => (v, e) :: rows.map fun r => (r.1, if v ∈ r.2.vars then addEq r.2 e else r.2)

/-- Check r of row i as an equation in the parity bits, for known information bits. -/
def checkEq (h : FecHdr) (info : List Bool) (i r : Nat) : BitEq :=
  let n := kCols h * h.z
  let bs := checkBits h i r
  { vars := (bs.filter fun v => decide (n ≤ v)).foldl (fun a v => xorList a [v]) []
    sum := decide (((bs.filter fun v => decide (v < n)).filter fun v => info.getD v false).length % 2 = 1) }

/-- The parity bits of information bits: the solution of the base graph's checks. Log 171, DESIGN CHOICE. -/
def parityBits (h : FecHdr) (info : List Bool) : List Bool :=
  let eqs := (List.range (nRows h)).flatMap fun i => (List.range h.z).map (checkEq h info i)
  let rows := eqs.foldl solveStep []
  (List.range ((nCols h - kCols h) * h.z)).map fun v =>
    match rows.find? fun r => decide (r.1 = kCols h * h.z + v) with
    | some r => r.2.sum
    | none => false

/-- The words of an encode: d_0 to d_(NCB−1), filler positions 0. Log 171, DESIGN CHOICE. -/
def encodeJob (h : FecHdr) (ws : List TWord) : List TWord :=
  let info := unpackBits ws (h.k - h.f) ++ List.replicate (kCols h * h.z - (h.k - h.f)) false
  let d := ((info ++ parityBits h info).drop (2 * h.z)).take h.ncb
  packBits d (outputWords h) ++ [statusWord true true false h.job 0]

/-- The words of a job whose header breaks R279. -/
def badJob (h : FecHdr) : List TWord := List.replicate (outputWords h) default ++ [statusWord false false true h.job 0]

/-! ## Jobs through their ports (R281) -/

/-- Words that stand in a FEC submit port, in order of arrival. -/
def submitted (s : State) (die port : Nat) : List (Nat × TWord) := look s.hub (hubKey die (Config.fecPort die port 0))

/-- The context whose timetable routes words to a hub port. Log 173, DESIGN CHOICE. -/
def ctxOfPort (s : State) (hub reg : Nat) : Option Nat :=
  (ctxsWhere s fun t => t.report.crossings.any fun x => decide (x.rcv.die = 56 + hub ∧ x.rcv.unit = reg)).head?

/-- A job with its header and all its input words: it becomes waiting, with its results. -/
def newJob (s : State) (die port : Nat) (h : FecHdr) (ws : List (Nat × TWord)) : FecJob :=
  let ok := fecHdrOk h
  let inp := (ws.drop 1).map (·.2)
  let dec := decodeJob h inp
  { port := port, ctx := ctxOfPort s die (Config.fecPort die port 0), encode := h.encode, hdrBad := !ok, job := h.job,
    crcFail := !h.encode && decide (h.crc ≠ 0) && (!ok || dec.2), j := absAc s ((ws.getLast?.map (·.1)).getD 0), waiting := true,
    result := if ok = false then badJob h else if h.encode then encodeJob h inp else dec.1 }

/-- Take the first job of a submit port, where it is whole and of the direction asked for. -/
def ldpcTake (s : State) (die port : Nat) (encode : Bool) : State :=
  match submitted s die port with
  | [] => s
  | w :: l =>
    let h := fecHdr w.2
    let n := inputWords h
    if h.encode ≠ encode ∨ l.length < n then s
    else
      let job := newJob s die port h (w :: l.take n)
      updEng { s with hub := put s.hub (hubKey die (Config.fecPort die port 0)) (l.drop n) } die fun e =>
        { e with jobs := e.jobs ++ [job] }

/-- LDPC_DECODE (R279, R280). -/
def execLdpcDecode (die port : Nat) (s : State) : Out1 :=
  done s (if die < 8 ∧ port < 8 then ldpcTake s die port false else s)

/-- LDPC_ENCODE. -/
def execLdpcEncode (die port : Nat) (s : State) : Out1 :=
  done s (if die < 8 ∧ port < 8 then ldpcTake s die port true else s)

/-- Counters of a returned job (R289), and the fault of a bad header. -/
def countJob (s : State) (die : Nat) (x : FecJob) : State :=
  let s := bump s (bFec + (if x.encode then 0xC0 else 0x80) + 8 * die) 1
  let s := if x.crcFail then bump s (bFec + 0x100 + 8 * die) 1 else s
  if x.hdrBad then
    let s := orReg s (bFec + 0x148) 0x4
    match x.ctx with
    | some c => raiseFault s { code := 40, named := .context c, locKind := 7, location := fecLoc die x.port x.job, off := s.tick.off }
    | none => s
  else s

/-- Output words, one per ac from j + 320. -/
def returnWords (s : State) (die : Nat) (x : FecJob) : State :=
  let base := x.j + 320 - tickCount s * tickLen s
  let p := partOfCtx (x.ctx.getD 0)
  x.result.zipIdx.foldl (fun s w => hubPlace s p die (Config.fecPort die x.port 1) (base + w.2) w.1) s

/-- FEC_RETURN (R281): of the first job of the port; one that no unit has run is not returned. -/
def execFecReturn (die port : Nat) (s : State) : Out1 :=
  done s (match (look s.engines die).jobs.find? fun x => decide (x.port = port) with
    | some x =>
      if x.waiting then s
      else countJob (returnWords (updEng s die fun e => { e with jobs := e.jobs.erase x }) die x) die x
    | none => s)

end Sys2Proof.Machine
end

