-- ==== Sys2Proof/Machine/Registers.lean ====
section
/-!
DEFINITION. Writes to registers that have no row of their own (R4, R5, R11, R301) and the latched read of
a statistics counter's low word (R235).
-/

namespace Sys2Proof.Machine

/-- Words of PF BAR0 that hold typed state and that REGISTER_WRITE writes: VF_CFG.PCIE_T (R318), the
reset-pin registers of the SC (R417, R418). -/
def writeTyped (s : State) (v : View) (a data : Nat) : State :=
  match indexIn a bVf 0x40 1024 with
  | some f => { s with vfs := upd s.vfs f fun x => { x with pcieT := bitOf data 2 } }
  | none =>
    if v = .c ∧ a = bRst + 0x204 then { s with life := { s.life with permit := bitOf data 3 } }
    else if v = .c ∧ a = bRst + 0x208 then
      { s with life := { s.life with auth := BitVec.ofNat 48 (s.life.auth.toNat / 2 ^ 32 * 2 ^ 32 + data) } }
    else if v = .c ∧ a = bRst + 0x20C then
      { s with life := { s.life with
          auth := BitVec.ofNat 48 (s.life.auth.toNat % 2 ^ 32 + data % 2 ^ 16 * 2 ^ 32) } }
    else s

/-- MBX_IN_DATA, a byte buffer; writes while the inbound direction is busy are discarded (R303, R319). -/
def writeInData (s : State) (a : Nat) (bytes : List Byte) : State :=
  let f := bits (reg s (bMbx + 0x100)) 9 0
  if (vfOf s f).mbx.inFull then s else { s with inData := putBytes s.inData (a - (bMbx + 0x300)) bytes }

/-- PLCA is active only while STB_CTRL.PLCA_EN is 1 (R252). -/
def plcaFollows (s : State) : State :=
  { s with station := { s.station with plcaActive := s.station.plcaActive && bitOf (reg s bStb) 3 } }

def writePfWord (s : State) (v : View) (a data : Nat) : State :=
  let t := plcaFollows (writeMapped (writeTyped s v a data) v a data)
  match indexIn a 0x8000C 16 2048 with
  | some vec => releaseVec s t 0 vec
  | none => t

/-- A word of the BAR of VFf: VF_QSEL, MBX_T_OUT, MBX_T_STATUS, VF_FLT_TAIL and the MSI-X table; the other
writable words have rows of their own. Words that view C only reads are T's alone (R320, R322, R397). -/
def writeVfWord (s : State) (v : View) (f off data : Nat) : State :=
  if off = 0x80 then
    let q := bits data 12 0
    if (queueOf s q).kind ≠ 0 ∧ (queueOf s q).func = f then
      { s with vfs := upd s.vfs f fun x => { x with qsel := q } }
    else s
  else if off = 0x704 ∧ v = .t then
    { s with vfs := upd s.vfs f fun x => { x with mbx := { x.mbx with
        outDone := x.mbx.outDone && !bitOf data 1
        outTimeout := x.mbx.outTimeout && !bitOf data 2
        refused := x.mbx.refused && !bitOf data 3
        inTimeout := x.mbx.inTimeout && !bitOf data 5 } } }
  else if off = 0x3004 ∧ v = .t then
    { s with vfs := upd s.vfs f fun x => { x with flt := { x.flt with tail := BitVec.ofNat 16 data } } }
  else if within off 0x2000 0x23FC then
    let t := writeMapped s v (vfBase f + off) data
    releaseVec s t f ((off - 0x2000) / 16)
  else s

/-- MBX_T_OUT; writes while the outbound direction is busy are discarded (R303, R322). -/
def writeOutData (s : State) (f off : Nat) (bytes : List Byte) : State :=
  if (vfOf s f).mbx.outBusy then s
  else { s with vfs := upd s.vfs f fun x => { x with mbx := { x.mbx with
           out := putBytes x.mbx.out (off - 0x400) bytes } } }

/-- Apply a word write to one or two words, low word first (R10). -/
def eachWord (w : State → Nat → Nat → State) (s : State) (a size data : Nat) : State :=
  if a % 4 ≠ 0 then s
  else if size = 8 then w (w s a (data % 2 ^ 32)) (a + 4) (data / 2 ^ 32)
  else if size = 4 then w s a (data % 2 ^ 32)
  else s

/-- The registers after a write. Log 16, DEDUCED. -/
def regWrite (s : State) (acc : Access) (addr size : Nat) (data : BitVec 64) : State :=
  match reachesVf s acc with
  | some f =>
    if within addr 0x400 0x4FF ∧ acc.view = .t then
      writeOutData s f addr ((leBytes size data.toNat).take (0x500 - addr))
    else eachWord (fun s a d => writeVfWord s acc.view f a d) s addr size data.toNat
  | none =>
    if reachesPf acc = false then s
    else if within addr (bMbx + 0x300) (bMbx + 0x3FF) then
      writeInData s addr ((leBytes size data.toNat).take (bMbx + 0x400 - addr))
    else eachWord (fun s a d => writePfWord s acc.view a d) s addr size data.toNat

/-- REGISTER_WRITE (R4). -/
def execRegisterWrite (acc : Access) (addr size : Nat) (data : BitVec 64) (s : State) : Out1 :=
  done s (regWrite s acc addr size data)

/-! ## Latched counter reads (R235) -/

/-- A counter of a subport that the split in force does not use: it reads zero. -/
def unusedSubport (s : State) (a : Nat) : Bool :=
  decide (bCnt ≤ a) && decide (a < bCnt + 0x10000) && decide (a % 0x200 < 0x1F0) &&
    decide (subportsOf s ((a - bCnt) / 0x1000) ≤ a % 0x1000 / 0x200)

/-- The 48-bit counter at a low-word address that a view reads, with the reader's number for its latch:
0 view C, 1 view O, 2 + f function f. -/
def counterFor (s : State) (acc : Access) (addr : Nat) : Option (Nat × Nat × Nat) :=
  let reader := if acc.view = .c then 0 else 1
  match acc.bar with
  | .pf =>
    if reachesPf acc = false ∨ addr % 8 ≠ 0 then none
    else if halfRows.any (·.hits addr) then some (addr, reader, if unusedSubport s addr then 0 else reg64 s addr)
    else match indexIn addr (bQue + 0x20) 0x800 8192 with
      | some q => some (addr, reader, (queueOf s q).entries % 2 ^ 48)
      | none => none
  | .vf f =>
    match reachesVf s acc with
    | none => none
    | some _ =>
      if addr = 0x88 then
        let a := deadAddr (vfOf s f).qsel
        some (a, if acc.view = .c then 0 else 2 + f, reg64 s a)
      else none

/-- A latch's key. -/
def latchKey (addr reader : Nat) : Nat := addr * 2048 + reader

def latchRead (s : State) (acc : Access) (addr : Nat) : State :=
  match counterFor s acc addr with
  | none => emit s (.regData 0)
  | some (a, reader, v) =>
    { s with
      latches := put s.latches (latchKey a reader) (BitVec.ofNat 16 (v / 2 ^ 32))
      wire := .regData (BitVec.ofNat 64 (v % 2 ^ 32)) :: s.wire }

/-- COUNTER_LOW_WORD_READ (R235). -/
def execCounterLowWordRead (acc : Access) (addr : Nat) (s : State) : Out1 := done s (latchRead s acc addr)

end Sys2Proof.Machine
end

