-- ==== Sys2Proof/Machine/Station.lean ====
section
/-!
DEFINITION. The station bus (R243, R244, R252): frames received and sent, collisions, PLCA, and the always-on
domain's own replies and notices.
-/

namespace Sys2Proof.Machine

/-- The node takes part in the bus: enabled, its rail up, and no power-off in progress (R400, R401). -/
def stbEn (s : State) : Bool := bitOf (reg s bStb) 4 && s.life.enables.getD 3 false && !s.life.poweringOff
def plcaEn (s : State) : Bool := bitOf (reg s bStb) 3
def stbCount (s : State) (o : Nat) : State := bump s (bStb + o) 1
def stbBit (s : State) (m : Nat) : State := orReg s (bStb + 0x18) m

/-! ## The status reply (R244) -/

def tickStateCode : TickState → Nat
  | .freeRun => 0 | .acquiring => 1 | .locked => 2 | .holdover => 3 | .expired => 4 | .stepping => 5

/-- TCK_STATUS[7:0] (R41). -/
def tickStatusByte (s : State) : Nat :=
  tickStateCode s.tick.state + 8 * ofBool (tickLocked s) + 16 * ofBool s.tick.ptpOk + 32 * ofBool s.tick.synceOk

/-- Payload of a kind 2 reply, its fields in network byte order (R10). -/
def statusReply (s : State) (seq : Nat) : List Byte :=
  [2] ++ beBytes 2 seq ++ beBytes 1 ((answerNow s).toNat + 16 * ofBool s.life.held) ++ beBytes 1 (tickStatusByte s) ++
    beBytes 8 (tickCount s)

def statusRequest (s : State) (src seq : Nat) : State :=
  if stbEn s then stationQueue s src (statusReply s seq) else s

/-- STB_STATUS_REQUEST: the always-on domain queues the reply within 20 µs. -/
def execStbStatusRequest (src : BitVec 48) (seq : BitVec 16) (s : State) : Out1 :=
  done s (statusRequest s src.toNat seq.toNat)

/-! ## Receiving (R222, R244) -/

/-- Frames of the station queue. -/
def stbQueueLen : Nat := 16

/-- An accepted frame by its kind: a status request is answered, a command waits for its agent, the kinds that
only other nodes read need nothing more. Log 180, DEDUCED. -/
def stbKind (s : State) (b : List Byte) : State :=
  let kind := beAt b 14 1
  if kind = 0 ∨ 6 ≤ kind then stbCount s 0x120
  else if kind = 1 then statusRequest (stbCount s 0x100) (beAt b 6 6) (beAt b 15 2)
  else if kind = 3 then
    if stbQueueLen ≤ s.station.rxq.length then stbCount s 0x118
    else stbCount { s with station := { s.station with rxq := s.station.rxq ++ [b] } } 0x100
  else stbCount s 0x100

/-- Log 180, DEDUCED. -/
def stbFrame (s : State) (bytes : List Byte) : State :=
  if bytes.length < 64 then s
  else
    let trunc := decide (1518 < bytes.length)
    if trunc = false ∧ fcsOk bytes = false then stbCount s 0x108
    else
      let s := if trunc then stbCount s 0x110 else s
      if beAt bytes 12 2 ≠ stationEtype s then stbCount s 0x120 else stbKind s (bytes.take 1518)

/-- STB_FRAME: `bytes` is the frame from its destination address through its FCS. -/
def execStbFrame (bytes : List Byte) (s : State) : Out1 := done s (if stbEn s then stbFrame s bytes else s)

/-! ## Sending (R243) -/

/-- A collision: a random backoff, or the frame is abandoned after 16 attempts. Log 180, DEDUCED. -/
def stbCollide (s : State) : State :=
  let n := s.station.attempts + 1
  let s := stbCount s 0x130
  if 16 ≤ n then
    stbBit (stbCount { s with station := { s.station with txq := s.station.txq.drop 1, attempts := 0, backoff := none } }
      0x138) 0x2
  else
    { s with
      fresh := s.fresh + 1
      station := { s.station with attempts := n, backoff := some (Config.backoffDraw s.fresh % 2 ^ min n 10) } }

/-- The frame in front has left. -/
def stbSent (s : State) : State :=
  match s.station.txq with
  | [] => s
  | b :: l =>
    emit (stbCount { s with station := { s.station with txq := l, attempts := 0 } } 0x128) (.station b)

/-- The node may send: by CSMA/CD while no backoff runs, or in its PLCA opportunity once beacons are seen. -/
def stbMaySend (s : State) : Bool :=
  stbEn s && s.station.txq ≠ [] && (if plcaEn s then s.station.plcaActive else s.station.backoff.isNone)

/-- STB_TRANSMIT_OPPORTUNITY. PLCA has no collisions. -/
def execStbTransmitOpportunity (collides : Bool) (s : State) : Out1 :=
  done s (if stbMaySend s = false then s
    else if collides ∧ plcaEn s = false then stbCollide s
    else stbSent s)

/-- STB_COLLISION. Log 181, DESIGN CHOICE. -/
def execStbCollision (s : State) : Out1 :=
  done s (if stbMaySend s ∧ plcaEn s = false then stbCollide s else s)

/-- STB_BACKOFF_EXPIRY: the node tries again. -/
def execStbBackoffExpiry (s : State) : Out1 :=
  done s { s with station := { s.station with backoff := none } }

/-! ## PLCA (R243, R252) -/

/-- A beacon on the segment is seen. The coordinator, node 0 with PLCA on, sends it itself. -/
def plcaBeacon (s : State) : State :=
  let s := { s with station := { s.station with beaconSeen := true, plcaActive := plcaEn s } }
  if plcaEn s ∧ bits (reg s bStb) 2 0 = 0 then emit s .plcaBeacon else s

/-- PLCA_BEACON. -/
def execPlcaBeacon (s : State) : Out1 := done s (if stbEn s then plcaBeacon s else s)

/-- PLCA_LOST: no beacon for 1 ms. -/
def execPlcaLost (s : State) : Out1 :=
  let t := { s with station := { s.station with beaconSeen := false, plcaActive := false } }
  done s (if plcaEn s then stbBit t 0x4 else t)

/-! ## The reset-held notice (R244) -/

/-- RESET_HELD_NOTICE: a broadcast of kind 5 whose byte 1 is 1. -/
def execResetHeldNotice (s : State) : Out1 :=
  done s (if s.life.held ∧ stbEn s then stationQueue s (2 ^ 48 - 1) [5, 1] else s)

end Sys2Proof.Machine
end

