-- ==== Sys2Proof/Machine/TileCore.lean ====
section
/-!
DEFINITION. The tile core (R89–R91): RV32E with Zmmul, RDCYCLE and the stream extension. One command runs
one instruction of the firing in progress in a tile's active slot, as far as the tile has heard (R69), or the rest of
the budget. The encodings of
the base instructions are those of RV32E, which R89 names.
-/

namespace Sys2Proof.Machine

/-- Classes of instructions, one per row of the table. -/
inductive CoreClass where
  | alu | mul | branch | jump | load | store | rdcycle
  | sPop | sPush | sGet | sPut | sLdw | sStw | sCtr | sTag | sSettag | sEnd
  | illegal
  deriving DecidableEq, Repr, Inhabited

/-! ## Fields -/

def opcodeOf (w : Nat) : Nat := w % 128
def rdOf (w : Nat) : Nat := bits w 11 7
def funct3Of (w : Nat) : Nat := bits w 14 12
def rs1Of (w : Nat) : Nat := bits w 19 15
def rs2Of (w : Nat) : Nat := bits w 24 20
def funct7Of (w : Nat) : Nat := bits w 31 25

def immI (w : Nat) : Int := signedOf 12 (bits w 31 20)
def immS (w : Nat) : Int := signedOf 12 (bits w 31 25 * 2 ^ 5 + bits w 11 7)
def immB (w : Nat) : Int :=
  signedOf 13 (bits w 31 31 * 2 ^ 12 + bits w 7 7 * 2 ^ 11 + bits w 30 25 * 2 ^ 5 + bits w 11 8 * 2)
def immJ (w : Nat) : Int :=
  signedOf 21 (bits w 31 31 * 2 ^ 20 + bits w 19 12 * 2 ^ 12 + bits w 20 20 * 2 ^ 11 + bits w 30 21 * 2)
def immU (w : Nat) : Nat := bits w 31 12 * 2 ^ 12

/-- A register field names x0–x15 (R89). -/
def regOk (r : Nat) : Bool := decide (r < 16)

/-! ## Classification -/

/-- Class of a custom-0 word (R90). -/
def streamClass (w : Nat) : CoreClass :=
  let f7 := funct7Of w
  let rd := rdOf w
  let r1 := rs1Of w
  let r2 := rs2Of w
  match funct3Of w with
  | 0 => if f7 = 0 ∧ r2 = 0 ∧ r1 < 8 ∧ rd < 4 then .sPop else .illegal
  | 1 => if f7 < 2 ∧ rd = 0 ∧ r2 < 8 ∧ r1 < 4 then .sPush else .illegal
  | 2 => if f7 < 5 ∧ r2 = 0 ∧ r1 < 4 ∧ regOk rd then .sGet else .illegal
  | 3 => if f7 < 5 ∧ r1 = 0 ∧ rd < 4 ∧ regOk r2 then .sPut else .illegal
  | 4 => if f7 = 0 ∧ r2 = 0 ∧ rd < 4 ∧ regOk r1 then .sLdw else .illegal
  | 5 => if f7 = 0 ∧ rd = 0 ∧ r2 < 4 ∧ regOk r1 then .sStw else .illegal
  | 6 => if f7 = 0 ∧ r2 = 0 ∧ r1 < 4 ∧ regOk rd then .sCtr else .illegal
  | _ =>
    if f7 = 0 ∧ r2 = 0 ∧ r1 < 4 ∧ regOk rd then .sTag
    else if f7 = 1 ∧ rd = 0 ∧ r1 < 4 ∧ regOk r2 then .sSettag
    else if f7 = 2 ∧ rd = 0 ∧ r1 = 0 ∧ r2 = 0 then .sEnd
    else .illegal

/-- Class of a register-register word. -/
def opClass (w : Nat) : CoreClass :=
  let f7 := funct7Of w
  let f3 := funct3Of w
  if f7 = 0 ∨ (f7 = 0x20 ∧ (f3 = 0 ∨ f3 = 5)) then .alu
  else if f7 = 1 ∧ f3 < 4 then .mul
  else .illegal

/-- Class of a register-immediate word. -/
def opImmClass (w : Nat) : CoreClass :=
  let f7 := funct7Of w
  let f3 := funct3Of w
  if f3 = 1 then (if f7 = 0 then .alu else .illegal)
  else if f3 = 5 then (if f7 = 0 ∨ f7 = 0x20 then .alu else .illegal)
  else .alu

/-- Class of an instruction word; register fields of x16–x31 are illegal (R89). -/
def classify (w : Nat) : CoreClass :=
  let rd := regOk (rdOf w)
  let r1 := regOk (rs1Of w)
  let r2 := regOk (rs2Of w)
  let f3 := funct3Of w
  if opcodeOf w = 0x33 then (if rd && r1 && r2 then opClass w else .illegal)
  else if opcodeOf w = 0x13 then (if rd && r1 then opImmClass w else .illegal)
  else if opcodeOf w = 0x37 ∨ opcodeOf w = 0x17 then (if rd then .alu else .illegal)
  else if opcodeOf w = 0x0F then (if f3 = 0 then .alu else .illegal)
  else if opcodeOf w = 0x63 then (if r1 && r2 && f3 != 2 && f3 != 3 then .branch else .illegal)
  else if opcodeOf w = 0x6F then (if rd then .jump else .illegal)
  else if opcodeOf w = 0x67 then (if rd && r1 && f3 == 0 then .jump else .illegal)
  else if opcodeOf w = 0x03 then (if rd && r1 && (f3 < 3 || f3 == 4 || f3 == 5) then .load else .illegal)
  else if opcodeOf w = 0x23 then (if r1 && r2 && f3 < 3 then .store else .illegal)
  else if opcodeOf w = 0x73 then
    (if rd && f3 == 2 && rs1Of w == 0 && bits w 31 20 == 0xC00 then .rdcycle else .illegal)
  else if opcodeOf w = 0x0B then streamClass w
  else .illegal

/-- Acs of an instruction (R89). -/
def classLen : CoreClass → Nat
  | .mul => 2 | .branch => 2 | .jump => 2 | .load => 2 | .sLdw => 2
  | .alu => 1 | .store => 1 | .rdcycle => 1 | .sPop => 1 | .sPush => 1 | .sGet => 1 | .sPut => 1
  | .sStw => 1 | .sCtr => 1 | .sTag => 1 | .sSettag => 1 | .sEnd => 1 | .illegal => 1

/-! ## The core context -/

def coreOf (s : State) (x : Site) : CoreCtx := look (tileOf s x.k).cores x.sl.ix
def setCore (s : State) (x : Site) (f : CoreCtx → CoreCtx) : State :=
  setTile s x.k fun t => { t with cores := upd t.cores x.sl.ix f }

/-- x0 reads as zero. -/
def readX (c : CoreCtx) (r : Nat) : BitVec 32 := if r = 0 then 0 else c.regs.getD (r - 1) 0
/-- A write of x0 is discarded. -/
def writeX (c : CoreCtx) (r : Nat) (v : BitVec 32) : CoreCtx :=
  if r = 0 then c else { c with regs := c.regs.set (r - 1) v }

def wbOf (c : CoreCtx) (i : Nat) : TWord := c.wb.getD i {}
def setWb (c : CoreCtx) (i : Nat) (w : TWord) : CoreCtx := { c with wb := c.wb.set i w }

/-- The instruction at the program counter, which counts bytes from ENTRY; none past the body or
misaligned (R77, R89). -/
def fetchWord (x : Site) (c : CoreCtx) : Option Nat :=
  let i := x.sl.entry + c.pc / 4
  if c.pc % 4 = 0 ∧ i < 384 then some (leTab x.img (slotBase x.sl.ix + 0x200 + 4 * i) 4) else none

def classAt (x : Site) (c : CoreCtx) : CoreClass :=
  match fetchWord x c with
  | some w => classify w
  | none => .illegal

def wordAt (x : Site) (c : CoreCtx) : Nat := (fetchWord x c).getD 0

/-! ## Results -/

/-- Second operand of an ALU instruction and whether it is an immediate form. -/
def aluOperand (c : CoreCtx) (w : Nat) : BitVec 32 :=
  if opcodeOf w = 0x13 then BitVec.ofInt 32 (immI w) else readX c (rs2Of w)

/-- Register and immediate ALU operations, LUI, AUIPC. -/
def aluResult (c : CoreCtx) (w : Nat) : BitVec 32 :=
  let a := readX c (rs1Of w)
  let b := aluOperand c w
  let sh := b.toNat % 32
  let alt := bitOf w 30
  if opcodeOf w = 0x37 then BitVec.ofNat 32 (immU w)
  else if opcodeOf w = 0x17 then BitVec.ofNat 32 (c.pc + immU w)
  else match funct3Of w with
    | 0 => if opcodeOf w = 0x33 ∧ alt then a - b else a + b
    | 1 => a <<< sh
    | 2 => if a.slt b then 1 else 0
    | 3 => if a.ult b then 1 else 0
    | 4 => a ^^^ b
    | 5 => if alt then a.sshiftRight sh else a >>> sh
    | 6 => a ||| b
    | _ => a &&& b

/-- MUL, MULH, MULHSU, MULHU. -/
def mulResult (c : CoreCtx) (w : Nat) : BitVec 32 :=
  let a := readX c (rs1Of w)
  let b := readX c (rs2Of w)
  match funct3Of w with
  | 0 => a * b
  | 1 => BitVec.ofInt 32 (a.toInt * b.toInt / 2 ^ 32)
  | 2 => BitVec.ofInt 32 (a.toInt * b.toNat / 2 ^ 32)
  | _ => BitVec.ofNat 32 (a.toNat * b.toNat / 2 ^ 32)

/-- A conditional branch is taken. -/
def branchTaken (c : CoreCtx) (w : Nat) : Bool :=
  let a := readX c (rs1Of w)
  let b := readX c (rs2Of w)
  match funct3Of w with
  | 0 => decide (a = b)
  | 1 => decide (a ≠ b)
  | 4 => a.slt b
  | 5 => !a.slt b
  | 6 => a.ult b
  | _ => !a.ult b

def pcAfter (c : CoreCtx) (d : Int) : Nat := wrapInt 32 (c.pc + d)

/-- Byte address of a load or store. -/
def memAddr (c : CoreCtx) (w : Nat) : Nat :=
  wrapInt 32 ((readX c (rs1Of w)).toNat + (if opcodeOf w = 0x23 then immS w else immI w))

/-- Bytes a load or store moves. -/
def memSize (w : Nat) : Nat := 2 ^ (funct3Of w % 4)

def loadValue (w : Nat) (b : List Byte) : BitVec 32 :=
  let v := ofLe b
  if funct3Of w < 4 then BitVec.ofInt 32 (signedOf (8 * memSize w) v) else BitVec.ofNat 32 v

def nextPc (c : CoreCtx) : CoreCtx := { c with pc := pcAfter c 4 }

/-! ## Effects -/

/-- An aligned access inside the window is made; any other raises the address fault (R79, R89, R95). -/
def coreLoad (s : State) (x : Site) (c : CoreCtx) (w : Nat) : State :=
  let a := memAddr c w
  if a % memSize w ≠ 0 then slotFault s x 6
  else match windowRead s x a (memSize w) with
    | some b => setCore s x fun c => nextPc (writeX c (rdOf w) (loadValue w b))
    | none => slotFault s x 6

def coreStore (s : State) (x : Site) (c : CoreCtx) (w : Nat) : State :=
  let a := memAddr c w
  if a % memSize w ≠ 0 ∨ x.sl.lsLen < a + memSize w then slotFault s x 6
  else setCore (windowWrite s x a (leBytes (memSize w) (readX c (rs2Of w)).toNat)) x nextPc

def coreLdw (s : State) (x : Site) (c : CoreCtx) (w : Nat) : State :=
  let a := (readX c (rs1Of w)).toNat
  if a % 4 ≠ 0 then slotFault s x 6
  else match windowRead s x a 20 with
    | some b => setCore s x fun c =>
        nextPc (setWb c (rdOf w) { wbOf c (rdOf w) with payload := BitVec.ofNat 160 (ofLe b), kind := 0, tag := 0 })
    | none => slotFault s x 6

def coreStw (s : State) (x : Site) (c : CoreCtx) (w : Nat) : State :=
  let a := (readX c (rs1Of w)).toNat
  if a % 4 ≠ 0 ∨ x.sl.lsLen < a + 20 then slotFault s x 6
  else setCore (windowWrite s x a (leBytes 20 (wbOf c (rs2Of w)).payload.toNat)) x nextPc

def corePop (s : State) (x : Site) (w : Nat) : State :=
  match popQueue s x (rs1Of w) with
  | (s, none) => s
  | (s, some v) => setCore s x fun c => nextPc (setWb c (rdOf w) v)

def corePush (s : State) (x : Site) (c : CoreCtx) (w : Nat) : State :=
  setCore (pushOut s x (tileOf s x.k).ac
    { wbOf c (rs1Of w) with queue := BitVec.ofNat 3 (rs2Of w), kind := BitVec.ofNat 4 (funct7Of w) }) x nextPc

def laneOf (p : BitVec 160) (l : Nat) : BitVec 32 := BitVec.ofNat 32 (bits p.toNat (32 * l + 31) (32 * l))

def setLane (p : BitVec 160) (l : Nat) (v : BitVec 32) : BitVec 160 :=
  BitVec.ofNat 160 (p.toNat - bits p.toNat (32 * l + 31) (32 * l) * 2 ^ (32 * l) + v.toNat * 2 ^ (32 * l))

/-- The effect of an instruction in its first ac. -/
def coreEffect (s : State) (x : Site) (k : CoreClass) (c : CoreCtx) (w : Nat) : State :=
  match k with
  | .alu => setCore s x fun c => nextPc (if opcodeOf w = 0x0F then c else writeX c (rdOf w) (aluResult c w))
  | .mul => setCore s x fun c => nextPc (writeX c (rdOf w) (mulResult c w))
  | .branch => setCore s x fun c => { c with pc := pcAfter c (if branchTaken c w then immB w else 4) }
  | .jump => setCore s x fun c =>
      let target := if opcodeOf w = 0x6F then pcAfter c (immJ w)
        else wrapInt 32 ((readX c (rs1Of w)).toNat + immI w) / 2 * 2
      { writeX c (rdOf w) (BitVec.ofNat 32 (c.pc + 4)) with pc := target }
  | .load => coreLoad s x c w
  | .store => coreStore s x c w
  | .rdcycle => setCore s x fun c => nextPc (writeX c (rdOf w) (BitVec.ofNat 32 c.spent))
  | .sPop => corePop s x w
  | .sPush => corePush s x c w
  | .sGet => setCore s x fun c => nextPc (writeX c (rdOf w) (laneOf (wbOf c (rs1Of w)).payload (funct7Of w)))
  | .sPut => setCore s x fun c =>
      nextPc (setWb c (rdOf w) { wbOf c (rdOf w) with
        payload := setLane (wbOf c (rdOf w)).payload (funct7Of w) (readX c (rs2Of w)) })
  | .sLdw => coreLdw s x c w
  | .sStw => coreStw s x c w
  | .sCtr => setCore s x fun c => nextPc (writeX c (rdOf w) ((x.d.ctrs.getD (rs1Of w) 0).setWidth 32))
  | .sTag => setCore s x fun c => nextPc (writeX c (rdOf w) ((wbOf c (rs1Of w)).tag.setWidth 32))
  | .sSettag => setCore s x fun c =>
      nextPc (setWb c (rs1Of w) { wbOf c (rs1Of w) with tag := (readX c (rs2Of w)).setWidth 16 })
  | .sEnd => setCore s x fun c => nextPc { c with ended := true }
  | .illegal => slotFault s x 8

/-- An ac of the firing is spent. In its last, a firing without s.end ends with the budget fault (R91). -/
def spendAc (s : State) (x : Site) : State :=
  let s := setCore s x fun c => { c with left := c.left - 1, spent := c.spent + 1, busy := c.busy - 1 }
  let c := coreOf s x
  if c.left = 0 ∧ c.ended = false ∧ suppressed s x = false then slotFault s x 9 else s

/-- The firing ends and the sequencer goes on. -/
def endFiring (s : State) (x : Site) : State :=
  finishEntry (setCore s x fun c => { c with left := 0, running := false, busy := 0 }) x none

/-- One ac of a firing; after its last the firing ends. -/
def coreAc (s : State) (x : Site) (act : State → State) : State :=
  let s := acStep (countSteps s (siteCtx s x) 1) x fun s => spendAc (act s) x
  if (coreOf s x).left = 0 then endFiring s x else s

/-- The firing in progress idles, or an instruction goes on, for at most n ac while a test holds and the tile has
heard. -/
def coreIdle (k : Nat) (go : State → Site → Bool) : Nat → State → State
  | 0, s => s
  | n + 1, s =>
    match siteOf s k with
    | none => s
    | some x => if coreBusy s x && go s x && heard s x then coreIdle k go n (coreAc s x fun s => s) else s

/-- The rest of the acs of the instruction in progress. -/
def coreTail (s : State) (k : Nat) : State := coreIdle k (fun s x => decide (0 < (coreOf s x).busy)) 2 s

/-- One instruction: its effect in the first of its acs, then the rest of them as far as the tile has heard. -/
def coreInstr (s : State) (x : Site) (k : CoreClass) : State :=
  let c := coreOf s x
  let s := coreAc s x fun s => coreEffect (setCore s x fun c => { c with busy := classLen k }) x k c (wordAt x c)
  coreTail s x.k

/-- The core may execute an instruction of this class now: a firing runs, has not ended and is not
suppressed, none is in progress, the budget holds the instruction, the program counter names one of the class, and
the tile has heard. -/
def coreReady (s : State) (x : Site) (k : CoreClass) : Bool :=
  let c := coreOf s x
  coreBusy s x && !c.ended && !suppressed s x && decide (c.busy = 0) && decide (classAt x c = k) &&
    decide (classLen k ≤ c.left) && heard s x

def coreRow (die tile : Nat) (k : CoreClass) (s : State) : Out1 :=
  if 39 < die ∨ 255 < tile then .fault (.noSuchTile die tile)
  else
    let t := coreTail s (tileKey die tile)
    done s (match siteOf t (tileKey die tile) with
      | some x => if coreReady t x k then coreInstr t x k else t
      | none => t)

/-- The firing idles to its end: after s.end or a fault, or where the next instruction does not fit any more. -/
def budgetDone (s : State) (x : Site) : Bool :=
  let c := coreOf s x
  decide (c.busy = 0) && (c.ended || suppressed s x || decide (c.left < classLen (classAt x c)))

/-- CORE_BUDGET_EXPIRY (R91): the rest of the budget passes, and with its last ac the firing ends. -/
def execCoreBudgetExpiry (die tile : Nat) (s : State) : Out1 :=
  if 39 < die ∨ 255 < tile then .fault (.noSuchTile die tile)
  else
    let t := coreTail s (tileKey die tile)
    done s (match siteOf t (tileKey die tile) with
      | some x => coreIdle x.k budgetDone (coreOf t x).left t
      | none => t)

/-- CORE_ALU (R89). -/
def execCoreAlu (die tile : Nat) (s : State) : Out1 := coreRow die tile .alu s
/-- CORE_MUL (R89). -/
def execCoreMul (die tile : Nat) (s : State) : Out1 := coreRow die tile .mul s
/-- CORE_BRANCH (R89). -/
def execCoreBranch (die tile : Nat) (s : State) : Out1 := coreRow die tile .branch s
/-- CORE_JUMP (R89). -/
def execCoreJump (die tile : Nat) (s : State) : Out1 := coreRow die tile .jump s
/-- CORE_LOAD (R89). -/
def execCoreLoad (die tile : Nat) (s : State) : Out1 := coreRow die tile .load s
/-- CORE_STORE (R89). -/
def execCoreStore (die tile : Nat) (s : State) : Out1 := coreRow die tile .store s
/-- RDCYCLE (R89). -/
def execRdcycle (die tile : Nat) (s : State) : Out1 := coreRow die tile .rdcycle s
/-- CORE_ILLEGAL_INSTRUCTION (R89). -/
def execCoreIllegalInstruction (die tile : Nat) (s : State) : Out1 := coreRow die tile .illegal s
/-- S_POP (R90). -/
def execSPop (die tile : Nat) (s : State) : Out1 := coreRow die tile .sPop s
/-- S_PUSH (R90). -/
def execSPush (die tile : Nat) (s : State) : Out1 := coreRow die tile .sPush s
/-- S_GET (R90). -/
def execSGet (die tile : Nat) (s : State) : Out1 := coreRow die tile .sGet s
/-- S_PUT (R90). -/
def execSPut (die tile : Nat) (s : State) : Out1 := coreRow die tile .sPut s
/-- S_LDW (R90). -/
def execSLdw (die tile : Nat) (s : State) : Out1 := coreRow die tile .sLdw s
/-- S_STW (R90). -/
def execSStw (die tile : Nat) (s : State) : Out1 := coreRow die tile .sStw s
/-- S_CTR (R90). -/
def execSCtr (die tile : Nat) (s : State) : Out1 := coreRow die tile .sCtr s
/-- S_TAG (R90). -/
def execSTag (die tile : Nat) (s : State) : Out1 := coreRow die tile .sTag s
/-- S_SETTAG (R90). -/
def execSSettag (die tile : Nat) (s : State) : Out1 := coreRow die tile .sSettag s
/-- S_END (R90). -/
def execSEnd (die tile : Nat) (s : State) : Out1 := coreRow die tile .sEnd s

end Sys2Proof.Machine
end

