-- ==== Sys2Proof/Machine/Dispatch.lean ====
section
/-!
DEFINITION. One arm per command: the dispatch of a command to its meaning.
-/

open Host

namespace Sys2Proof.Machine

/-- The effect of a command on everything but the queue of waiting commands. Log 8, DESIGN CHOICE. -/
def exec (i : Instr) (s : State) : Host.Outcome State Fault Refusal :=
  match i with
  | .registerWrite acc addr size data => Sys2Proof.Machine.execRegisterWrite acc addr size data s
  | .counterLowWordRead acc addr => Sys2Proof.Machine.execCounterLowWordRead acc addr s
  | .tckCtrlWrite v data => Sys2Proof.Machine.execTckCtrlWrite v data s
  | .tckPhaseWrite v data => Sys2Proof.Machine.execTckPhaseWrite v data s
  | .stepEnd close => Sys2Proof.Machine.execStepEnd close s
  | .ptpAnnounce port sub a => Sys2Proof.Machine.execPtpAnnounce port sub a s
  | .ptpSync port sub offsetPs => Sys2Proof.Machine.execPtpSync port sub offsetPs s
  | .ptpDelayReq off => Sys2Proof.Machine.execPtpDelayReq off s
  | .esmcMessage port sub ssm => Sys2Proof.Machine.execEsmcMessage port sub ssm s
  | .synceStatusChange present => Sys2Proof.Machine.execSynceStatusChange present s
  | .lockTimerExpiry => Sys2Proof.Machine.execLockTimerExpiry s
  | .lostTimerExpiry => Sys2Proof.Machine.execLostTimerExpiry s
  | .announceReceiptTimeout => Sys2Proof.Machine.execAnnounceReceiptTimeout s
  | .servoUpdateTimeout => Sys2Proof.Machine.execServoUpdateTimeout s
  | .holdoverExpiry => Sys2Proof.Machine.execHoldoverExpiry s
  | .tickBoundary powerMw => Sys2Proof.Machine.execTickBoundary powerMw s
  | .sliceBoundary slice => Sys2Proof.Machine.execSliceBoundary slice s
  | .changeoverEnd slice => Sys2Proof.Machine.execChangeoverEnd slice s
  | .refreshBeat pc off => Sys2Proof.Machine.execRefreshBeat pc off s
  | .sigPoll gapUs => Sys2Proof.Machine.execSigPoll gapUs s
  | .sigPollGapRead v => Sys2Proof.Machine.execSigPollGapRead v s
  | .seqWait die tile => Sys2Proof.Machine.execSeqWait die tile s
  | .seqFire die tile => Sys2Proof.Machine.execSeqFire die tile s
  | .seqFireIf die tile => Sys2Proof.Machine.execSeqFireIf die tile s
  | .seqFold die tile => Sys2Proof.Machine.execSeqFold die tile s
  | .seqLoad die tile => Sys2Proof.Machine.execSeqLoad die tile s
  | .seqSelect die tile => Sys2Proof.Machine.execSeqSelect die tile s
  | .seqRead die tile => Sys2Proof.Machine.execSeqRead die tile s
  | .rawReadout die tile => Sys2Proof.Machine.execRawReadout die tile s
  | .seqEnd die tile => Sys2Proof.Machine.execSeqEnd die tile s
  | .tagFiring die tile => Sys2Proof.Machine.execTagFiring die tile s
  | .exactMerge die tile => Sys2Proof.Machine.execExactMerge die tile s
  | .sfExponential die tile => Sys2Proof.Machine.execSfExponential die tile s
  | .sfLogarithm die tile => Sys2Proof.Machine.execSfLogarithm die tile s
  | .sfReciprocal die tile => Sys2Proof.Machine.execSfReciprocal die tile s
  | .sfReciprocalSquareRoot die tile => Sys2Proof.Machine.execSfReciprocalSquareRoot die tile s
  | .sfSigmoid die tile => Sys2Proof.Machine.execSfSigmoid die tile s
  | .sfTanh die tile => Sys2Proof.Machine.execSfTanh die tile s
  | .softmaxPass1 die tile => Sys2Proof.Machine.execSoftmaxPass1 die tile s
  | .softmaxPass2 die tile => Sys2Proof.Machine.execSoftmaxPass2 die tile s
  | .radix4Butterfly die tile => Sys2Proof.Machine.execRadix4Butterfly die tile s
  | .minSumCheckNodeUpdate die tile => Sys2Proof.Machine.execMinSumCheckNodeUpdate die tile s
  | .minSumDemapping die tile => Sys2Proof.Machine.execMinSumDemapping die tile s
  | .memoryTileRead die tile => Sys2Proof.Machine.execMemoryTileRead die tile s
  | .memoryTileWrite die tile => Sys2Proof.Machine.execMemoryTileWrite die tile s
  | .coreFiring die tile => Sys2Proof.Machine.execCoreFiring die tile s
  | .coreBudgetExpiry die tile => Sys2Proof.Machine.execCoreBudgetExpiry die tile s
  | .coreAlu die tile => Sys2Proof.Machine.execCoreAlu die tile s
  | .coreMul die tile => Sys2Proof.Machine.execCoreMul die tile s
  | .coreBranch die tile => Sys2Proof.Machine.execCoreBranch die tile s
  | .coreJump die tile => Sys2Proof.Machine.execCoreJump die tile s
  | .coreLoad die tile => Sys2Proof.Machine.execCoreLoad die tile s
  | .coreStore die tile => Sys2Proof.Machine.execCoreStore die tile s
  | .rdcycle die tile => Sys2Proof.Machine.execRdcycle die tile s
  | .coreIllegalInstruction die tile => Sys2Proof.Machine.execCoreIllegalInstruction die tile s
  | .sPop die tile => Sys2Proof.Machine.execSPop die tile s
  | .sPush die tile => Sys2Proof.Machine.execSPush die tile s
  | .sGet die tile => Sys2Proof.Machine.execSGet die tile s
  | .sPut die tile => Sys2Proof.Machine.execSPut die tile s
  | .sLdw die tile => Sys2Proof.Machine.execSLdw die tile s
  | .sStw die tile => Sys2Proof.Machine.execSStw die tile s
  | .sCtr die tile => Sys2Proof.Machine.execSCtr die tile s
  | .sTag die tile => Sys2Proof.Machine.execSTag die tile s
  | .sSettag die tile => Sys2Proof.Machine.execSSettag die tile s
  | .sEnd die tile => Sys2Proof.Machine.execSEnd die tile s
  | .tickClose ctx off => Sys2Proof.Machine.execTickClose ctx off s
  | .ttbTraceArm v part data => Sys2Proof.Machine.execTtbTraceArm v part data s
  | .dlbEnWrite v ctx data => Sys2Proof.Machine.execDlbEnWrite v ctx data s
  | .hbmSlotRead ctx desc => Sys2Proof.Machine.execHbmSlotRead ctx desc s
  | .hbmSlotWrite ctx desc => Sys2Proof.Machine.execHbmSlotWrite ctx desc s
  | .requestReady q off => Sys2Proof.Machine.execRequestReady q off s
  | .entryOffset ctx off => Sys2Proof.Machine.execEntryOffset ctx off s
  | .exitResult ctx word off => Sys2Proof.Machine.execExitResult ctx word off s
  | .fillStart part quad off => Sys2Proof.Machine.execFillStart part quad off s
  | .fillComplete part quad => Sys2Proof.Machine.execFillComplete part quad s
  | .scanComplete part quad => Sys2Proof.Machine.execScanComplete part quad s
  | .libInstallDone entry => Sys2Proof.Machine.execLibInstallDone entry s
  | .engineAccess pc => Sys2Proof.Machine.execEngineAccess pc s
  | .rekeyStart pc => Sys2Proof.Machine.execRekeyStart pc s
  | .rekeyDone pc => Sys2Proof.Machine.execRekeyDone pc s
  | .pageClearDone pc page => Sys2Proof.Machine.execPageClearDone pc page s
  | .epochGrant hub dom => Sys2Proof.Machine.execEpochGrant hub dom s
  | .hostPoolRead func ctx addr len => Sys2Proof.Machine.execHostPoolRead func ctx addr len s
  | .hostPoolWrite func ctx addr bytes => Sys2Proof.Machine.execHostPoolWrite func ctx addr bytes s
  | .stalledWriteResume pc => Sys2Proof.Machine.execStalledWriteResume pc s
  | .memScrubDue => Sys2Proof.Machine.execMemScrubDue s
  | .scrubDone => Sys2Proof.Machine.execScrubDone s
  | .frameSfd port sub off => Sys2Proof.Machine.execFrameSfd port sub off s
  | .frameHeaderDecision port sub hdr off => Sys2Proof.Machine.execFrameHeaderDecision port sub hdr off s
  | .requestDescriptorsArrived port sub body off => Sys2Proof.Machine.execRequestDescriptorsArrived port sub body off s
  | .frameEnd port sub bytes off => Sys2Proof.Machine.execFrameEnd port sub bytes off s
  | .verdict port sub bytes ended off => Sys2Proof.Machine.execVerdict port sub bytes ended off s
  | .replyHandover binding hold off => Sys2Proof.Machine.execReplyHandover binding hold off s
  | .replySeqGrant die dom => Sys2Proof.Machine.execReplySeqGrant die dom s
  | .txFrame q => Sys2Proof.Machine.execTxFrame q s
  | .egressChoice port sub off => Sys2Proof.Machine.execEgressChoice port sub off s
  | .macLinkChange port sub up => Sys2Proof.Machine.execMacLinkChange port sub up s
  | .macSplitWrite v port data => Sys2Proof.Machine.execMacSplitWrite v port data s
  | .srtShadowRuleWrite v byteOff size data => Sys2Proof.Machine.execSrtShadowRuleWrite v byteOff size data s
  | .srtCopyDone => Sys2Proof.Machine.execSrtCopyDone s
  | .egsRingWrite v q data => Sys2Proof.Machine.execEgsRingWrite v q data s
  | .segRadioWaitRead v die => Sys2Proof.Machine.execSegRadioWaitRead v die s
  | .cipherMessageSubmit die stream ctx len key => Sys2Proof.Machine.execCipherMessageSubmit die stream ctx len key s
  | .enginePeriod die unit => Sys2Proof.Machine.execEnginePeriod die unit s
  | .stbFrame bytes => Sys2Proof.Machine.execStbFrame bytes s
  | .stbStatusRequest src seq => Sys2Proof.Machine.execStbStatusRequest src seq s
  | .stbCollision => Sys2Proof.Machine.execStbCollision s
  | .stbBackoffExpiry => Sys2Proof.Machine.execStbBackoffExpiry s
  | .plcaLost => Sys2Proof.Machine.execPlcaLost s
  | .resetHeldNotice => Sys2Proof.Machine.execResetHeldNotice s
  | .cplaneSend carrier symbol => Sys2Proof.Machine.execCplaneSend carrier symbol s
  | .uplaneSend carrier symbol => Sys2Proof.Machine.execUplaneSend carrier symbol s
  | .uplaneReceive port sub carrier symbol prb iq exp timeNs airNs bad => Sys2Proof.Machine.execUplaneReceive port sub carrier symbol prb iq exp timeNs airNs bad s
  | .uplinkDelivery carrier symbol => Sys2Proof.Machine.execUplinkDelivery carrier symbol s
  | .ecpriDelayMeasurement port sub msg off => Sys2Proof.Machine.execEcpriDelayMeasurement port sub msg off s
  | .ldpcDecode die port => Sys2Proof.Machine.execLdpcDecode die port s
  | .ldpcEncode die port => Sys2Proof.Machine.execLdpcEncode die port s
  | .fecReturn die port => Sys2Proof.Machine.execFecReturn die port s
  | .partCellSWrite v byteOff data => Sys2Proof.Machine.execPartCellSWrite v byteOff data s
  | .partHartRsvWrite v word data => Sys2Proof.Machine.execPartHartRsvWrite v word data s
  | .guestEntry hart func => Sys2Proof.Machine.execGuestEntry hart func s
  | .guestExit hart save regs => Sys2Proof.Machine.execGuestExit hart save regs s
  | .monitorHartSwitch hart => Sys2Proof.Machine.execMonitorHartSwitch hart s
  | .vfQuotaWrite v func quota data => Sys2Proof.Machine.execVfQuotaWrite v func quota data s
  | .vfTctrlWrite v func data => Sys2Proof.Machine.execVfTctrlWrite v func data s
  | .mbxTSend func data => Sys2Proof.Machine.execMbxTSend func data s
  | .mbxOutAck v data => Sys2Proof.Machine.execMbxOutAck v data s
  | .mbxInPost v data => Sys2Proof.Machine.execMbxInPost v data s
  | .mbxTInAck func data => Sys2Proof.Machine.execMbxTInAck func data s
  | .mbxTNtailWrite func data => Sys2Proof.Machine.execMbxTNtailWrite func data s
  | .mbxTimeoutExpiry func outbound => Sys2Proof.Machine.execMbxTimeoutExpiry func outbound s
  | .queueDoorbell func slot index => Sys2Proof.Machine.execQueueDoorbell func slot index s
  | .cmdRingResume q => Sys2Proof.Machine.execCmdRingResume q s
  | .deferredCommandStatus q => Sys2Proof.Machine.execDeferredCommandStatus q s
  | .barrierEntryDeferred q => Sys2Proof.Machine.execBarrierEntryDeferred q s
  | .nop h => Sys2Proof.Machine.execNop h s
  | .planSwap h => Sys2Proof.Machine.execPlanSwap h s
  | .radioReserve h part slices boundary qmask => Sys2Proof.Machine.execRadioReserve h part slices boundary qmask s
  | .partOpen h part radio func => Sys2Proof.Machine.execPartOpen h part radio func s
  | .partClose h part => Sys2Proof.Machine.execPartClose h part s
  | .partReturn h part => Sys2Proof.Machine.execPartReturn h part s
  | .partIsolate h part => Sys2Proof.Machine.execPartIsolate h part s
  | .ctxCreate h part slot seed => Sys2Proof.Machine.execCtxCreate h part slot seed s
  | .ctxRemove h ctx => Sys2Proof.Machine.execCtxRemove h ctx s
  | .ctxSeed h ctx seed => Sys2Proof.Machine.execCtxSeed h ctx seed s
  | .ariSeedWrite v data => Sys2Proof.Machine.execAriSeedWrite v data s
  | .ariSeedLowWrite v data => Sys2Proof.Machine.execAriSeedLowWrite v data s
  | .ariSeedHighWrite v data => Sys2Proof.Machine.execAriSeedHighWrite v data s
  | .ariSeedSelWrite v data => Sys2Proof.Machine.execAriSeedSelWrite v data s
  | .ttAdmit h ctx group run image report imageLen reportLen => Sys2Proof.Machine.execTtAdmit h ctx group run image report imageLen reportLen s
  | .ttWithdraw h ctx => Sys2Proof.Machine.execTtWithdraw h ctx s
  | .ttResume h ctx => Sys2Proof.Machine.execTtResume h ctx s
  | .quotaForce h func qTick => Sys2Proof.Machine.execQuotaForce h func qTick s
  | .sdgFill h part source quad entry mask => Sys2Proof.Machine.execSdgFill h part source quad entry mask s
  | .sdgSwap h part strict slice boundary qmask => Sys2Proof.Machine.execSdgSwap h part strict slice boundary qmask s
  | .shuntStart h part mask qmask => Sys2Proof.Machine.execShuntStart h part mask qmask s
  | .shuntStop h part => Sys2Proof.Machine.execShuntStop h part s
  | .libInstall h part image report imageLen reportLen => Sys2Proof.Machine.execLibInstall h part image report imageLen reportLen s
  | .libRemove h entry => Sys2Proof.Machine.execLibRemove h entry s
  | .libtileAssign h part quad tiles => Sys2Proof.Machine.execLibtileAssign h part quad tiles s
  | .libtileRelease h quad tiles => Sys2Proof.Machine.execLibtileRelease h quad tiles s
  | .scanOut h part quad dest => Sys2Proof.Machine.execScanOut h part quad dest s
  | .scanDump h part quad dest => Sys2Proof.Machine.execScanDump h part quad dest s
  | .scanIn h part quad src len => Sys2Proof.Machine.execScanIn h part quad src len s
  | .pcAssign h pc owner sealed => Sys2Proof.Machine.execPcAssign h pc owner sealed s
  | .pcFree h pc => Sys2Proof.Machine.execPcFree h pc s
  | .pageAssign h pc kind page owner frame => Sys2Proof.Machine.execPageAssign h pc kind page owner frame s
  | .pageRelease h pc page => Sys2Proof.Machine.execPageRelease h pc page s
  | .scrubPass h spread pcmask => Sys2Proof.Machine.execScrubPass h spread pcmask s
  | .regionRekey h pc page => Sys2Proof.Machine.execRegionRekey h pc page s
  | .srtSwap h => Sys2Proof.Machine.execSrtSwap h s
  | .bind h entryQ replyRing bulkQ recallQ tenant model fOut bulkEn descN descAddr => Sys2Proof.Machine.execBind h entryQ replyRing bulkQ recallQ tenant model fOut bulkEn descN descAddr s
  | .unbind h entryQ => Sys2Proof.Machine.execUnbind h entryQ s
  | .macsecSak h port sub chan an suite src => Sys2Proof.Machine.execMacsecSak h port sub chan an suite src s
  | .queAssign h q func kind log2 vec dbslot peer base => Sys2Proof.Machine.execQueAssign h q func kind log2 vec dbslot peer base s
  | .queRelease h q => Sys2Proof.Machine.execQueRelease h q s
  | .queEnable h q => Sys2Proof.Machine.execQueEnable h q s
  | .queDisable h q => Sys2Proof.Machine.execQueDisable h q s
  | .carrierCfg h carrier addr boundary => Sys2Proof.Machine.execCarrierCfg h carrier addr boundary s
  | .carrierRemove h carrier boundary => Sys2Proof.Machine.execCarrierRemove h carrier boundary s
  | .vfAssign h func tenant => Sys2Proof.Machine.execVfAssign h func tenant s
  | .vfRelease h func => Sys2Proof.Machine.execVfRelease h func s
  | .keyInstall h slot addr => Sys2Proof.Machine.execKeyInstall h slot addr s
  | .attest h part dest nonce => Sys2Proof.Machine.execAttest h part dest nonce s
  | .certGet h which dest => Sys2Proof.Machine.execCertGet h which dest s
  | .ctxReset h ctx => Sys2Proof.Machine.execCtxReset h ctx s
  | .ctxResetDone ctx => Sys2Proof.Machine.execCtxResetDone ctx s
  | .partReset h part => Sys2Proof.Machine.execPartReset h part s
  | .partResetCollectEnd part => Sys2Proof.Machine.execPartResetCollectEnd part s
  | .partResetDone part => Sys2Proof.Machine.execPartResetDone part s
  | .resetOvertime part => Sys2Proof.Machine.execResetOvertime part s
  | .deviceReset h => Sys2Proof.Machine.execDeviceReset h s
  | .levelDrop h level => Sys2Proof.Machine.execLevelDrop h level s
  | .hbmRetrain h pc => Sys2Proof.Machine.execHbmRetrain h pc s
  | .hbmCopyDone pc => Sys2Proof.Machine.execHbmCopyDone pc s
  | .hbmRetrainDone pc pass => Sys2Proof.Machine.execHbmRetrainDone pc pass s
  | .smUpdate h image len => Sys2Proof.Machine.execSmUpdate h image len s
  | .smMirrorDone => Sys2Proof.Machine.execSmMirrorDone s
  | .smUpdateDone => Sys2Proof.Machine.execSmUpdateDone s
  | .scUpdate h image len => Sys2Proof.Machine.execScUpdate h image len s
  | .scUpdateDone => Sys2Proof.Machine.execScUpdateDone s
  | .serdesRecal h port => Sys2Proof.Machine.execSerdesRecal h port s
  | .serdesRecalDone port linkDown => Sys2Proof.Machine.execSerdesRecalDone port linkDown s
  | .dieRetire h die => Sys2Proof.Machine.execDieRetire h die s
  | .admitRebuild h => Sys2Proof.Machine.execAdmitRebuild h s
  | .fabricIdSet h id => Sys2Proof.Machine.execFabricIdSet h id s
  | .routeSwap h => Sys2Proof.Machine.execRouteSwap h s
  | .resetPinMask h mask => Sys2Proof.Machine.execResetPinMask h mask s
  | .trkPortCtrlWrite v port data => Sys2Proof.Machine.execTrkPortCtrlWrite v port data s
  | .trkPortSkewRead v port => Sys2Proof.Machine.execTrkPortSkewRead v port s
  | .trunkTrainingDone port cause => Sys2Proof.Machine.execTrunkTrainingDone port cause s
  | .trunkIdentify port peerId peerPort peerLatFix => Sys2Proof.Machine.execTrunkIdentify port peerId peerPort peerLatFix s
  | .trunkAgree port peerEphemeral peerGenuine => Sys2Proof.Machine.execTrunkAgree port peerEphemeral peerGenuine s
  | .trunkMeasure port roundTrip => Sys2Proof.Machine.execTrunkMeasure port roundTrip s
  | .trunkRetry port => Sys2Proof.Machine.execTrunkRetry port s
  | .trunkLinkDown port cause => Sys2Proof.Machine.execTrunkLinkDown port cause s
  | .trunkCellSend port slot => Sys2Proof.Machine.execTrunkCellSend port slot s
  | .trunkCellReceive port cell arrival uncorrectable => Sys2Proof.Machine.execTrunkCellReceive port cell arrival uncorrectable s
  | .vc0Delivery port slot => Sys2Proof.Machine.execVc0Delivery port slot s
  | .keyRatchet port rx => Sys2Proof.Machine.execKeyRatchet port rx s
  | .messageForward port => Sys2Proof.Machine.execMessageForward port s
  | .brakeReceived port job pass cause member off => Sys2Proof.Machine.execBrakeReceived port job pass cause member off s
  | .readyReceived job member chips period phase run => Sys2Proof.Machine.execReadyReceived job member chips period phase run s
  | .goReceived job ts off => Sys2Proof.Machine.execGoReceived job ts off s
  | .barrierTimeout ctx => Sys2Proof.Machine.execBarrierTimeout ctx s
  | .routeDrainEnd => Sys2Proof.Machine.execRouteDrainEnd s
  | .heartbeatWatchdog => Sys2Proof.Machine.execHeartbeatWatchdog s
  | .mgmtWatchdog => Sys2Proof.Machine.execMgmtWatchdog s
  | .scWatchdog => Sys2Proof.Machine.execScWatchdog s
  | .hostTimeout func addr len => Sys2Proof.Machine.execHostTimeout func addr len s
  | .quarantineReplay => Sys2Proof.Machine.execQuarantineReplay s
  | .functionLevelReset func => Sys2Proof.Machine.execFunctionLevelReset func s
  | .vfEnableClear => Sys2Proof.Machine.execVfEnableClear s
  | .perstNAssert => Sys2Proof.Machine.execPerstNAssert s
  | .fltEscWrite v which data => Sys2Proof.Machine.execFltEscWrite v which data s
  | .powerOn => Sys2Proof.Machine.execPowerOn s
  | .railPowerGood group => Sys2Proof.Machine.execRailPowerGood group s
  | .railPgTimeout group => Sys2Proof.Machine.execRailPgTimeout group s
  | .bootScRom => Sys2Proof.Machine.execBootScRom s
  | .bootScFw => Sys2Proof.Machine.execBootScFw s
  | .bootMgmt => Sys2Proof.Machine.execBootMgmt s
  | .bootTrain hbmOk => Sys2Proof.Machine.execBootTrain hbmOk s
  | .bootRestore storeOk => Sys2Proof.Machine.execBootRestore storeOk s
  | .bootDone bootMs => Sys2Proof.Machine.execBootDone bootMs s
  | .powerOff => Sys2Proof.Machine.execPowerOff s
  | .pwrOkFall => Sys2Proof.Machine.execPwrOkFall s
  | .resetNAssert => Sys2Proof.Machine.execResetNAssert s
  | .resetNRelease => Sys2Proof.Machine.execResetNRelease s
  | .resetNHeld => Sys2Proof.Machine.execResetNHeld s
  | .thermalAlarm unit temp => Sys2Proof.Machine.execThermalAlarm unit temp s
  | .thermalAlarmClear temps => Sys2Proof.Machine.execThermalAlarmClear temps s
  | .thermalHot unit temp => Sys2Proof.Machine.execThermalHot unit temp s
  | .thermalTrip unit temp => Sys2Proof.Machine.execThermalTrip unit temp s
  | .scHeartbeat => Sys2Proof.Machine.execScHeartbeat s
  | .vfEnableSet numVfs => Sys2Proof.Machine.execVfEnableSet numVfs s
  | .stationManagerEnrolment mac => Sys2Proof.Machine.execStationManagerEnrolment mac s
  | .powerGoodDeassert group => Sys2Proof.Machine.execPowerGoodDeassert group s
  | .escalationWindowExpiry kind part => Sys2Proof.Machine.execEscalationWindowExpiry kind part s
  | .sigClkLoss => Sys2Proof.Machine.execSigClkLoss s
  | .sigClkReturn => Sys2Proof.Machine.execSigClkReturn s
  | .plcaBeacon => Sys2Proof.Machine.execPlcaBeacon s
  | .stbTransmitOpportunity collides => Sys2Proof.Machine.execStbTransmitOpportunity collides s

end Sys2Proof.Machine
end

