-- ==== Sys2Proof/Machine/Step.lean ====
section
/-!
DEFINITION. One step of the block: the command at the front of the queue runs on the state whose queue
holds the rest. On an empty queue the block idles.
-/

namespace Sys2Proof.Machine

/-- Log 1, DESIGN CHOICE. Log 8, DESIGN CHOICE. Log 234, DEDUCED. -/
def step (s : State) : Host.Outcome State Fault Refusal :=
  match s.pending with
  | [] => .next s
  | c :: rest => exec c { s with pending := rest }

/-- The state with the command that a word spells in front of its queue; unchanged where it spells none. Log
232, DEDUCED. -/
def State.withFetchWord (s : State) (nbits w : Nat) : State :=
  match decodeTableWord nbits w with
  | some c => { s with pending := c :: s.pending }
  | none => s

end Sys2Proof.Machine
end

