-- ==== Sys2Proof/Safety.lean ====
section
/-!
DEFINITION. The terms that statements use: the invariant of every state a run can reach or start from, and
what a command of a ring or of the station bus meets between its source and its status.
-/

namespace Sys2Proof.Machine

/-! ## The invariant -/

/-- HBM contents in their canonical form: addresses strictly rising, no byte listed that an unlisted address
reads as. Every step keeps it. -/
def MachineInv (s : State) : Prop := Memory.wf s.mem = true

/-! ## Commands (R334, R433) -/

/-- The opcodes of R336: the header a command carries, and its row. -/
def commandRow : Instr → Option (CmdHdr × OpRow)
  | .nop h => some (h, { opcode := 0x0000, agent := 3, fromT := true, atBeacon := true })
  | .planSwap h => some (h, { opcode := 0x0101, agent := 1, pends := true })
  | .radioReserve h _ _ _ _ => some (h, { opcode := 0x0102, agent := 1, pends := true })
  | .partOpen h _ _ _ => some (h, { opcode := 0x0201, agent := 1 })
  | .partClose h _ => some (h, { opcode := 0x0202, agent := 1 })
  | .partReturn h _ => some (h, { opcode := 0x0203, agent := 1 })
  | .partIsolate h _ => some (h, { opcode := 0x0204, agent := 4, atBeacon := true })
  | .ctxCreate h _ _ _ => some (h, { opcode := 0x0205, agent := 1, fromT := true })
  | .ctxRemove h _ => some (h, { opcode := 0x0206, agent := 1, fromT := true })
  | .ctxSeed h _ _ => some (h, { opcode := 0x0207, agent := 2 })
  | .ttAdmit h _ _ _ _ _ _ _ => some (h, { opcode := 0x0301, agent := 1, pends := true })
  | .ttWithdraw h _ => some (h, { opcode := 0x0302, agent := 1, pends := true })
  | .ttResume h _ => some (h, { opcode := 0x0303, agent := 1, pends := true })
  | .quotaForce h _ _ => some (h, { opcode := 0x0304, agent := 1, pends := true })
  | .sdgFill h _ _ _ _ _ => some (h, { opcode := 0x0401, agent := 1, pends := true })
  | .sdgSwap h _ _ _ _ _ => some (h, { opcode := 0x0402, agent := 1, pends := true })
  | .shuntStart h _ _ _ => some (h, { opcode := 0x0403, agent := 1, pends := true })
  | .shuntStop h _ => some (h, { opcode := 0x0404, agent := 1, pends := true })
  | .libInstall h _ _ _ _ _ => some (h, { opcode := 0x0405, agent := 1 })
  | .libRemove h _ => some (h, { opcode := 0x0406, agent := 1 })
  | .libtileAssign h _ _ _ => some (h, { opcode := 0x0407, agent := 1 })
  | .libtileRelease h _ _ => some (h, { opcode := 0x0408, agent := 1 })
  | .scanOut h _ _ _ => some (h, { opcode := 0x0409, agent := 1, pends := true })
  | .scanDump h _ _ _ => some (h, { opcode := 0x040A, agent := 1, pends := true, atBeacon := true })
  | .scanIn h _ _ _ _ => some (h, { opcode := 0x040B, agent := 1, pends := true })
  | .pcAssign h _ _ _ => some (h, { opcode := 0x0501, agent := 1 })
  | .pcFree h _ => some (h, { opcode := 0x0502, agent := 1 })
  | .pageAssign h _ _ _ _ _ => some (h, { opcode := 0x0503, agent := 1 })
  | .pageRelease h _ _ => some (h, { opcode := 0x0504, agent := 1 })
  | .scrubPass h _ _ => some (h, { opcode := 0x0505, agent := 1, activity := true })
  | .regionRekey h _ _ => some (h, { opcode := 0x0506, agent := 1, activity := true })
  | .srtSwap h => some (h, { opcode := 0x0601, agent := 1, pends := true })
  | .bind h _ _ _ _ _ _ _ _ _ _ => some (h, { opcode := 0x0602, agent := 1 })
  | .unbind h _ => some (h, { opcode := 0x0603, agent := 1, pends := true })
  | .macsecSak h _ _ _ _ _ _ => some (h, { opcode := 0x0604, agent := 2 })
  | .queAssign h _ _ _ _ _ _ _ _ => some (h, { opcode := 0x0701, agent := 3 })
  | .queRelease h _ => some (h, { opcode := 0x0702, agent := 3 })
  | .queEnable h _ => some (h, { opcode := 0x0703, agent := 3 })
  | .queDisable h _ => some (h, { opcode := 0x0704, agent := 3, atBeacon := true })
  | .carrierCfg h _ _ _ => some (h, { opcode := 0x0801, agent := 1, pends := true })
  | .carrierRemove h _ _ => some (h, { opcode := 0x0802, agent := 1, pends := true })
  | .vfAssign h _ _ => some (h, { opcode := 0x0901, agent := 2 })
  | .vfRelease h _ => some (h, { opcode := 0x0902, agent := 2 })
  | .keyInstall h _ _ => some (h, { opcode := 0x0903, agent := 2, fromT := true, pends := true })
  | .attest h _ _ _ => some (h, { opcode := 0x0904, agent := 2, fromT := true, atBeacon := true, pends := true })
  | .certGet h _ _ => some (h, { opcode := 0x0905, agent := 2, fromT := true, atBeacon := true })
  | .ctxReset h _ => some (h, { opcode := 0x0A01, agent := 1, atBeacon := true, pends := true })
  | .partReset h _ => some (h, { opcode := 0x0A02, agent := 1, atBeacon := true, pends := true })
  | .deviceReset h => some (h, { opcode := 0x0A03, agent := 2, atBeacon := true })
  | .levelDrop h level => some (h, { opcode := 0x0A04, agent := 4, atBeacon := true, pends := decide (level = 0) })
  | .hbmRetrain h _ => some (h, { opcode := 0x0B01, agent := 1, activity := true })
  | .smUpdate h _ _ => some (h, { opcode := 0x0B02, agent := 1, activity := true })
  | .scUpdate h _ _ => some (h, { opcode := 0x0B03, agent := 2, activity := true })
  | .serdesRecal h _ => some (h, { opcode := 0x0B04, agent := 1, activity := true })
  | .dieRetire h _ => some (h, { opcode := 0x0B05, agent := 1, activity := true })
  | .admitRebuild h => some (h, { opcode := 0x0B06, agent := 1, activity := true })
  | .fabricIdSet h _ => some (h, { opcode := 0x0C01, agent := 1 })
  | .routeSwap h => some (h, { opcode := 0x0C02, agent := 1, pends := true })
  | .resetPinMask h _ => some (h, { opcode := 0x0D01, agent := 4, stationOnly := true, atBeacon := true })
  | _ => none

/-- A command whose agent may take it now, and which meets every general check of R433 but those of its
parameters and addresses. -/
def passes (s : State) (h : CmdHdr) (row : OpRow) : Bool :=
  let u := taken s h
  let f := cmdFunc u h.src
  mayTake s h row.agent && decide (h.postmark = (vfOf u f).postmark) && decide (h.opcode.toNat = row.opcode) &&
    (decide (f = 0) || row.fromT) && (!row.stationOnly || !viaRing h.src) && h.clean &&
    (decide (u.level ≠ .beacon) || row.atBeacon) && decide (busyLimit u row = 0)

/-- Every parameter of a command packet has a value that its row allows (R336). -/
def fieldsOk : Instr → Bool
  | .radioReserve _ p _ boundary _ => decide (p < 32 ∧ boundary < 2 ^ 64)
  | .partOpen _ p radio f => decide (p < 32 ∧ radio ≤ 1 ∧ f < 1024 ∧ (radio = 1 ↔ f = 0))
  | .partClose _ p => decide (p < 32)
  | .partReturn _ p => decide (p < 32)
  | .partIsolate _ p => decide (p < 32)
  | .partReset _ p => decide (p < 32)
  | .ctxCreate _ p slot _ => decide (p < 32 ∧ slot < 64)
  | .ctxRemove _ c => decide (c < 2048)
  | .ctxSeed _ c _ => decide (c < 2048)
  | .ctxReset _ c => decide (c < 2048)
  | .ttAdmit _ c group run image report il rl =>
    decide (c < 2048 ∧ group < 256 ∧ run < 2 ^ 32 ∧ image < 2 ^ 64 ∧ report < 2 ^ 64 ∧ il < 2 ^ 32 ∧ rl < 2 ^ 32)
  | .ttWithdraw _ c => decide (c < 2048)
  | .ttResume _ c => decide (c < 2048)
  | .quotaForce _ f q => decide (1 ≤ f ∧ f < 1024 ∧ q < 2 ^ 32)
  | .sdgFill _ p source quad entry _ => decide (p < 32 ∧ source < 3 ∧ quad < 160 ∧ entry < 4096)
  | .sdgSwap _ p strict slice boundary _ =>
    decide (p < 32 ∧ strict < 2 ∧ slice < 16 ∧ boundary < 2 ^ 64 ∧ (boundary = 0 → slice = 0))
  | .shuntStart _ p mask _ => decide (p < 32) && !mask.getLsbD 0
  | .shuntStop _ p => decide (p < 32)
  | .libInstall _ p image report il rl =>
    decide (p < 32 ∧ image < 2 ^ 64 ∧ report < 2 ^ 64 ∧ il < 2 ^ 32 ∧ rl < 2 ^ 32)
  | .libRemove _ e => decide (e < 4096)
  | .libtileAssign _ p quad tiles => decide (p < 32 ∧ quad < 160 ∧ tiles.toNat < 2 ^ 12)
  | .libtileRelease _ quad tiles => decide (quad < 160 ∧ tiles.toNat < 2 ^ 12)
  | .scanOut _ p quad dest => decide (p < 32 ∧ quad < 160 ∧ dest < 2 ^ 64)
  | .scanDump _ p quad dest => decide (p < 32 ∧ quad < 160 ∧ dest < 2 ^ 64)
  | .scanIn _ p quad src len => decide (p < 32 ∧ quad < 160 ∧ src < 2 ^ 64 ∧ 128 ≤ len ∧ len < 2 ^ 64)
  | .pcAssign _ pc owner sealed => allocatable pc && decide ((owner < 32 ∨ owner = 0x80) ∧ sealed < 2)
  | .pcFree _ pc => allocatable pc
  | .pageAssign _ pc kind page owner frame =>
    allocatable pc && decide (1 ≤ kind ∧ kind ≤ 3 ∧ page < 384 ∧ frame < 2 ^ 32 ∧
      owner < (if kind = 3 then 1024 else 2048))
  | .pageRelease _ pc page => allocatable pc && decide (page < 384)
  | .scrubPass _ spread mask => decide (spread < 2 ^ 32 ∧ mask &&& ~~~allPcs = 0)
  | .regionRekey _ pc page => allocatable pc && decide (page < 384)
  | .bind _ entryQ ring bulkQ recallQ tenant model fOut bulkEn descN descAddr =>
    decide (entryQ < 8192 ∧ ring < 8192 ∧ bulkQ < 8192 ∧ recallQ < 8192 ∧ tenant < 65536 ∧ model < 65536 ∧
      fOut < 4096 ∧ bulkEn ≤ 1 ∧ descN ≤ 15 ∧ descAddr < 2 ^ 64)
  | .unbind _ entryQ => decide (entryQ < 8192)
  | .macsecSak _ port sub chan an suite src =>
    decide (port < 16 ∧ sub < 8 ∧ chan ≤ 32 ∧ an ≤ 3 ∧ suite ≤ 3 ∧ src < 2 ^ 64)
  | .queAssign _ q f kind log2 vec dbslot peer base =>
    decide (q < 8192 ∧ f < 1024 ∧ 1 ≤ kind ∧ kind ≤ 7 ∧ 6 ≤ log2 ∧ log2 ≤ 16 ∧ dbslot < 1024 ∧ peer < 8192 ∧
      base < 2 ^ 64) && vecOk f vec
  | .queRelease _ q => decide (q < 8192)
  | .queEnable _ q => decide (q < 8192)
  | .queDisable _ q => decide (q < 8192)
  | .carrierCfg _ c addr boundary => decide (c < 384 ∧ addr < 2 ^ 64 ∧ boundary < 2 ^ 64)
  | .carrierRemove _ c boundary => decide (c < 384 ∧ boundary < 2 ^ 64)
  | .vfAssign _ f tenant => decide (1 ≤ f ∧ f < 1024 ∧ 1 ≤ tenant ∧ tenant < 65536)
  | .vfRelease _ f => decide (1 ≤ f ∧ f < 1024)
  | .keyInstall _ slot addr => decide (1 ≤ slot ∧ slot ≤ 4 ∧ addr < 2 ^ 64)
  | .attest _ p dest _ => decide (p < 32 ∧ dest < 2 ^ 64)
  | .certGet _ which dest => decide (1 ≤ which ∧ which ≤ 2 ∧ dest < 2 ^ 64)
  | .levelDrop _ level => decide (level < 256)
  | .hbmRetrain _ pc => allocatable pc
  | .smUpdate _ image len => decide (image < 2 ^ 64 ∧ len < 2 ^ 32)
  | .scUpdate _ image len => decide (image < 2 ^ 64 ∧ len < 2 ^ 32)
  | .serdesRecal _ port => decide (port < 56)
  | .dieRetire _ die => decide (die < 40)
  | .fabricIdSet _ id => decide (id < 2 ^ 18)
  | .resetPinMask _ mask => decide (mask < 2)
  | _ => true

/-- Every buffer that a command packet names lies in pages that its function may access (R209, R336). -/
def buffersOk (s : State) : Instr → Bool
  | .ttAdmit _ _ _ _ image report il rl => hostOk s 0 image il && hostOk s 0 report rl
  | .libInstall _ _ image report il rl => hostOk s 0 image il && hostOk s 0 report rl
  | .scanOut _ _ quad dest => hostOk s 0 dest (bundleLength (scanLength s quad))
  | .scanDump _ _ quad dest => hostOk s 0 dest (bundleLength (scanLength s quad))
  | .scanIn _ _ _ src len => hostOk s 0 src len
  | .bind _ _ _ _ _ _ _ _ _ descN descAddr => hostOk s 0 descAddr (4 * (descN + 1))
  | .macsecSak _ _ _ _ _ suite src => hostOk s 0 src (sakBufLen suite)
  | .carrierCfg _ _ addr _ => hostOk s 0 addr 64
  | .keyInstall h slot addr => hostOk s (srcFunc s h.src) addr (keyBufLen slot)
  | .attest h p dest _ => hostOk s (srcFunc s h.src) dest (attestLen s p)
  | .certGet h which dest => hostOk s (srcFunc s h.src) dest (certOf s which).length
  | .smUpdate _ image len => hostOk s 0 image len
  | .scUpdate _ image len => hostOk s 0 image len
  | _ => true

/-- The agent takes the command now, and the command meets every general check of R433: the opcode's own checks and
effect follow. -/
def takes (s : State) (c : Instr) : Bool :=
  match commandRow c with
  | some (h, row) => passes s h row && fieldsOk c && buffersOk s c
  | none => false

/-- A scan command (R183, R187). -/
def isScan : Instr → Bool
  | .scanOut _ _ _ _ => true
  | .scanDump _ _ _ _ => true
  | .scanIn _ _ _ _ _ => true
  | _ => false

/-- The status of a command taken in state s, written on the state t that it left (R333, R341). -/
def statusWritten (s t : State) (h : CmdHdr) (agent status r0 r1 : Nat) : State :=
  writeStatus (countStatus t status) h.src
    { opcode := h.opcode.toNat, status := status, token := h.token, index := cmdIndex s h.src, agent := agent,
      result0 := r0, result1 := r1, postmark := (vfOf t (cmdFunc (taken s h) h.src)).postmark.toNat }

/-- A command carried out: status OK on the state that its effect left. -/
def fulfilled (s t : State) (h : CmdHdr) (agent r0 r1 : Nat) : State := statusWritten s t h agent stOk r0 r1

/-- A command refused: the refusal's status and nothing else. -/
def turnedAway (s : State) (h : CmdHdr) (agent status r0 : Nat) : State :=
  statusWritten s (taken s h) h agent status r0 0

end Sys2Proof.Machine
end

