-- ==== Sys2Proof/Certificates/Slice0/Obligations.lean ====
section
/-!
DEFINITION. The statements to be proved. In each, `exec c s = .next (irq s t)` says that command c completes in
state s, that its effect is t, and that vector 0 of PF is considered on t (R330). A command that a ring or the
station bus posts is taken (`taken`), has its effect, and gets its status (`fulfilled`, `turnedAway`).
-/

open Sys2Proof Sys2Proof.Machine

/-- For every command c and state s with c at the front of its queue, step of s is exec of c on s with the rest
of the queue. (opcode_table.json, 00_scope.md) -/
def Obligations.StepRunsFrontCommand : Prop :=
  ∀ (c : Instr) (rest : List Instr) (s : State),
    s.pending = c :: rest → step s = exec c { s with pending := rest }

/-- With no command waiting, a step answers the same state. The model's choice (notes/assumptions/1).
(00_scope.md) -/
def Obligations.EmptyQueueIdles : Prop :=
  ∀ s : State, s.pending = [] → step s = .next s

/-- At power-on reset nothing has been driven outward, no command waits, HBM lists nothing, every register reads
as its row says, no queue, partition, context or timetable is in use, the generator is in Free-run, the level is
full, and the boot has not begun. (R12, R21, R290, R327, R402) -/
def Obligations.ResetValues : Prop :=
  State.reset.pending = [] ∧ State.reset.wire = [] ∧ State.reset.mem = [] ∧
    (∀ a, reg State.reset a = resetOf a) ∧
    (∀ q, (queueOf State.reset q).kind = 0) ∧ (∀ p, (part State.reset p).state = .free) ∧
    (∀ c, (ttOf State.reset c).state = .none) ∧ (∀ c, (ctxOf State.reset c).state = .free) ∧
    State.reset.tick.state = .freeRun ∧ State.reset.life.stage = .ao ∧ State.reset.life.alive = false ∧
    State.reset.level = .full

/-- HBM contents at reset are in canonical form. (R199, R405) -/
def Obligations.ResetKeepsInvariant : Prop :=
  MachineInv State.reset

/-- From every state whose HBM contents are canonical (addresses strictly rising, no zero byte listed, zero
being what an unlisted byte reads as, the model's choice of notes/assumptions/2), a step that answers a next
state answers one whose HBM contents are canonical: every store, clear, copy, fill, status write and reset of
every command keeps the form. (R193, R198, R199) -/
def Obligations.StepKeepsInvariant : Prop :=
  ∀ s t : State, MachineInv s → step s = .next t → MachineInv t

/-- Whatever command a step runs, in whatever state, no fused minimum firmware version falls: an update raises
it, and no reset, loss of power, boot or other command takes it back. (R403, R410, R411) -/
def Obligations.FusedMinimumsNeverFall : Prop :=
  ∀ s t : State, step s = .next t →
    List.Forall₂ (fun a b => a.toNat ≤ b.toNat) s.life.minimums t.life.minimums

/-- exec of any command leaves the queue of waiting commands as it is, what the part has driven outward only
grows at its front, and the fused map of disabled tiles stands. (R57, R334) -/
def Obligations.CommandsLeaveQueueWireAndMap : Prop :=
  ∀ (c : Instr) (s t : State), exec c s = .next t →
    t.pending = s.pending ∧ s.wire <:+ t.wire ∧ t.disabled = s.disabled

/-- Whatever command runs: where a bit of DEV_INT_SUMMARY is 1 after it that was 0 before, the last thing driven
outward is vector 0 of PF, or, where the vector is masked, its pending bit is set. (R325, R330) -/
def Obligations.SummaryBitFiresVectorZero : Prop :=
  ∀ (c : Instr) (s t : State), exec c s = .next t →
    intSummary t &&& intSummary s ≠ intSummary t →
      t.wire.head? = some (.msix 0 0) ∨ bitOf (reg t (pbaWord 0 0)) 0 = true

/-- For every opcode: once its agent may take it, a command with an old postmark is refused with STALE_POSTMARK
whatever else is wrong; else one whose opcode is not its row's with BAD_OPCODE; else one from a view that may not post
it with NOT_PERMITTED; else one with a set reserved bit or spare byte, or a parameter out of its range, with BAD_PARAM;
else one that names a buffer its function may not access with ADDRESS; else, at beacon, one that beacon does not accept
with LEVEL; else one that meets a full limit with BUSY and the limit. A refusal writes its status, moves its counters
and, where a scan is refused with LEVEL, sets SCAN_FAIL; it has no other effect. (R190, R209, R331, R332, R333, R335,
R336, R389, R433) -/
def Obligations.GeneralChecksInOrder : Prop :=
  ∀ (c : Instr) (h : CmdHdr) (row : OpRow) (s : State),
    commandRow c = some (h, row) → mayTake s h row.agent = true →
      let u := taken s h
      let f := cmdFunc u h.src
      let fresh := h.postmark = (vfOf u f).postmark
      let known := h.opcode.toNat = row.opcode
      let may := (f = 0 ∨ row.fromT = true) ∧ (row.stationOnly = true → viaRing h.src = false)
      let clean := h.clean = true ∧ fieldsOk c = true
      let open' := u.level ≠ .beacon ∨ row.atBeacon = true
      (¬fresh → exec c s = .next (irq s (turnedAway s h row.agent stStale 0))) ∧
      (fresh → ¬known → exec c s = .next (irq s (turnedAway s h 3 stBadOpcode 0))) ∧
      (fresh → known → ¬may → exec c s = .next (irq s (turnedAway s h row.agent stNotPermitted 0))) ∧
      (fresh → known → may → ¬clean → exec c s = .next (irq s (turnedAway s h row.agent stBadParam 0))) ∧
      (fresh → known → may → clean → buffersOk s c = false →
        exec c s = .next (irq s (turnedAway s h row.agent stAddress 0))) ∧
      (fresh → known → may → clean → buffersOk s c = true → ¬open' →
        exec c s = .next (irq s (statusWritten s (if isScan c then noteScanFail u else u) h row.agent stLevel
          (levelCode u.level) 0))) ∧
      (fresh → known → may → clean → buffersOk s c = true → open' → busyLimit u row ≠ 0 →
        exec c s = .next (irq s (turnedAway s h row.agent stBusy (busyLimit u row))))

/-- While the agent may not take a command (it does not run, an earlier status of the ring is outstanding, a
fence holds, or the ring is disabled or empty), the command has no effect; where the completion ring is full,
the CMD ring is marked stalled and CPL_FULL sets. (R329, R334) -/
def Obligations.CommandWaitsForItsAgent : Prop :=
  ∀ (c : Instr) (h : CmdHdr) (row : OpRow) (s : State),
    commandRow c = some (h, row) → mayTake s h row.agent = false →
      (stallsRing s h = false → exec c s = .next (irq s s)) ∧
      (stallsRing s h = true → exec c s = .next (irq s (stallRing s h)))

/-- A write from a view with no access changes nothing, whatever its size, and a counter read through such an access
drives zero and changes nothing else. A write of PF BAR0 in view C or O: of the bytes of MBX_IN_DATA, they
are stored unless the inbound direction is busy; elsewhere a word write acts on its word, an 8-byte write on its two
words, the low one first, and a shorter or misaligned one on nothing. A word that the register map gives a row takes
the value its access bits give, or, where the row rejects that value, keeps its own; a word with no row keeps what it
holds; VF_CFG.PCIE_T and, in view C, the reset pin's PERMIT and station address take effect; a vector whose mask bit
falls while it is pending is sent; PLCA is no longer active once PLCA_EN is 0. A write of a VF's BAR, in view C or
served in view T: VF_QSEL selects a queue of that function; the rest of the typed words are the tenant's alone. (R3,
R4, R5, R10, R11, R252, R301, R303, R318, R320, R322, R330) -/
def Obligations.RegisterWriteStores : Prop :=
  ∀ (s : State) (acc : Access) (a : Nat) (data : BitVec 64),
    let v := acc.view
    let d := data.toNat
    let lo := d % 2 ^ 32
    let hi := d / 2 ^ 32
    (reachesVf s acc = none → reachesPf acc = false →
      (∀ size : Nat, exec (.registerWrite acc a size data) s = .next (irq s s)) ∧
      exec (.counterLowWordRead acc a) s = .next (irq s (emit s (.regData 0)))) ∧
    (reachesPf acc = true → within a (bMbx + 0x300) (bMbx + 0x3FF) = true → ∀ size : Nat,
      exec (.registerWrite acc a size data) s = .next (irq s (if (vfOf s (bits (reg s (bMbx + 0x100)) 9 0)).mbx.inFull then s
        else { s with inData := putBytes s.inData (a - (bMbx + 0x300)) ((leBytes size d).take (bMbx + 0x400 - a)) }))) ∧
    (reachesPf acc = true → within a (bMbx + 0x300) (bMbx + 0x3FF) = false →
      (a % 4 = 0 → exec (.registerWrite acc a 4 data) s = .next (irq s (writePfWord s v a lo)) ∧
        exec (.registerWrite acc a 8 data) s = .next (irq s (writePfWord (writePfWord s v a lo) v (a + 4) hi))) ∧
      (∀ size : Nat, a % 4 ≠ 0 ∨ (size ≠ 4 ∧ size ≠ 8) → exec (.registerWrite acc a size data) s = .next (irq s s))) ∧
    (∀ (t : State) (x : Nat),
      let y := plcaFollows (writeMapped (writeTyped t v a x) v a x)
      writePfWord t v a x = (match indexIn a 0x8000C 16 2048 with | some vec => releaseVec t y 0 vec | none => y) ∧
      (∀ row, rowOf a = some row → writeMapped t v a x =
        if wordAccepted t a (written row v a (reg t a) x) = true then setReg t a (written row v a (reg t a) x) else t) ∧
      (rowOf a = none → writeMapped t v a x = t) ∧
      (bitOf (reg t bStb) 3 = true → plcaFollows t = t) ∧
      (bitOf (reg t bStb) 3 = false → plcaFollows t = { t with station := { t.station with plcaActive := false } }) ∧
      (∀ f, indexIn a bVf 0x40 1024 = some f →
        writeTyped t v a x = { t with vfs := upd t.vfs f fun n => { n with pcieT := bitOf x 2 } }) ∧
      (a = bRst + 0x204 → writeTyped t v a x =
        if v = .c then { t with life := { t.life with permit := bitOf x 3 } } else t) ∧
      (a = bRst + 0x208 → writeTyped t v a x = if v = .c then
        { t with life := { t.life with auth := BitVec.ofNat 48 (t.life.auth.toNat / 2 ^ 32 * 2 ^ 32 + x) } } else t) ∧
      (a = bRst + 0x20C → writeTyped t v a x = if v = .c then
        { t with life := { t.life with auth := BitVec.ofNat 48 (t.life.auth.toNat % 2 ^ 32 + x % 2 ^ 16 * 2 ^ 32) } }
        else t)) ∧
    (∀ f, reachesVf s acc = some f →
      (v = .t → within a 0x400 0x4FF = true → ∀ size : Nat, exec (.registerWrite acc a size data) s = .next (irq s
        (if (vfOf s f).mbx.outBusy then s else { s with vfs := upd s.vfs f fun x => { x with mbx := { x.mbx with
          out := putBytes x.mbx.out (a - 0x400) ((leBytes size d).take (0x500 - a)) } } }))) ∧
      (v = .c ∨ within a 0x400 0x4FF = false →
        (a % 4 = 0 → exec (.registerWrite acc a 4 data) s = .next (irq s (writeVfWord s v f a lo)) ∧
          exec (.registerWrite acc a 8 data) s = .next (irq s (writeVfWord (writeVfWord s v f a lo) v f (a + 4) hi))) ∧
        (∀ size : Nat, a % 4 ≠ 0 ∨ (size ≠ 4 ∧ size ≠ 8) → exec (.registerWrite acc a size data) s = .next (irq s s)))) ∧
    (∀ (t : State) (f x : Nat),
      writeVfWord t v f 0x80 x = (if (queueOf t (bits x 12 0)).kind ≠ 0 ∧ (queueOf t (bits x 12 0)).func = f then
        { t with vfs := upd t.vfs f fun n => { n with qsel := bits x 12 0 } } else t) ∧
      writeVfWord t v f 0x704 x = (if v = .t then { t with vfs := upd t.vfs f fun n => { n with mbx := { n.mbx with
        outDone := n.mbx.outDone && !bitOf x 1
        outTimeout := n.mbx.outTimeout && !bitOf x 2
        refused := n.mbx.refused && !bitOf x 3
        inTimeout := n.mbx.inTimeout && !bitOf x 5 } } } else t) ∧
      writeVfWord t v f 0x3004 x = (if v = .t then { t with vfs := upd t.vfs f fun n =>
        { n with flt := { n.flt with tail := BitVec.ofNat 16 x } } } else t) ∧
      (within a 0x2000 0x23FC = true →
        writeVfWord t v f a x = releaseVec t (writeMapped t v (vfBase f + a) x) f ((a - 0x2000) / 16)) ∧
      (a ∉ [0x80, 0x704, 0x3004] → within a 0x2000 0x23FC = false → writeVfWord t v f a x = t))

/-- Of the value a write leaves: a bit that the view may write takes the data bit; a bit the view may only clear
by writing 1 is cleared by a 1 and kept by a 0; every other bit keeps its value. (For a word with no field that
the part checks by itself.) (R4, R5) -/
def Obligations.BitsAccessCodesGive : Prop :=
  ∀ (row : RegRow) (v : View) (a old data i : Nat), old < 2 ^ 32 → data < 2 ^ 32 → i < 32 →
    (∀ x, fieldsAccepted a old x = x) →
      let m := (if v = .c then row.rw ||| row.wC else row.rw) &&& (allOnes32 - ownRowBits a)
      ((written row v a old data).testBit i =
        if row.w1c.testBit i && data.testBit i then false
        else if m.testBit i then data.testBit i else old.testBit i)

/-- A read of the low word of a 48-bit counter that the access reaches drives its low 32 bits and holds its upper 16
bits for that reader alone; the counter and everything else stays: a statistics counter of PF BAR0, where the counters
of a subport that the split does not use read 0; the entries of a queue; and, in a VF's BAR, the drops of the queue it
has selected. A read of any other word through this row drives zero and changes nothing else. (R235, R249, R250, R320) -/
def Obligations.CounterReadLatchesHighWord : Prop :=
  ∀ (s : State) (acc : Access) (a : Nat),
    let reader := if acc.view = .c then 0 else 1
    let answers := fun (at' reader n : Nat) => exec (.counterLowWordRead acc a) s = .next (irq s
      { s with
        latches := put s.latches (latchKey at' reader) (BitVec.ofNat 16 (n / 2 ^ 32))
        wire := .regData (BitVec.ofNat 64 (n % 2 ^ 32)) :: s.wire })
    (reachesPf acc = true → a % 8 = 0 →
      (halfRows.any (·.hits a) = true → answers a reader (if unusedSubport s a then 0 else reg64 s a)) ∧
      (∀ q, halfRows.any (·.hits a) = false → indexIn a (bQue + 0x20) 0x800 8192 = some q →
        answers a reader ((queueOf s q).entries % 2 ^ 48))) ∧
    (∀ f, reachesVf s acc = some f → a = 0x88 →
      let x := deadAddr (vfOf s f).qsel
      acc.bar = .vf f ∧ answers x (if acc.view = .c then 0 else 2 + f) (reg64 s x)) ∧
    (counterFor s acc a = none → exec (.counterLowWordRead acc a) s = .next (irq s (emit s (.regData 0))))

/-- Outside views C and O a write of TCK_CTRL or TCK_PHASE changes nothing. In them TCK_CTRL takes its fields other
than PERIOD: where the PTP subport or domain moves, every master heard is forgotten, which in Locked without FOLLOW
makes Holdover the state to come; where SyncE's source moves, no frequency is recovered outside the split (within it,
whether one is present is free); and a Holdover then past its limit passes to Expired. A changed PERIOD or phase that
is taken (no timetable runs, the code is not reserved, the slice plan fits) sets the register and enters Stepping; any
other is discarded with CFG_REJECT, and an unchanged one changes nothing. (R17, R18, R19, R20, R21, R24, R41, R435) -/
def Obligations.TickConfigurationWrites : Prop :=
  ∀ (s : State) (v : View) (data : BitVec 32),
    let old := reg s bTck
    let new := ctrlFields old data.toNat
    let code := bits data.toNat 2 0
    let ph := bits data.toNat 19 0
    let gone := fun (t : State) => { t with tick := { t.tick with masters := [], selected := none, ptpOk := false } }
    let a := setReg s bTck new
    let b := if ptpMoved old new then
      (if followEn (gone a) = false ∧ comingState (gone a) = .locked then changeState (gone a) .holdover else gone a) else a
    let c := if synceMoved old new then
      { b with
        tick := { b.tick with synceOk := synceInSplit b && (Config.freeBits b.fresh 1).getLsbD 0 }
        fresh := b.fresh + 1 } else b
    let t := if holdOver c then changeState c .expired else c
    (hasAccess v = false →
      exec (.tckCtrlWrite v data) s = .next (irq s s) ∧ exec (.tckPhaseWrite v data) s = .next (irq s s)) ∧
    (hasAccess v = true →
      (code = bits old 2 0 → exec (.tckCtrlWrite v data) s = .next (irq s t)) ∧
      (code ≠ bits old 2 0 → periodTaken t code = true →
        exec (.tckCtrlWrite v data) s =
          .next (irq s (enterStepping (setReg t bTck (new - bits new 2 0 + code))))) ∧
      (code ≠ bits old 2 0 → periodTaken t code = false →
        exec (.tckCtrlWrite v data) s = .next (irq s (orReg t (bTck + 0x30) 0x40)))) ∧
    (hasAccess v = true →
      (ph = reg s (bTck + 0xC) → exec (.tckPhaseWrite v data) s = .next (irq s s)) ∧
      (ph ≠ reg s (bTck + 0xC) → noneRuns s = true → ph < periodNs (periodCode s) →
        exec (.tckPhaseWrite v data) s = .next (irq s (enterStepping (setReg s (bTck + 0xC) ph)))) ∧
      (ph ≠ reg s (bTck + 0xC) → noneRuns s = false ∨ periodNs (periodCode s) ≤ ph →
        exec (.tckPhaseWrite v data) s = .next (irq s (orReg s (bTck + 0x30) 0x40))))

/-- LOCK_TIMER_EXPIRY in Acquiring within the lock threshold makes Locked the state to come; LOST_TIMER_EXPIRY
in Locked beyond the lost threshold Acquiring; the loss of the servo's updates in Locked Holdover; HOLDOVER_EXPIRY in a
Holdover past its limit Expired; each changes nothing else, and outside its condition nothing at all. The end of the
announces forgets every master and, in Locked without FOLLOW, makes Holdover the state to come. The state to come takes
effect at the boundary: Locked sets LOCKED, Holdover sets HOLDOVER, and Acquiring from Locked or Holdover, or Expired,
sets TIMING_LOST and, with LOSS_ACT 1, drops the part to beacon; an Acquiring beyond the lock threshold with no
timetable running begins a step. (R17, R21, R22, R23, R32, R435) -/
def Obligations.GeneratorTimersAndReferences : Prop :=
  ∀ s : State,
    let c := comingState s
    let gone := { s with tick := { s.tick with masters := [], selected := none, ptpOk := false } }
    (c = .acquiring → inLock s = true → exec .lockTimerExpiry s = .next (irq s (changeState s .locked))) ∧
    (c ≠ .acquiring ∨ inLock s = false → exec .lockTimerExpiry s = .next (irq s s)) ∧
    (c = .locked → lostPs s < s.tick.te.natAbs →
      exec .lostTimerExpiry s = .next (irq s (changeState s .acquiring))) ∧
    (c ≠ .locked ∨ s.tick.te.natAbs ≤ lostPs s → exec .lostTimerExpiry s = .next (irq s s)) ∧
    (c = .locked → exec .servoUpdateTimeout s = .next (irq s (changeState s .holdover))) ∧
    (c ≠ .locked → exec .servoUpdateTimeout s = .next (irq s s)) ∧
    (c = .locked → followEn s = false →
      exec .announceReceiptTimeout s = .next (irq s (changeState gone .holdover))) ∧
    (c ≠ .locked ∨ followEn s = true → exec .announceReceiptTimeout s = .next (irq s gone)) ∧
    (c = .holdover → holdLimit s * 1000000000 < s.tick.holdNs + acToNs s.tick.off →
      exec .holdoverExpiry s = .next (irq s (changeState s .expired))) ∧
    (c ≠ .holdover ∨ s.tick.holdNs + acToNs s.tick.off ≤ holdLimit s * 1000000000 →
      exec .holdoverExpiry s = .next (irq s s)) ∧
    (s.tick.next = none → takeTickState s = s) ∧
    (∀ st, s.tick.next = some st →
      let old := s.tick.state
      let t := { s with tick := { s.tick with
        state := st, next := none
        holdNs := if st = .holdover ∧ old = .holdover then s.tick.holdNs else 0
        slew := if st = .acquiring ∨ st = .locked then s.tick.slew else 0 } }
      let lost := orReg t (bTck + 0x30) 0x4
      (st = .locked → takeTickState s = orReg t (bTck + 0x30) 0x1) ∧
      (st = .holdover → takeTickState s = orReg t (bTck + 0x30) 0x2) ∧
      (st = .expired → takeTickState s = if bitOf (reg lost bTck) 4 then dropLevel lost .beacon else lost) ∧
      (st = .freeRun ∨ st = .stepping → takeTickState s = t) ∧
      (st = .acquiring →
        let e := if old = .locked ∨ old = .holdover then
          (if bitOf (reg lost bTck) 4 then dropLevel lost .beacon else lost) else t
        takeTickState s = if inLock e = false ∧ noneRuns e = true then enterStepping e else e))

/-- An Announce on the PTP port in the domain of TCK_CTRL joins the masters heard and the best of them is selected;
without FOLLOW, a generator that will be in Free-run or Expired will then be in Acquiring, and one in Holdover in Locked
within the lock threshold and in Acquiring outside it (the moment is the model's choice, notes/assumptions/236);
elsewhere it changes nothing. A Sync on that port of a selected master gives the servo a new error, without FOLLOW:
beyond the lock threshold in Acquiring the ticks are slewed, or stepped while no timetable runs; elsewhere it changes
nothing. An ESMC message on the SyncE port sets its quality level. A change of SyncE's signal sets SYNCE_OK where its
subport lies in the split, and a Holdover past its limit passes to Expired. A Delay_Req waits in the timing class of the
PTP subport while a master is selected. (R16, R17, R21, R23, R435) -/
def Obligations.PtpAndSyncMessages : Prop :=
  ∀ (s : State) (port sub : Nat) (a : Announce) (err : Int) (ssm : BitVec 4) (present : Bool) (off : Nat),
    let ms := a :: s.tick.masters.filter (·.clockId ≠ a.clockId)
    let heard := { s with tick := { s.tick with masters := ms, selected := bestMaster ms, ptpOk := true } }
    let found := fun (t : State) =>
      if comingState t = .freeRun ∨ comingState t = .expired then changeState t .acquiring
      else if comingState t = .holdover then changeState t (if inLock t then .locked else .acquiring)
      else t
    let moved := { s with tick := { s.tick with te := Config.servoFilter s.tick.te err } }
    let u := if comingState s = .holdover then found moved else moved
    let ok := { s with tick := { s.tick with synceOk := present && synceInSplit s } }
    let at' := { s with tick := { s.tick with off := off } }
    let k := 8 * bits (reg s bTck) 11 8 + bits (reg s bTck) 7 5
    (isPtpPort s port sub = true → a.domain = bits (reg s bTck) 23 16 →
      exec (.ptpAnnounce port sub a) s = .next (irq s (if followEn s then heard else found heard))) ∧
    (isPtpPort s port sub = false ∨ a.domain ≠ bits (reg s bTck) 23 16 →
      exec (.ptpAnnounce port sub a) s = .next (irq s s)) ∧
    (isPtpPort s port sub = true → s.tick.ptpOk = true → followEn s = false →
      exec (.ptpSync port sub err) s = .next (irq s (
        if u.tick.state = .acquiring ∧ inLock u = false then
          (if noneRuns u then enterStepping u
            else { u with tick := { u.tick with slew := if u.tick.te < 0 then 1 else -1 } })
        else { u with tick := { u.tick with slew := 0 } }))) ∧
    (isPtpPort s port sub = false ∨ s.tick.ptpOk = false ∨ followEn s = true →
      exec (.ptpSync port sub err) s = .next (irq s s)) ∧
    (isSyncePort s port sub = true →
      exec (.esmcMessage port sub ssm) s = .next (irq s { s with tick := { s.tick with synceQl := ssm } })) ∧
    (isSyncePort s port sub = false → exec (.esmcMessage port sub ssm) s = .next (irq s s)) ∧
    (exec (.synceStatusChange present) s = .next (irq s (if holdOver ok then changeState ok .expired else ok))) ∧
    (exec (.ptpDelayReq off) s = .next (irq s (if s.tick.ptpOk then
      { at' with egress := upd s.egress k fun e => { e with timing := some { ring := 8192, bytes := delayReqFrame at' } } }
      else at')))

/-- A select counts a poll, records its tick and the largest gap, and loads and drives the answer of its moment;
the gap register reads back and clears; the loss and the return of the signal clock load the answer of their
moment. The answer is 0 in power-off; outside it, 3 while RESET_N is held, 0 before BOOT_DONE, and otherwise 8, plus 4 in
Locked or Holdover, plus the code of the level. (R21, R36, R37, R38, R39, R43) -/
def Obligations.SignalBusAnswers : Prop :=
  ∀ (s : State) (gap : Nat) (v : View),
    (exec (.sigPoll gap) s = .next (irq s
      (emit { setReg (setReg (incReg s (bSig + 0x4) 1) (bSig + 0x8) (tickCount s % 2 ^ 32)) (bSig + 0xC)
          (max (reg s (bSig + 0xC)) (min gap allOnes32)) with sig := { s.sig with answer := answerNow s } }
        (.answer (answerNow s))))) ∧
    (hasAccess v = true → exec (.sigPollGapRead v) s = .next (irq s
      (emit (setReg s (bSig + 0xC) 0) (.regData (BitVec.ofNat 64 (reg s (bSig + 0xC))))))) ∧
    (hasAccess v = false → exec (.sigPollGapRead v) s = .next (irq s (emit s (.regData 0)))) ∧
    exec .sigClkLoss s = .next (irq s { s with sig := { answer := answerNow s, clkPresent := false } }) ∧
    exec .sigClkReturn s = .next (irq s { s with sig := { answer := answerNow s, clkPresent := true } }) ∧
    (s.life.poweringOff = true → answerNow s = 0) ∧
    (s.life.poweringOff = false →
      (s.life.held = true → answerNow s = 3) ∧
      (s.life.held = false → s.life.alive = false → answerNow s = 0) ∧
      (s.life.held = false → s.life.alive = true →
        answerNow s = BitVec.ofNat 4 (8 + (if s.tick.state = .locked ∨ s.tick.state = .holdover then 4 else 0)
          + levelCode s.level)))

/-- At an offset where a beat of the pseudo-channel starts, the refresh is driven, whatever the state of the
part but Stepping; at any other offset nothing happens. Beats start at 732 · (PC mod 8) and every 5,856 ac from
there, 128 ac before the end of the tick at the latest. (R29, R192) -/
def Obligations.RefreshBeats : Prop :=
  ∀ (s : State) (pc off : Nat),
    (pc < 256 → 732 * (pc % 8) ≤ off → (off - 732 * (pc % 8)) % 5856 = 0 → off + 128 ≤ tickLen s → s.tick.state ≠ .stepping →
      exec (.refreshBeat pc off) s = .next (irq s
        (emit { s with tick := { s.tick with off := off } } (.refresh pc off)))) ∧
    (256 ≤ pc ∨ off < 732 * (pc % 8) ∨ (off - 732 * (pc % 8)) % 5856 ≠ 0 ∨ tickLen s < off + 128 ∨ s.tick.state = .stepping →
      exec (.refreshBeat pc off) s = .next (irq s s))

/-- QUE_ASSIGN of a free queue makes it the function's, armed and disabled, with its kind, size, vector, slot,
completion ring and address: first PEER is a CPL queue of the function for a CMD queue and 0 for any other
(BAD_PARAM), then the queue is free, the function assigned and its slot free (STATE), the ring lies in pages the
function may access (ADDRESS), and the function's queue quota holds one more (QUOTA, which 3). QUE_ENABLE enables an
assigned queue and clears its doorbell error; QUE_DISABLE disables the queue. QUE_RELEASE frees a queue that is
assigned, disabled and empty, and that no CMD queue names as its completion ring; any other is refused with STATE,
as is QUE_ENABLE of a free queue. NOP has no effect. (R306, R327, R330, R336, R337) -/
def Obligations.QueueCommandsComplete : Prop :=
  ∀ (s : State) (h : CmdHdr) (q : Nat),
    let u := taken s h
    let x := queueOf u q
    let no := fun status which => turnedAway s h 3 status which
    (∀ f kind log2 vec dbslot peer base : Nat, takes s (.queAssign h q f kind log2 vec dbslot peer base) = true →
      let made : Queue := { kind := kind, func := f, log2 := log2, vec := vec, dbslot := dbslot, peer := peer,
                            base := base, armed := true }
      exec (.queAssign h q f kind log2 vec dbslot peer base) s = .next (irq s (
        if peerOk u f kind peer = false then no stBadParam 0
        else if x.kind ≠ 0 ∨ (f ≠ 0 ∧ (vfOf u f).assigned = false) ∨ slotHeld u f dbslot = true then no stState 0
        else if hostOk u f base (entrySize kind * 2 ^ log2) = false then no stAddress 0
        else if f ≠ 0 ∧ (vfOf u f).qQueues < useQueues u f + 1 then no stQuota 3
        else fulfilled s { u with queues := put u.queues q made } h 3 0 0))) ∧
    (takes s (.queEnable h q) = true →
      exec (.queEnable h q) s = .next (irq s (
        if x.kind = 0 then no stState 0
        else fulfilled s
          { u with queues := upd u.queues q fun y => { y with enabled := true, dbErr := false } } h 3 0 0))) ∧
    (takes s (.queDisable h q) = true →
      exec (.queDisable h q) s = .next (irq s (fulfilled s
        { u with queues := upd u.queues q fun y => { y with enabled := false } } h 3 0 0))) ∧
    (takes s (.queRelease h q) = true →
      exec (.queRelease h q) s = .next (irq s (
        if x.kind = 0 ∨ x.enabled = true ∨ queueEmpty x = false ∨ (x.kind = 4 ∧ namedPeer u q = true) then no stState 0
        else fulfilled s { u with queues := erase u.queues q } h 3 0 0))) ∧
    (takes s (.nop h) = true → exec (.nop h) s = .next (irq s (fulfilled s u h 3 0 0)))

/-- A good doorbell of an enabled queue that software drives at its producer side sets the producer index, one
that it drives at its consumer side sets the consumer index, and each arms the queue; where the queue then stands
over entries that no vector has announced, its vector goes at once. A doorbell that rings no queue, a disabled one,
or an ENTRY queue of a binding changes nothing. A value that is out of range or goes backwards disables the queue
with DB_ERR and raises fault 48 naming the function. (R328, R330) -/
def Obligations.DoorbellsMoveIndices : Prop :=
  ∀ (s : State) (f slot q : Nat) (index : BitVec 32),
    (rungQueue s f slot = none → exec (.queueDoorbell f slot index) s = .next (irq s s)) ∧
    (rungQueue s f slot = some q →
    let x := queueOf s q
    let i := bits index.toNat 16 0
    let y := if drivesProd x.kind = true then { x with prod := i, armed := true }
      else { x with cons := i, armed := true }
    let t := { s with queues := upd s.queues q fun z => rung z i }
    (x.enabled = true → boundEntry s q = false → doorbellBad x i = false →
      exec (.queueDoorbell f slot index) s =
        .next (irq s (if unannounced y = true then ringVector t q else t))) ∧
    (∀ z : Queue, (drivesProd z.kind = true → rung z i = { z with prod := i, armed := true }) ∧
      (drivesProd z.kind = false → rung z i = { z with cons := i, armed := true })) ∧
    (x.enabled = false ∨ boundEntry s q = true → exec (.queueDoorbell f slot index) s = .next (irq s s)) ∧
    (x.enabled = true → boundEntry s q = false → doorbellBad x i = true →
      exec (.queueDoorbell f slot index) s = .next (irq s
        (raiseFault (orReg { s with queues := upd s.queues q fun y => { y with dbErr := true, enabled := false } }
            (bCmd + 0xC) 0x4)
          { code := 48, named := .function x.func, locKind := 4, location := q, off := s.tick.off }))))

/-- With room in its completion ring a stalled CMD ring is taken from again. The first status that waits for a
CPL ring, and the first barrier entry that waits for its exit queue, are written once the ring is enabled and has room,
with the PHASE of the index they take; while it has none, nothing changes. (R329, R377, R432) -/
def Obligations.WaitingEntriesFindRoom : Prop :=
  ∀ (s : State) (q : Nat),
    let x := queueOf s q
    let p := queueOf s x.peer
    (x.stalled = true → cplRoom s q = true →
      exec (.cmdRingResume q) s = .next (irq s
        { s with queues := upd s.queues q fun y => { y with stalled := false } })) ∧
    (x.stalled = false ∨ cplRoom s q = false → exec (.cmdRingResume q) s = .next (irq s s)) ∧
    (∀ b l, x.waitStatus = b :: l → p.enabled = true → ringFull p = false →
      let t := { s with queues := upd s.queues q fun y => { y with waitStatus := y.waitStatus.drop 1 } }
      exec (.deferredCommandStatus q) s = .next (irq s (writeProd t x.peer (withPhase b (phaseOf p p.prod))))) ∧
    (x.waitStatus = [] ∨ p.enabled = false ∨ ringFull p = true →
      exec (.deferredCommandStatus q) s = .next (irq s s)) ∧
    (∀ b l, x.barrier = b :: l → x.enabled = true → ringFull x = false →
      exec (.barrierEntryDeferred q) s = .next (irq s
        (writeProd { s with queues := upd s.queues q fun y => { y with barrier := y.barrier.drop 1 } } q (barrierPhase x b)))) ∧
    (x.barrier = [] ∨ x.enabled = false ∨ ringFull x = true →
      exec (.barrierEntryDeferred q) s = .next (irq s s))

/-- Writing an entry into the ring of a queue stores its bytes at the address of the producer index through the
queue's own function, counts the entry and moves the producer index by one modulo twice the ring; an armed queue
of a kind that is announced sends its vector and is disarmed. No other queue is touched by the index, and a
result for a disabled or full ring, or one where a barrier entry waits, is dropped and counted instead. (R250, R328,
R329, R330, R432) -/
def Obligations.EntriesOfARing : Prop :=
  ∀ (s : State) (q : Nat) (b : List Byte) (f : Queue → List Byte),
    let x := queueOf s q
    let w := hostWrite s x.func none (entryAddr x x.prod) b
    (writeProd s q b = ringVector { w with queues := upd w.queues q fun y =>
      { y with prod := nextIndex y y.prod, entries := y.entries + 1 } } q) ∧
    (x.enabled = false ∨ ringFull x = true ∨ x.barrier ≠ [] → offer s q f = countDead s q 1) ∧
    (x.enabled = true → ringFull x = false → x.barrier = [] → offer s q f = writeProd s q (f x)) ∧
    (x.log2 ≤ 16 → nextIndex x x.prod < 2 ^ 17) ∧
    (x.kind = 4 → 1 ≤ ringLen x → (ringFull x = true ↔ ringLen x ≤ occupancy x + 1))

/-- PART_OPEN opens a free partition as radio for PF or as a tenant's for an assigned function; PART_CLOSE frees
one that holds nothing (IN_USE while it does), and none that is free or resetting; PART_RETURN opens one that is out
of service. CTX_CREATE makes a free slot of an open partition READY with its seed; CTX_REMOVE frees a READY context,
keeps its postmark and leaves its pages readable by nobody; CTX_SEED replaces the seed of a READY context. A tenant
that names another's partition is refused with NOT_PERMITTED, and any other state with STATE. (R117, R290, R291, R294,
R337, R387) -/
def Obligations.PartitionCommandsComplete : Prop :=
  ∀ (s : State) (h : CmdHdr) (p : Nat),
    let u := taken s h
    let st := (part u p).state
    let no := fun agent status => turnedAway s h agent status 0
    (∀ radio f : Nat, takes s (.partOpen h p radio f) = true →
      exec (.partOpen h p radio f) s = .next (irq s (
        if st ≠ .free ∨ (radio = 0 ∧ (vfOf u f).assigned = false) then no 1 stState
        else fulfilled s (setPartState { u with parts := put u.parts p { radio := decide (radio = 1), func := f } }
          p .opened) h 1 0 0))) ∧
    (takes s (.partClose h p) = true →
      exec (.partClose h p) s = .next (irq s (
        if st = .free ∨ st = .resetting then no 1 stState
        else if partHolds u p = true then no 1 stInUse
        else fulfilled s { setPartState u p .free with parts := erase (setPartState u p .free).parts p } h 1 0 0))) ∧
    (takes s (.partReturn h p) = true →
      exec (.partReturn h p) s = .next (irq s (
        if st = .outOfService then fulfilled s (setPartState u p .opened) h 1 0 0 else no 1 stState))) ∧
    (∀ (slot : Nat) (seed : BitVec 64), takes s (.ctxCreate h p slot seed) = true →
      let c := 64 * p + slot
      let x : Ctx := { state := .ready, seed := seed, seeded := decide (seed ≠ 0)
                       postmark := (ctxOf u c).postmark, created := u.tick.count }
      exec (.ctxCreate h p slot seed) s = .next (irq s (
        if st ≠ .opened then no 1 stState
        else if foreign u h.src p = true then no 1 stNotPermitted
        else if (ctxOf u c).state ≠ .free then no 1 stState
        else fulfilled s { u with ctxs := put u.ctxs c x } h 1 0 0))) ∧
    (∀ c : Nat, takes s (.ctxRemove h c) = true →
      let t := { u with
        ctxs := upd u.ctxs c fun x => { postmark := x.postmark }
        pages := mapT u.pages fun k pg => if ctxPage u c (k, pg) then { pg with orphan := true } else pg }
      exec (.ctxRemove h c) s = .next (irq s (
        if foreign u h.src (c / 64) = true then no 1 stNotPermitted
        else if (ctxOf u c).state ≠ .ready then no 1 stState
        else fulfilled s t h 1 0 0))) ∧
    (∀ (c : Nat) (seed : BitVec 64), takes s (.ctxSeed h c seed) = true →
      let t := { u with ctxs := upd u.ctxs c fun x => { x with seed := seed, seeded := x.seeded || decide (seed ≠ 0) } }
      exec (.ctxSeed h c seed) s = .next (irq s (
        if (ctxOf u c).state = .ready then fulfilled s t h 2 0 0 else no 2 stState)))

/-- A 64-bit seed write reaches the selected context while it is READY, and else sets SEED_REJECT. A low-word
write is held for its view; the high-word write applies both and clears what was held; selecting a context
clears what both views held. Without access nothing changes. (R117, R134) -/
def Obligations.SeedRegisters : Prop :=
  ∀ (s : State) (v : View) (d : BitVec 64) (w : BitVec 32),
    let c := bits (reg s (bAri + 0x4)) 10 0
    let seeded := fun (x : BitVec 64) => { s with ctxs := upd s.ctxs c fun y =>
      { y with seed := x, seeded := y.seeded || decide (x ≠ 0) } }
    let full := w ++ (if v = .c then s.seedStage.1 else s.seedStage.2)
    (hasAccess v = true →
      ((ctxOf s c).state = .ready → exec (.ariSeedWrite v d) s = .next (irq s (seeded d))) ∧
      ((ctxOf s c).state ≠ .ready → exec (.ariSeedWrite v d) s = .next (irq s (orReg s (bAri + 0x18) 0x10))) ∧
      (exec (.ariSeedLowWrite v w) s = .next (irq s
        { s with seedStage := if v = .c then (w, s.seedStage.2) else (s.seedStage.1, w) })) ∧
      ((ctxOf s c).state = .ready → exec (.ariSeedHighWrite v w) s = .next (irq s
        { seeded full with seedStage := if v = .c then (0, s.seedStage.2) else (s.seedStage.1, 0) })) ∧
      (exec (.ariSeedSelWrite v w) s = .next (irq s
        { setReg s (bAri + 0x4) (bits w.toNat 10 0) with seedStage := (0, 0) }))) ∧
    (hasAccess v = false →
      exec (.ariSeedWrite v d) s = .next (irq s s) ∧ exec (.ariSeedLowWrite v w) s = .next (irq s s) ∧
      exec (.ariSeedHighWrite v w) s = .next (irq s s) ∧ exec (.ariSeedSelWrite v w) s = .next (irq s s))

/-- A write of a shadow cell stores PART and OWNED where it names an open tenant partition or none, the cell is
not radio's and no plan swap waits; a radio cell keeps its byte, and any other write is discarded with REJECT. A hart
reservation is stored unless it names a hart that runs a guest. A guest enters a hart of tag 0 that is not reserved,
while the monitor runs; on leaving, its registers are saved through its own function and the tag returns to 0. A
hart of tag 0 takes a new monitor; with the last of 128 the new version and measurement are in force. Any other such
write or event changes nothing. (R293, R300, R412) -/
def Obligations.ShadowCellsAndHarts : Prop :=
  ∀ (s : State) (v : View) (off word hart f save : Nat) (b : Byte) (w : BitVec 32) (regs : List Byte),
    let old := look s.cellS off
    let all := hart :: s.life.monHarts
    (hasAccess v = true → off < 2560 → cellWriteOk s old (b &&& 0x3F) = true →
      (old.getLsbD 6 = false →
        exec (.partCellSWrite v off b) s = .next (irq s { s with cellS := put s.cellS off (b &&& 0x3F) })) ∧
      (old.getLsbD 6 = true → exec (.partCellSWrite v off b) s = .next (irq s s))) ∧
    (hasAccess v = true → off < 2560 → cellWriteOk s old (b &&& 0x3F) = false →
      exec (.partCellSWrite v off b) s = .next (irq s (orReg s (bPart + 0x4) 0x1))) ∧
    (hasAccess v = false ∨ 2560 ≤ off → exec (.partCellSWrite v off b) s = .next (irq s s)) ∧
    (hasAccess v = true → word < 4 → guestOn s word w.toNat = false →
      exec (.partHartRsvWrite v word w) s = .next (irq s
        { s with store := { s.store with hartRsv := wordOf128 s.store.hartRsv word w.toNat } })) ∧
    (hasAccess v = true → word < 4 → guestOn s word w.toNat = true →
      exec (.partHartRsvWrite v word w) s = .next (irq s (orReg s (bPart + 0x4) 0x1))) ∧
    (hasAccess v = false ∨ 4 ≤ word → exec (.partHartRsvWrite v word w) s = .next (irq s s)) ∧
    (hart < 128 → 1 ≤ f → f < 1024 → coresRun s = true → look s.harts hart = 0 →
      s.store.hartRsv.getLsbD hart = false →
      exec (.guestEntry hart f) s = .next (irq s { s with harts := put s.harts hart f })) ∧
    (128 ≤ hart ∨ f = 0 ∨ 1024 ≤ f ∨ coresRun s = false ∨ look s.harts hart ≠ 0 ∨
      s.store.hartRsv.getLsbD hart = true → exec (.guestEntry hart f) s = .next (irq s s)) ∧
    (look s.harts hart ≠ 0 →
      exec (.guestExit hart save regs) s = .next (irq s
        { hostWrite s (look s.harts hart) none save regs with harts := erase s.harts hart })) ∧
    (look s.harts hart = 0 → exec (.guestExit hart save regs) s = .next (irq s s)) ∧
    (∀ n, hart < 128 → look s.harts hart = 0 → s.life.monNew = some n → hart ∉ s.life.monHarts →
      (all.length ≠ 128 →
        exec (.monitorHartSwitch hart) s = .next (irq s { s with life := { s.life with monHarts := all } })) ∧
      (all.length = 128 →
        exec (.monitorHartSwitch hart) s = .next (irq s
          { s with life := { s.life with
              monHarts := [], monNew := none, versions := s.life.versions.set 2 n
              measures := s.life.measures.set 2 s.life.monDigest } }))) ∧
    (128 ≤ hart ∨ look s.harts hart ≠ 0 ∨ s.life.monNew = none ∨
      (hart ∈ s.life.monHarts ∧ s.life.monHarts.length ≠ 128) →
      exec (.monitorHartSwitch hart) s = .next (irq s s))

/-- A quota write in view C or O stores the function's quota of its kind; below what the function uses, it also
gives the function a notice; while a forced cut is pending, or for more than 8,192 queues, it is discarded with
REJECT. The block of PF discards it. The tenant control word is written in view C and T alone, and PF has none.
(R305, R306, R308, R321) -/
def Obligations.QuotaAndControlWrites : Prop :=
  ∀ (s : State) (v : View) (f k : Nat) (w : BitVec 32),
    let n := quotaValue k w.toNat
    let t := { s with vfs := upd s.vfs f fun x => withQuota x k n }
    let quota := fun (x : Vf) => if k = 1 then { x with qTick := BitVec.ofNat 32 n }
      else if k = 2 then { x with qPages := bits n 16 0 } else if k = 3 then { x with qQueues := n }
      else { x with qWeight := BitVec.ofNat 32 n }
    (∀ x, withQuota x k n = quota x) ∧
    (n = if k = 2 then bits w.toNat 16 0 else if k = 3 then bits w.toNat 13 0 else w.toNat) ∧
    (hasAccess v = true → 1 ≤ f → f < 1024 → 1 ≤ k → k ≤ 4 → (vfOf s f).cutPending = false → (k = 3 → n ≤ 8192) →
      (useOf t f k ≤ n → exec (.vfQuotaWrite v f k w) s = .next (irq s t)) ∧
      (n < useOf t f k → exec (.vfQuotaWrite v f k w) s = .next (irq s (notice t f (cutNotice k 0 n (tickCount t)))))) ∧
    (hasAccess v = true → 1 ≤ f → f < 1024 → 1 ≤ k → k ≤ 4 → (vfOf s f).cutPending = true ∨ (k = 3 ∧ 8192 < n) →
      exec (.vfQuotaWrite v f k w) s = .next (irq s (orReg s (bPart + 0x4) 0x1))) ∧
    (hasAccess v = false ∨ f = 0 ∨ 1024 ≤ f ∨ k = 0 ∨ 4 < k → exec (.vfQuotaWrite v f k w) s = .next (irq s s)) ∧
    (v ≠ .o → 1 ≤ f → f < 1024 → exec (.vfTctrlWrite v f w) s = .next (irq s
      { s with vfs := upd s.vfs f fun x => { x with tctrl := BitVec.ofNat 3 w.toNat } })) ∧
    (v = .o ∨ f = 0 ∨ 1024 ≤ f → exec (.vfTctrlWrite v f w) s = .next (irq s s))

/-- A tenant's send with a legal length makes the outbound direction busy with its length and next sequence
number, or, while it is busy, sets REFUSED. The operator's acknowledge ends a busy outbound message as done. A
post fills the inbound direction of the selected function with the staged bytes, or, while it is full, sets the
refusal bit; the tenant's acknowledge empties it. The tail of the notices moves while at most 8 stay unread. A
direction that times out is withdrawn and counted. Whatever meets none of these changes nothing. (R303, R304, R305) -/
def Obligations.MailboxesComplete : Prop :=
  ∀ (s : State) (v : View) (f : Nat) (w : BitVec 32),
    let n := bits w.toNat 8 0
    let tail := BitVec.ofNat 8 w.toNat
    let m := (vfOf s f).mbx
    let g := mbxSel s
    let fits := 1 ≤ n ∧ n ≤ 256
    (isVf f = true → fits → m.outBusy = false →
      exec (.mbxTSend f w) s = .next (irq s (orReg (setPendingBit (mbxSet s f fun m =>
        { m with outBusy := true, outLen := n, outSeq := m.outSeq + 1 }) f) (bMbx + 0x118) 0x1))) ∧
    (isVf f = true → fits → m.outBusy = true →
      exec (.mbxTSend f w) s = .next (irq s (mbxSet s f fun m => { m with refused := true }))) ∧
    (isVf f = false ∨ ¬ fits → exec (.mbxTSend f w) s = .next (irq s s)) ∧
    (hasAccess v = true → w.getLsbD 0 = true → (vfOf s g).mbx.outBusy = true →
      exec (.mbxOutAck v w) s = .next (irq s (clrPendingBit (mbxSet s g fun m =>
        { m with outBusy := false, outDone := true }) g))) ∧
    (hasAccess v = false ∨ w.getLsbD 0 = false ∨ (vfOf s g).mbx.outBusy = false →
      exec (.mbxOutAck v w) s = .next (irq s s)) ∧
    (hasAccess v = true → fits → (vfOf s g).mbx.inFull = false →
      exec (.mbxInPost v w) s = .next (irq s (mbxSet s g fun m =>
        { m with inFull := true, inLen := n, inSeq := m.inSeq + 1, inb := inboundBytes s n }))) ∧
    (hasAccess v = true → fits → (vfOf s g).mbx.inFull = true →
      exec (.mbxInPost v w) s = .next (irq s (orReg s (bMbx + 0x118) 0x8))) ∧
    (hasAccess v = false ∨ ¬ fits → exec (.mbxInPost v w) s = .next (irq s s)) ∧
    (isVf f = true → w.getLsbD 0 = true → m.inFull = true →
      exec (.mbxTInAck f w) s = .next (irq s
        (orReg (mbxSet s f fun m => { m with inFull := false }) (bMbx + 0x118) 0x2))) ∧
    (isVf f = false ∨ w.getLsbD 0 = false ∨ m.inFull = false → exec (.mbxTInAck f w) s = .next (irq s s)) ∧
    (isVf f = true → (m.nhead - tail).toNat ≤ 8 →
      exec (.mbxTNtailWrite f w) s = .next (irq s
        { s with vfs := upd s.vfs f fun x => { x with mbx := { x.mbx with ntail := tail } } })) ∧
    (isVf f = false ∨ 8 < (m.nhead - tail).toNat → exec (.mbxTNtailWrite f w) s = .next (irq s s)) ∧
    (isVf f = true → m.outBusy = true →
      exec (.mbxTimeoutExpiry f true) s = .next (irq s
        (incReg (orReg (clrPendingBit (mbxSet s f fun m => { m with outBusy := false, outTimeout := true }) f)
          (bMbx + 0x118) 0x4) (bMbx + 0x120) 1))) ∧
    (isVf f = true → m.inFull = true →
      exec (.mbxTimeoutExpiry f false) s = .next (irq s
        (incReg (orReg (mbxSet s f fun m => { m with inFull := false, inTimeout := true }) (bMbx + 0x118) 0x4)
          (bMbx + 0x120) 1))) ∧
    (isVf f = false ∨ m.outBusy = false → exec (.mbxTimeoutExpiry f true) s = .next (irq s s)) ∧
    (isVf f = false ∨ m.inFull = false → exec (.mbxTimeoutExpiry f false) s = .next (irq s s))

/-- VF_ASSIGN gives a free function a tenant that no other function has (IN_USE), a fresh key domain, advanced
postmarks and quotas of 0; STATE where it is assigned. VF_RELEASE of an assigned function (STATE) that holds nothing
(IN_USE) resets it and drops its domain. KEY_INSTALL of a buffer that unwraps installs the key at the next boundary
and answers with it; one that does not is refused with DIGEST, and PF's slots 1 to 3 with NOT_PERMITTED. ATTEST of a
partition of the function's own is accepted and gets its status when the report is taken at the next boundary.
CERT_GET writes the certificate to its buffer and answers its length. (R297, R298, R299, R306, R312, R313, R337,
R374) -/
def Obligations.FunctionAndKeyCommands : Prop :=
  ∀ (s : State) (h : CmdHdr),
    let u := taken s h
    let i := cmdIndex s h.src
    let g := srcFunc u h.src
    let no := fun status => turnedAway s h 2 status 0
    (∀ f tenant : Nat, takes s (.vfAssign h f tenant) = true →
      let d : Domain := { state := .active, memKey := u.fresh + 1, agreeKey := u.fresh + 2, scanGen := u.fresh + 3 }
      let t := advanceMarks (dropBlocks { u with fresh := u.fresh + 3, domains := put u.domains f d } f) f
      exec (.vfAssign h f tenant) s = .next (irq s (
        if (vfOf u f).assigned = true then no stState
        else if (u.vfs.any fun kv => kv.2.assigned && decide (kv.2.tenant = tenant)) = true then no stInUse
        else fulfilled s { t with vfs := upd t.vfs f fun x => { x with
          assigned := true, tenant := tenant, pcieT := false, ctrlT := 0, tctrl := 0
          qTick := 0, qPages := 0, qQueues := 0, qWeight := 0 } } h 2 0 0))) ∧
    (∀ f : Nat, takes s (.vfRelease h f) = true →
      let t := dropBlocks (functionReset u f) f
      exec (.vfRelease h f) s = .next (irq s (
        if (vfOf u f).assigned = false then no stState
        else if vfHolds u f = true then no stInUse
        else fulfilled s { t with
          domains := erase t.domains f
          vfs := upd t.vfs f fun x => { postmark := x.postmark, flt := x.flt } } h 2 0 0))) ∧
    (∀ slot addr : Nat, takes s (.keyInstall h slot addr) = true →
      let r := hostRead u (.function g) g addr (keyBufLen slot)
      (g = 0 → slot ≠ 4 → exec (.keyInstall h slot addr) s = .next (irq s (no stNotPermitted))) ∧
      (∀ b k, g ≠ 0 ∨ slot = 4 → r.2 = some (b, false) → unwrapped r.1 g slot b = some k →
        exec (.keyInstall h slot addr) s = .next (irq s (fulfilled s
          (addEffect r.1 h i (nextTick u) (.installKey g slot k)) h 2 (nextTick u) 0))) ∧
      (g ≠ 0 ∨ slot = 4 → (∀ b k, r.2 = some (b, false) → unwrapped r.1 g slot b ≠ some k) →
        exec (.keyInstall h slot addr) s = .next (irq s (statusWritten s r.1 h 2 stDigest 0 0)))) ∧
    (∀ (p dest : Nat) (nonce : BitVec 256), takes s (.attest h p dest nonce) = true →
      exec (.attest h p dest nonce) s = .next (irq s (
        if foreign u h.src p = true then no stNotPermitted
        else addEffect u h i (nextTick u) (.attest p dest nonce)))) ∧
    (∀ which dest : Nat, takes s (.certGet h which dest) = true →
      exec (.certGet h which dest) s = .next (irq s (fulfilled s
        (hostWrite u g none dest (certOf u which)) h 2 (certOf u which).length 0)))

/-- PC_ASSIGN gives a free, sound position to an open partition or to the host pool (STATE otherwise); a tenant
partition's must be sealed (NOT_PERMITTED). PC_FREE marks an assigned position freeing (STATE) that no admitted
timetable's descriptor names (IN_USE) and sends its pages through Clearing. PAGE_ASSIGN of a page that may go to its
owner (STATE), sealed where a tenant's function is to have it (NOT_PERMITTED), and within the page quota (QUOTA, which
2), makes the page at once on a plain pseudo-channel, and on a sealed one sends it through Clearing with its status to
come when that ends. PAGE_RELEASE sends a page that has an owner through Clearing. REGION_REKEY of a sealed page and
SCRUB_PASS start their activity in the lowest free entry, or are refused with CONFLICT and what they conflict with.
(R193, R195, R198, R199, R204, R211, R306, R338, R339) -/
def Obligations.MemoryCommandsComplete : Prop :=
  ∀ (s : State) (h : CmdHdr) (pc : Nat),
    let u := taken s h
    let x := pcOf u pc
    let no := fun status which => turnedAway s h 1 status which
    let begun := fun (t : State) => fulfilled s t h 1 (tickCount t) h.off
    (∀ owner sealed : Nat, takes s (.pcAssign h pc owner sealed) = true →
      exec (.pcAssign h pc owner sealed) s = .next (irq s (
        if x.owner ≠ .free ∨ x.freeing = true ∨ x.retraining = true ∨ x.failed = true ∨
            (owner < 32 ∧ (part u owner).state ≠ .opened) then no stState 0
        else if owner < 32 ∧ (part u owner).radio = false ∧ sealed = 0 then no stNotPermitted 0
        else fulfilled s { u with
          pcs := upd u.pcs pc fun y =>
            { y with owner := if owner < 32 then .partition else .hostPool, part := if owner < 32 then owner else 0,
                     sealed := decide (sealed = 1) }
          pages := u.pages.filter fun kv =>
            !(decide (kv.1 / 512 = pc) && decide ((if sealed = 1 then 336 else 384) ≤ kv.1 % 512)) } h 1 0 0))) ∧
    (takes s (.pcFree h pc) = true →
      let t := { u with pcs := upd u.pcs pc fun y => { y with freeing := true } }
      exec (.pcFree h pc) s = .next (irq s (
        if x.owner = .free ∨ x.freeing = true then no stState 0
        else if pcNamed u pc = true then no stInUse 0
        else begun (freedPc (freePages t pc) pc)))) ∧
    (∀ kind page owner frame : Nat, takes s (.pageAssign h pc kind page owner frame) = true →
      let f := pageFunc u pc kind owner
      let k := pageKey pc page
      exec (.pageAssign h pc kind page owner frame) s = .next (irq s (
        if pageAssignable u pc kind page owner frame = false then no stState 0
        else if kind = 3 ∧ owner ≠ 0 ∧ x.sealed = false then no stNotPermitted 0
        else if f ≠ 0 ∧ (vfOf u f).qPages < usePages u f + 1 then no stQuota 2
        else if x.sealed = true then
          { u with pages := put u.pages k (assigningPage u h (cmdIndex s h.src) pc kind owner frame) }
        else fulfilled s { u with pages := put u.pages k (assignedPage kind owner frame) } h 1 0 0))) ∧
    (∀ page : Nat,
      let pg := pageAt u pc page
      let scope := pc + 2 ^ 8 * page
      (takes s (.pageRelease h pc page) = true →
        exec (.pageRelease h pc page) s = .next (irq s (
          if releasable pg = true ∧ x.freeing = false then begun (releasePage u pc page) else no stState 0))) ∧
      (takes s (.regionRekey h pc page) = true →
        let a := startAct u (freeAct u) 3 scope false
        let t := { a with pages := upd a.pages (pageKey pc page) fun g => { g with rekeyWaiting := true, act := true } }
        (x.sealed = false ∨ releasable pg = false → exec (.regionRekey h pc page) s = .next (irq s (no stState 0))) ∧
        (x.sealed = true → releasable pg = true →
          (∀ i b, conflictAct u 3 scope 0 = some (i, b) →
            exec (.regionRekey h pc page) s = .next (irq s
              (statusWritten s u h 1 stConflict (actResult b.code b.scope.toNat b.start.toNat) i))) ∧
          (conflictAct u 3 scope 0 = none → exec (.regionRekey h pc page) s = .next (irq s (
            if pg.rekeying = true ∨ pg.rekeyWaiting = true then
              statusWritten s u h 1 stConflict
                (actResult 3 scope (if pg.rekeying then pg.rekeyTick % 2 ^ 24 else 0)) 0xFFFFFFFF
            else begun t)))))) ∧
    (∀ (spread : Nat) (mask : BitVec 256), takes s (.scrubPass h spread mask) = true →
      (conflictAct u 2 0 mask = none →
        exec (.scrubPass h spread mask) s = .next (irq s (begun (beginScrub u (freeAct u) mask spread false)))) ∧
      (∀ i b, conflictAct u 2 0 mask = some (i, b) →
        exec (.scrubPass h spread mask) s = .next (irq s
          (statusWritten s u h 1 stConflict (actResult b.code b.scope.toNat b.start.toNat) i))))

/-- EPOCH_GRANT moves a domain's epoch counter, or the blank key's (domain 1,024), by 2,048 and gives the hub die
those values when 1,024 or fewer remain; a counter that would pass 0xFFFF_FFFF first gets a new key. REKEY_START
draws one epoch for the region whose turn it is. ENGINE_ACCESS serves the rekey first: its next line takes COUNTER
0 and a new tag, and the pointer moves on; then the copy of a retrain, then a clear, then the scrub. REKEY_DONE,
PAGE_CLEAR_DONE and SCRUB_DONE end their work, and a due scrub waits for a free activity. A stalled write proceeds
once the pointer has passed its line. Where there is nothing to do, nothing changes. (R199, R202, R203, R204, R205,
R206, R211, R339, R414) -/
def Obligations.EnginesOfMemory : Prop :=
  ∀ (s : State) (pc : Nat),
    (∀ hub dom : Nat,
      let t := if 2 ^ 32 ≤ (look s.domains dom).epoch + 2048 then replaceKey s dom else s
      let e := (look t.domains dom).epoch
      (grantDue s hub dom = true → dom ≤ 1024 → (look s.domains dom).state ≠ .empty →
        exec (.epochGrant hub dom) s = .next (irq s
          { t with
            domains := upd t.domains dom fun d => { d with epoch := e + 2048 }
            blocks := upd t.blocks (blockKey hub dom) fun b => granted b e })) ∧
      (grantDue s hub dom = false ∨ 1024 < dom ∨ (look s.domains dom).state = .empty →
        exec (.epochGrant hub dom) s = .next (irq s s))) ∧
    (∀ page pg, isRekeying s pc = false → nextRegion s pc = some (page, pg) →
      let k := blockKey (pc / 32) (sealDom pg)
      (0 < blockLeft (look s.blocks k) →
        exec (.rekeyStart pc) s = .next (irq s
          (beginRekey { s with blocks := upd s.blocks k drawn } pc page (look s.blocks k).next))) ∧
      (blockLeft (look s.blocks k) = 0 → exec (.rekeyStart pc) s = .next (irq s s))) ∧
    (isRekeying s pc = true ∨ nextRegion s pc = none → exec (.rekeyStart pc) s = .next (irq s s)) ∧
    (∀ page pg, rekeyPage s pc = some (page, pg) →
      let line := 32768 * page + pg.rekeyPtr
      let t := { s with lines := upd s.lines (lineKey pc line) fun l =>
        { l with
          counter := 0
          tag := l.tag.map fun _ => (sealLine s (pageAt s pc (line / 32768)) true pc line 0 (lineBytes s pc line)).2 } }
      (exec (.rekeyDone pc) s = .next (irq s (rekeyDone s pc page pg))) ∧
      (allocatable pc = true → pg.rekeyPtr < 32768 →
        exec (.engineAccess pc) s = .next (irq s (setRekeyPtr (rekeyLine s pc line) pc page (pg.rekeyPtr + 1))) ∧
        (lineRead s pc line = .good → rekeyLine s pc line = t) ∧
        (lineRead s pc line = .poisoned → rekeyLine s pc line = s)) ∧
      (32768 ≤ pg.rekeyPtr → exec (.engineAccess pc) s = .next (irq s s))) ∧
    (rekeyPage s pc = none →
      (exec (.rekeyDone pc) s = .next (irq s s)) ∧
      (allocatable pc = true →
        (∀ line, (pcOf s pc).copy = some line →
          exec (.engineAccess pc) s = .next (irq s (if line < 12582912 then copyStep s pc line else s))) ∧
        ((pcOf s pc).copy = none →
          (∀ page pg, clearPage s pc = some (page, pg) →
            exec (.engineAccess pc) s = .next (irq s (clearStep s pc page pg))) ∧
          (clearPage s pc = none →
            (∀ x, s.scrub = some x → x.pc = pc →
              exec (.engineAccess pc) s = .next (irq s (scrubStep s x))) ∧
            ((∀ x, s.scrub = some x → x.pc ≠ pc) → exec (.engineAccess pc) s = .next (irq s s)))))) ∧
    (allocatable pc = false → exec (.engineAccess pc) s = .next (irq s s)) ∧
    (∀ page : Nat,
      ((pageAt s pc page).kind = .clearing →
        (∀ t, clearStart s pc page = some t → exec (.pageClearDone pc page) s = .next (irq s (clearDone t pc page))) ∧
        (clearStart s pc page = none → exec (.pageClearDone pc page) s = .next (irq s s))) ∧
      ((pageAt s pc page).kind ≠ .clearing → exec (.pageClearDone pc page) s = .next (irq s s))) ∧
    (reg s (bMem + 0x50) = 0 → exec .memScrubDue s = .next (irq s s)) ∧
    (reg s (bMem + 0x50) ≠ 0 →
      (activities s < 32 → conflictAct s 2 0 allPcs = none →
        exec .memScrubDue s = .next (irq s
          (beginScrub { s with scrubDue := false } (freeAct s) allPcs (reg s (bMem + 0x50)) true))) ∧
      (32 ≤ activities s ∨ conflictAct s 2 0 allPcs ≠ none →
        exec .memScrubDue s = .next (irq s { s with scrubDue := true }))) ∧
    (s.scrub = none → exec .scrubDone s = .next (irq s s)) ∧
    (∀ x, s.scrub = some x →
      let t := endAct ((scrubRest s x).foldl (fun s pl => scrubLine s pl.1 pl.2) s) x.act 1
      exec .scrubDone s = .next (irq s (scrubDueStart (orReg (setReg { t with scrub := none } (bMem + 0x54)
        (bits (reg t (bMem + 0x54)) 7 0 + (bits (reg t (bMem + 0x54)) 31 16 + 1) % 2 ^ 16 * 2 ^ 16))
        (bMem + 0x68) 0x2)))) ∧
    (∀ w, s.stalls.find? (fun w => decide (w.pc = pc)) = some w →
      (wouldStall s w.pc w.line = true → exec (.stalledWriteResume pc) s = .next (irq s s)) ∧
      (wouldStall s w.pc w.line = false →
        exec (.stalledWriteResume pc) s = .next (irq s
          (hostWrite { s with stalls := s.stalls.erase w } w.func w.ctx w.addr w.bytes)))) ∧
    (s.stalls.find? (fun w => decide (w.pc = pc)) = none → exec (.stalledWriteResume pc) s = .next (irq s s))

/-- PAGE_CLEAR_DONE of a page in Clearing whose clear may start, and for which no command waits, completes: every byte
of the page then reads 0, every byte outside it reads as before, and the page takes the state its clear was for. Of the
registers only the two interrupt status words move: PAGE_CLEARED of MEM_INT_STATUS sets, and SEAL_INT_STATUS may take
the end of a key's replacement. (R196, R199, R206, R215) -/
def Obligations.ClearedPagesReadZero : Prop :=
  ∀ (s : State) (pc page : Nat),
    let pg := pageAt s pc page
    page < 384 → pg.kind = .clearing → pg.waiting = none → (clearStart s pc page).isSome = true →
    (pcOf s pc).freeing = false →
      ∃ t, exec (.pageClearDone pc page) s = .next (irq s t) ∧
        (∀ k, byteKey pc (32768 * page) 0 ≤ k → k < byteKey pc (32768 * page) 0 + 2097152 → look t.mem k = 0) ∧
        (∀ k, k < byteKey pc (32768 * page) 0 ∨ byteKey pc (32768 * page) 0 + 2097152 ≤ k →
          look t.mem k = look s.mem k) ∧
        (pageAt t pc page).kind = pg.next ∧ bitOf (reg t (bMem + 0x68)) 3 = true ∧
        ∀ a, a ≠ bMem + 0x68 → a ≠ bSeal + 0x28 → reg t a = reg s a

/-- A write within one line of a page that the function may access, of a good line (or of a whole line, whatever
stood in it) whose counter need not wait for a rekey, stores its bytes at the place of its address: they read back,
and every other byte of HBM reads as before. A write to a line whose counter is at its end is held instead. A read
within one good line drives its bytes; of a poisoned line it faults 33, of one whose tag fails it poisons the line and
faults 32, and of a plain line that on-die ECC could not correct it faults 37, each with zeros marked poisoned; a
partial write to such a line changes no byte and faults 34, 34 or 37. An access to a page that the function may not
access is rejected whole: a read drives zeros, marked poisoned, and no byte of HBM changes. An access of more than one
line goes line by line. (R201, R205, R207, R208, R209, R210) -/
def Obligations.HostPoolAccesses : Prop :=
  ∀ (s : State) (f : Nat) (ctx : Option Nat) (addr pc line b : Nat) (bytes : List Byte),
    let n := bytes.length
    let who := hostWho f ctx
    let zeros := List.replicate n (0 : Byte)
    let counted := if lineUe s pc line then countUe s else s
    let at' := anyPlace s addr
    (hostOk s f addr n = true →
      let r := readPieces s who f (linePieces addr n)
      (stallOf s f (linePieces addr n) = none →
        exec (.hostPoolWrite f ctx addr bytes) s = .next (irq s (writePieces s who f (linePieces addr n) bytes))) ∧
      exec (.hostPoolRead f ctx addr n) s =
        .next (irq s (emit r.1 (.readData f addr (if r.2.2 then zeros else r.2.1) r.2.2)))) ∧
    (hostOk s f addr n = false →
      exec (.hostPoolWrite f ctx addr bytes) s = .next (irq s (rejectHost s who f addr n)) ∧
      exec (.hostPoolRead f ctx addr n) s = .next (irq s
        (emit (rejectHost s who f addr n) (.readData f addr zeros true)))) ∧
    (1 ≤ n → addr % 64 + n ≤ 64 →
      (hostPlace s f addr = some (pc, line, b) →
        (wouldStall s pc line = false → lineRead s pc line = .good ∨ n = 64 →
          ∃ t, exec (.hostPoolWrite f ctx addr bytes) s = .next (irq s t) ∧
            readBytes t.mem (byteKey pc line b) n = bytes ∧ t.regs = s.regs ∧
            ∀ k, k < byteKey pc line b ∨ byteKey pc line b + n ≤ k → look t.mem k = look s.mem k) ∧
        (wouldStall s pc line = false → n ≠ 64 →
          (lineRead s pc line = .poisoned →
            exec (.hostPoolWrite f ctx addr bytes) s = .next (irq s (memFault s 34 who pc line))) ∧
          (lineRead s pc line = .tagBad →
            exec (.hostPoolWrite f ctx addr bytes) s = .next (irq s (memFault (poison counted pc line) 34 who pc line))) ∧
          (lineRead s pc line = .plainUe →
            exec (.hostPoolWrite f ctx addr bytes) s = .next (irq s (memFault (countUe s) 37 who pc line)))) ∧
        (wouldStall s pc line = true →
          let w : Stall := { pc := pc, line := line, func := f, ctx := ctx, addr := addr, bytes := bytes }
          exec (.hostPoolWrite f ctx addr bytes) s = .next (irq s
            (orReg (incReg { s with stalls := s.stalls ++ [w] } (bSeal + 0x18) 1) (bSeal + 0x28) 0x8))) ∧
        (lineRead s pc line = .good →
          exec (.hostPoolRead f ctx addr n) s = .next (irq s
            (emit s (.readData f addr (readBytes s.mem (byteKey pc line b) n) false)))) ∧
        (lineRead s pc line = .poisoned →
          exec (.hostPoolRead f ctx addr n) s = .next (irq s
            (emit (memFault s 33 who pc line) (.readData f addr zeros true)))) ∧
        (lineRead s pc line = .tagBad →
          exec (.hostPoolRead f ctx addr n) s = .next (irq s
            (emit (memFault (poison counted pc line) 32 who pc line) (.readData f addr zeros true)))) ∧
        (lineRead s pc line = .plainUe →
          exec (.hostPoolRead f ctx addr n) s = .next (irq s
            (emit (memFault (countUe s) 37 who pc line) (.readData f addr zeros true))))) ∧
      (hostPlace s f addr = none →
        (∃ t, exec (.hostPoolWrite f ctx addr bytes) s = .next (irq s t) ∧ t.mem = s.mem) ∧
        (exec (.hostPoolRead f ctx addr n) s = .next (irq s
          (emit (memFault s 36 who at'.1 at'.2) (.readData f addr zeros true))))))

/-- A command that names the action of the entry in force runs that entry on its tile, ac by ac, as far as the tile has
heard (`ran`): HOLD acs, one for a FOLD. In an ac the pipelines complete, the entry acts, what lands is written, and
the switch moves the words; the tile's clock advances. WAIT, FOLD and END only route; FIRE, and FIRE_IF whose counter
is not zero, work the personality; LOAD and SELECT pop their CTRL word in the first ac, LOAD for its counter, SELECT
for the branch; READ reads out in the first ac. In its last ac the sequencer moves on, and a FOLD makes the target
slot active. A command whose entry is not the one in force changes nothing. (R69, R71, R78, R80, R81, R87, R126) -/
def Obligations.SequencerEntriesRun : Prop :=
  ∀ (s : State) (die tile : Nat) (x : Site), die ≤ 39 → tile ≤ 255 → siteOf s (tileKey die tile) = some x →
    let ran := irq s (runAcs x.k (entryLen x - x.d.ran) s)
    let a := x.e.action
    (coreBusy s x = false →
      (a = 0 → exec (.seqWait die tile) s = .next ran) ∧
      (a = 1 → ¬ isCompute x 2 = true → exec (.seqFire die tile) s = .next ran) ∧
      (a = 2 → ¬ (isCompute x 2 = true ∧ x.d.ctrs.getD x.e.ctr 0 ≠ 0) → exec (.seqFireIf die tile) s = .next ran) ∧
      (a = 3 → exec (.seqFold die tile) s = .next ran) ∧
      (a = 4 → exec (.seqLoad die tile) s = .next ran) ∧
      (a = 5 → exec (.seqSelect die tile) s = .next ran) ∧
      (a = 6 → exec (.seqRead die tile) s = .next ran ∧
        (bitOf (descWord x x.e.arg 8) 3 = true → exec (.rawReadout die tile) s = .next ran)) ∧
      (a = 7 → exec (.seqEnd die tile) s = .next ran)) ∧
    (a ≠ 0 ∨ coreBusy s x = true → exec (.seqWait die tile) s = .next (irq s s)) ∧
    (a ≠ 1 ∨ coreBusy s x = true → exec (.seqFire die tile) s = .next (irq s s)) ∧
    (a ≠ 2 ∨ coreBusy s x = true → exec (.seqFireIf die tile) s = .next (irq s s)) ∧
    (a ≠ 3 ∨ coreBusy s x = true → exec (.seqFold die tile) s = .next (irq s s)) ∧
    (a ≠ 4 ∨ coreBusy s x = true → exec (.seqLoad die tile) s = .next (irq s s)) ∧
    (a ≠ 5 ∨ coreBusy s x = true → exec (.seqSelect die tile) s = .next (irq s s)) ∧
    (a ≠ 6 ∨ coreBusy s x = true → exec (.seqRead die tile) s = .next (irq s s)) ∧
    (a ≠ 6 ∨ bitOf (descWord x x.e.arg 8) 3 = false ∨ coreBusy s x = true →
      exec (.rawReadout die tile) s = .next (irq s s)) ∧
    (a ≠ 7 ∨ coreBusy s x = true → exec (.seqEnd die tile) s = .next (irq s s)) ∧
    (entryLen x = if a = 3 then 1 else x.e.hold) ∧
    (∀ (n : Nat) (t : State), runAcs x.k 0 t = t ∧
      ∀ y, siteOf t x.k = some y →
        runAcs x.k (n + 1) t = if heard t y = true then runAcs x.k n (tileAc t y) else t) ∧
    (∀ t : State,
      (a = 0 ∨ a = 3 ∨ a = 7 → entryAct t x = t) ∧
      (a = 1 ∨ (a = 2 ∧ x.d.ctrs.getD x.e.ctr 0 ≠ 0) → entryAct t x = fireAct t x) ∧
      (a = 2 → x.d.ctrs.getD x.e.ctr 0 = 0 → entryAct t x = t) ∧
      (a = 4 ∨ a = 5 ∨ a = 6 → x.d.ran ≠ 0 → entryAct t x = t) ∧
      (a = 6 → x.d.ran = 0 → entryAct t x = readAct t x) ∧
      (a = 4 ∨ a = 5 → x.d.ran = 0 → suppressed t x = false →
        ∀ u w, popQueue t x (x.e.arg % 8) = (u, some w) →
          entryAct t x = setDyn u x fun d =>
            if a = 4 then { d with ctrs := d.ctrs.set x.e.ctr (w.payload.setWidth 16) }
            else { d with sel := some (w.payload.getLsbD 0) })) ∧
    (let t := if x.d.ran = 0 then traceNote s x else s
     let u := acStep (countSteps t (siteCtx t x) (if a = 1 ∨ a = 2 ∨ a = 6 then 1 else 0)) x fun s => entryAct s x
     let v := setDyn u x fun d => { d with ran := d.ran + 1 }
     let w := finishEntry v x (dynOf v x).sel
     tileAc s x = if x.d.ran + 1 < entryLen x then v
       else if a = 3 then strayIdle (setTile w x.k fun t => { t with active := x.e.arg % 8 }) x.k else w)

/-- A firing entry of a compute or memory tile runs its acs (`ran`). In an ac, a multiplier slot loads its weight
block first where the weight register holds another, then takes a word once the interval of its format has passed and
multiplies it; a merging slot takes exact partials, one word per ac; a special-function slot takes a word once its
interval has passed and applies its code; a memory tile makes one access through its port and steps the stream. A core
slot's firing entry starts a firing of the core, and passes at once where it has no budget. A tag-firing slot fires
through the same rows. A command whose row is not that of the entry in force changes nothing. (R78, R82, R83, R85, R86,
R88, R91, R92, R93, R127, R129, R130) -/
def Obligations.PersonalitiesFire : Prop :=
  ∀ (s : State) (die tile : Nat) (x : Site), die ≤ 39 → tile ≤ 255 → siteOf s (tileKey die tile) = some x →
    let ran := irq s (runAcs x.k (entryLen x - x.d.ran) s)
    let started := irq s (if x.sl.budget = 0 then finishEntry s x none else startCore s x)
    let core := decide (x.kind = 0) && decide (x.sl.pers = 2)
    let port := bits (descWord x x.e.arg 0) 1 0
    (fires x = true → coreBusy s x = false →
      (core = true → exec (.coreFiring die tile) s = .next started ∧
        (x.e.action = 1 → exec (.seqFire die tile) s = .next started) ∧
        (x.e.action = 2 → exec (.seqFireIf die tile) s = .next started)) ∧
      (x.sl.tagFiring = true → exec (.tagFiring die tile) s = .next (if core = true then started else ran)) ∧
      (x.kind = 0 → x.sl.pers = 0 → x.sl.mergeEn = true → exec (.exactMerge die tile) s = .next ran) ∧
      (x.kind = 1 → port < 2 → exec (.memoryTileRead die tile) s = .next ran) ∧
      (x.kind = 1 → 2 ≤ port → exec (.memoryTileWrite die tile) s = .next ran)) ∧
    (∀ c i, (c, i) ∈ [(0, Instr.sfExponential die tile), (1, .sfLogarithm die tile), (2, .sfReciprocal die tile),
        (3, .sfReciprocalSquareRoot die tile), (4, .sfSigmoid die tile), (5, .sfTanh die tile),
        (6, .softmaxPass1 die tile), (7, .softmaxPass2 die tile), (8, .radix4Butterfly die tile),
        (9, .minSumCheckNodeUpdate die tile), (10, .minSumDemapping die tile)] →
      (fires x = true → coreBusy s x = false → x.kind = 0 → x.sl.pers = 1 → bits (descWord x x.e.arg 0) 3 0 = c →
        exec i s = .next ran) ∧
      (fires x = false ∨ x.kind ≠ 0 ∨ x.sl.pers ≠ 1 ∨ bits (descWord x x.e.arg 0) 3 0 ≠ c →
        exec i s = .next (irq s s))) ∧
    (fires x = false ∨ coreBusy s x = true →
      ∀ c ∈ [Instr.coreFiring die tile, .tagFiring die tile, .exactMerge die tile, .memoryTileRead die tile,
        .memoryTileWrite die tile], exec c s = .next (irq s s)) ∧
    (core = false → exec (.coreFiring die tile) s = .next (irq s s)) ∧
    (x.sl.tagFiring = false → exec (.tagFiring die tile) s = .next (irq s s)) ∧
    (x.kind ≠ 0 ∨ x.sl.pers ≠ 0 ∨ x.sl.mergeEn = false → exec (.exactMerge die tile) s = .next (irq s s)) ∧
    (x.kind ≠ 1 ∨ 2 ≤ port → exec (.memoryTileRead die tile) s = .next (irq s s)) ∧
    (x.kind ≠ 1 ∨ port < 2 → exec (.memoryTileWrite die tile) s = .next (irq s s)) ∧
    (∀ t : State,
      (x.kind = 0 → x.sl.pers = 0 → suppressed t x = false →
        let u := if x.d.ran = 0 ∧ x.sl.mergeEn = false ∧ (tileOf t x.k).weight ≠ some (x.sl.ix, x.e.arg)
          then loadWeights t x else t
        let at' := tileOf u x.k
        (at'.ac < at'.mulReady ∨ suppressed u x = true → fireAct t x = u) ∧
        (at'.mulReady ≤ at'.ac → suppressed u x = false →
          ∀ v w, takeInput u x (bits (descWord x x.e.arg 4) 2 0) = (v, some w) →
            let n := if x.sl.mergeEn then 1 else if x.sl.format = 8 then 2
              else if x.sl.format = 7 ∧ x.sl.exact = true then 4 else 1
            let y := noteFiring (setTile v x.k fun t => { t with mulReady := t.ac + n }) x w
            fireAct t x = if x.sl.mergeEn then mergeWord y x (clrDue u x) w else multiplyWord y x (clrDue u x) w)) ∧
      (x.kind = 0 → x.sl.pers = 1 → suppressed t x = false →
        let at' := tileOf t x.k
        (at'.ac < at'.sfReady → fireAct t x = t) ∧
        (at'.sfReady ≤ at'.ac → ∀ v w, takeInput t x (bits (descWord x x.e.arg 4) 2 0) = (v, some w) →
          let n := sfInterval (sfCode x) (descBytes x x.e.arg)
          let y := noteFiring (setTile v x.k fun t => { t with sfReady := t.ac + n }) x w
          fireAct t x = sfWordAct y x (dynOf t x).taken w)) ∧
      (x.kind = 1 → suppressed t x = false → bitOf (descWord x x.e.arg 0) 2 = true →
        let p := look (tileOf t x.k).streams x.e.arg
        let a := streamAddr x p
        let y := noteFiring (setTile t x.k fun t => { t with streams := put t.streams x.e.arg (nextStream x p) }) x {}
        (0 ≤ a → a + 20 ≤ 2 ^ 20 → fireAct t x = if port < 2 then mtRead y x a.toNat else mtWrite y x a.toNat) ∧
        (a < 0 ∨ 2 ^ 20 < a + 20 → fireAct t x = slotFault y x 6)) ∧
      (x.kind < 2 → suppressed t x = true → ¬ core = true → fireAct t x = t))

/-- In a firing that goes on, the instruction at the program counter executes in its first ac: an arithmetic
instruction writes its result to rd and moves the program counter by 4, a branch moves it, a jump also writes
the return address, loads and stores move bytes of the window, the stream instructions move words between
queues, word buffers, lanes and the local output, s.end ends the work, and an illegal instruction raises fault
8. It takes 1 ac, or 2 for a multiplication, branch, jump or load, as far as the tile has heard; what is left of the
instruction in progress passes first (`u`). Each ac of the firing spends one of its budget: with the last the firing
ends and the sequencer goes on, and without s.end the budget fault is raised in that ac. The rest of an ended firing
idles. A command of another class than the instruction at the program counter changes nothing more. (R69, R89, R90,
R91) -/
def Obligations.CoreInstructionsExecute : Prop :=
  ∀ (s : State) (die tile : Nat) (x : Site), die ≤ 39 → tile ≤ 255 →
    let u := coreTail s (tileKey die tile)
    siteOf u (tileKey die tile) = some x →
    let c := coreOf u x
    let w := wordAt x c
    let run := fun (n : Nat) (f : State → State) =>
      irq s (coreTail (coreAc u x fun t => f (setCore t x fun c => { c with busy := n })) x.k)
    (coreReady u x .alu = true → exec (.coreAlu die tile) s = .next (run 1 fun t =>
      setCore t x fun c => nextPc (if opcodeOf w = 0x0F then c else writeX c (rdOf w) (aluResult c w)))) ∧
    (coreReady u x .mul = true → exec (.coreMul die tile) s = .next (run 2 fun t =>
      setCore t x fun c => nextPc (writeX c (rdOf w) (mulResult c w)))) ∧
    (coreReady u x .branch = true → exec (.coreBranch die tile) s = .next (run 2 fun t =>
      setCore t x fun c => { c with pc := pcAfter c (if branchTaken c w then immB w else 4) })) ∧
    (coreReady u x .load = true → exec (.coreLoad die tile) s = .next (run 2 fun t =>
      coreLoad t x c w)) ∧
    (coreReady u x .store = true → exec (.coreStore die tile) s = .next (run 1 fun t =>
      coreStore t x c w)) ∧
    (coreReady u x .rdcycle = true → exec (.rdcycle die tile) s = .next (run 1 fun t =>
      setCore t x fun c => nextPc (writeX c (rdOf w) (BitVec.ofNat 32 c.spent)))) ∧
    (coreReady u x .illegal = true → exec (.coreIllegalInstruction die tile) s = .next (run 1 fun t =>
      slotFault t x 8)) ∧
    (coreReady u x .sPop = true → exec (.sPop die tile) s = .next (run 1 fun t =>
      corePop t x w)) ∧
    (coreReady u x .sPush = true → exec (.sPush die tile) s = .next (run 1 fun t =>
      corePush t x c w)) ∧
    (coreReady u x .sGet = true → exec (.sGet die tile) s = .next (run 1 fun t =>
      setCore t x fun c =>
        nextPc (writeX c (rdOf w) (laneOf (wbOf c (rs1Of w)).payload (funct7Of w))))) ∧
    (coreReady u x .sPut = true → exec (.sPut die tile) s = .next (run 1 fun t =>
      setCore t x fun c => nextPc (setWb c (rdOf w)
        { wbOf c (rdOf w) with
          payload := setLane (wbOf c (rdOf w)).payload (funct7Of w) (readX c (rs2Of w)) }))) ∧
    (coreReady u x .sLdw = true → exec (.sLdw die tile) s = .next (run 2 fun t =>
      coreLdw t x c w)) ∧
    (coreReady u x .sStw = true → exec (.sStw die tile) s = .next (run 1 fun t =>
      coreStw t x c w)) ∧
    (coreReady u x .sCtr = true → exec (.sCtr die tile) s = .next (run 1 fun t =>
      setCore t x fun c => nextPc (writeX c (rdOf w) ((x.d.ctrs.getD (rs1Of w) 0).setWidth 32)))) ∧
    (coreReady u x .sTag = true → exec (.sTag die tile) s = .next (run 1 fun t =>
      setCore t x fun c => nextPc (writeX c (rdOf w) ((wbOf c (rs1Of w)).tag.setWidth 32)))) ∧
    (coreReady u x .sSettag = true → exec (.sSettag die tile) s = .next (run 1 fun t =>
      setCore t x fun c =>
        nextPc (setWb c (rs1Of w) { wbOf c (rs1Of w) with tag := (readX c (rs2Of w)).setWidth 16 }))) ∧
    (coreReady u x .sEnd = true → exec (.sEnd die tile) s = .next (run 1 fun t =>
      setCore t x fun c => nextPc { c with ended := true })) ∧
    (coreReady u x .jump = true → exec (.coreJump die tile) s = .next (run 2 fun t =>
      setCore t x fun c =>
        let target := if opcodeOf w = 0x6F then pcAfter c (immJ w)
          else wrapInt 32 ((readX c (rs1Of w)).toNat + immI w) / 2 * 2
        { writeX c (rdOf w) (BitVec.ofNat 32 (c.pc + 4)) with pc := target })) ∧
    (exec (.coreBudgetExpiry die tile) s = .next (irq s (coreIdle x.k budgetDone c.left u))) ∧
    (∀ k i, (k, i) ∈ [(CoreClass.alu, Instr.coreAlu die tile), (.mul, .coreMul die tile), (.branch, .coreBranch die tile),
        (.jump, .coreJump die tile), (.load, .coreLoad die tile), (.store, .coreStore die tile),
        (.rdcycle, .rdcycle die tile), (.illegal, .coreIllegalInstruction die tile), (.sPop, .sPop die tile),
        (.sPush, .sPush die tile), (.sGet, .sGet die tile), (.sPut, .sPut die tile), (.sLdw, .sLdw die tile),
        (.sStw, .sStw die tile), (.sCtr, .sCtr die tile), (.sTag, .sTag die tile), (.sSettag, .sSettag die tile),
        (.sEnd, .sEnd die tile)] →
      coreReady u x k = false → exec i s = .next (irq s u)) ∧
    (∀ (t : State) (f : State → State),
      let v := acStep (countSteps t (siteCtx t x) 1) x fun t => spendAc (f t) x
      coreAc t x f = if (coreOf v x).left = 0
        then finishEntry (setCore v x fun c => { c with left := 0, running := false, busy := 0 }) x none else v) ∧
    (∀ t : State,
      let v := setCore t x fun c => { c with left := c.left - 1, spent := c.spent + 1, busy := c.busy - 1 }
      spendAc t x = if (coreOf v x).left = 0 ∧ (coreOf v x).ended = false ∧ suppressed v x = false
        then slotFault v x 9 else v)

/-- x0 reads zero and a write of it is discarded; any other of x1 to x15 reads what was last written, and no
other register changes. An aligned load inside the window writes rd; an aligned store writes its bytes at their
place in the local store and no others; a misaligned access, or one that passes the window's end, raises fault
6. A pop takes the head of its queue into a word buffer. Lane writes read back and leave the other lanes. (R79,
R82, R89, R90, R95) -/
def Obligations.CoreRegistersAndAccesses : Prop :=
  (∀ (c : CoreCtx) (r q : Nat) (v : BitVec 32), c.regs.length = 15 →
    readX c 0 = 0 ∧ writeX c 0 v = c ∧
    (1 ≤ r → r ≤ 15 → readX (writeX c r v) r = v) ∧ (q ≠ r → readX (writeX c r v) q = readX c q)) ∧
  (∀ (p : BitVec 160) (l m : Nat) (v : BitVec 32), l < 5 → m < 5 →
    laneOf (setLane p l v) l = v ∧ (m ≠ l → laneOf (setLane p l v) m = laneOf p m)) ∧
  (∀ (s : State) (x : Site) (c : CoreCtx) (w : Nat),
    let a := memAddr c w
    let n := memSize w
    (a % n ≠ 0 ∨ x.sl.lsLen < a + n → coreLoad s x c w = slotFault s x 6 ∧ coreStore s x c w = slotFault s x 6) ∧
    (a % n = 0 → a + n ≤ x.sl.lsLen →
      (∃ b, windowRead s x a n = some b ∧ b.length = n ∧
        coreLoad s x c w = setCore s x fun c => nextPc (writeX c (rdOf w) (loadValue w b))) ∧
      (∀ i, i < n → look (tileOf (coreStore s x c w) x.k).ls (x.sl.lsBase + a + i) =
        (leBytes n (readX c (rs2Of w)).toNat).getD i 0) ∧
      (∀ k, k < x.sl.lsBase + a ∨ x.sl.lsBase + a + n ≤ k →
        look (tileOf (coreStore s x c w) x.k).ls k = look (tileOf s x.k).ls k))) ∧
  (∀ (s : State) (x : Site) (w : Nat) (v : TWord) (l : List TWord), bitOf x.sl.qmask (rs1Of w) = true →
    look (tileOf s x.k).queues (rs1Of w) = v :: l →
      ∃ t, popQueue s x (rs1Of w) = (t, some v) ∧ look (tileOf t x.k).queues (rs1Of w) = l ∧
        corePop s x w = setCore t x fun c => nextPc (setWb c (rdOf w) v))

/-- A tile command that names a die above 39 or a tile above 255 stops with noSuchTile, since the part has no
such tile; one that names a tile which runs no program in its cell changes nothing; and no other command stops
at all. (R44, R45, R51) -/
def Obligations.TilesThatDoNotExist : Prop :=
  (∀ (s : State) (die tile : Nat) (c : Instr),
    c ∈ [Instr.seqWait die tile, .seqFire die tile, .seqFireIf die tile, .seqFold die tile, .seqLoad die tile,
      .seqSelect die tile, .seqRead die tile, .rawReadout die tile, .seqEnd die tile, .tagFiring die tile,
      .exactMerge die tile, .sfExponential die tile, .sfLogarithm die tile, .sfReciprocal die tile,
      .sfReciprocalSquareRoot die tile, .sfSigmoid die tile, .sfTanh die tile, .softmaxPass1 die tile,
      .softmaxPass2 die tile, .radix4Butterfly die tile, .minSumCheckNodeUpdate die tile, .minSumDemapping die tile,
      .memoryTileRead die tile, .memoryTileWrite die tile, .coreFiring die tile, .coreAlu die tile,
      .coreMul die tile, .coreBranch die tile, .coreJump die tile, .coreLoad die tile, .coreStore die tile,
      .rdcycle die tile, .coreIllegalInstruction die tile, .coreBudgetExpiry die tile, .sPop die tile,
      .sPush die tile, .sGet die tile, .sPut die tile, .sLdw die tile, .sStw die tile, .sCtr die tile,
      .sTag die tile, .sSettag die tile, .sEnd die tile] →
    (39 < die ∨ 255 < tile → exec c s = .fault (.noSuchTile die tile)) ∧
    (die ≤ 39 → tile ≤ 255 → siteOf s (tileKey die tile) = none → exec c s = .next (irq s s))) ∧
  (∀ (c : Instr) (s : State) (f : Fault), exec c s = .fault f →
    ∃ die tile, f = .noSuchTile die tile ∧ (39 < die ∨ 255 < tile)) ∧
  (∀ (c : Instr) (s : State) (r : Refusal), exec c s ≠ .refused r)

/-- The tile of row r and column c has index 16r + c: r is read from bits 7:4 and c from bits 3:0. Row 0 has no
tile north of it and column 0 none west of it; the tile north lies in row r − 1, the tile west in column c − 1.
Its quadrant is Q0 to Q3 by the halves of rows and columns, with global index 4 × die + quadrant, below 160;
A17.Q2 is quadrant 70. (R51) -/
def Obligations.TilesAreAddressed : Prop :=
  (∀ die r c : Nat, die < 40 → r < 16 → c < 16 →
    tileKey die (16 * r + c) / 256 = die ∧
    bits (tileKey die (16 * r + c)) 7 4 = r ∧ bits (tileKey die (16 * r + c)) 3 0 = c ∧
    (besideTile (16 * r + c) 0 = if r = 0 then none else some (16 * (r - 1) + c)) ∧
    (besideTile (16 * r + c) 3 = if c = 0 then none else some (16 * r + (c - 1))) ∧
    (r < 8 → c < 8 → quadOfTile (tileKey die (16 * r + c)) = 4 * die + 0) ∧
    (r < 8 → 8 ≤ c → quadOfTile (tileKey die (16 * r + c)) = 4 * die + 1) ∧
    (8 ≤ r → c < 8 → quadOfTile (tileKey die (16 * r + c)) = 4 * die + 2) ∧
    (8 ≤ r → 8 ≤ c → quadOfTile (tileKey die (16 * r + c)) = 4 * die + 3) ∧
    quadOfTile (tileKey die (16 * r + c)) ≤ 159) ∧
  (∀ r c : Nat, 8 ≤ r → r < 16 → c < 8 → quadOfTile (tileKey 17 (16 * r + c)) = 70)

/-- TICK_CLOSE where the timetable closes writes the pass's record; a close away from the report's offset, or with
another step count, is marked in the record and raises fault 15. An HBM read slot counts a step, and a line in the
timetable's view, and sends its three words to the port 192 ac on, zeros with KIND 0 where the line faults or lies
outside the view (fault 36); a write slot takes three words and writes the line, faults 36 outside the view, and in a
replay writes nothing. A request of a ring becomes ready with its F entries, or is dropped while its context resets;
one of a binding once its words are held. At an entry offset the ready request of its turn enters, or the port carries
the fill words; a replay carries the words of the overrun pass. A result word leaves for the exit queue or its request.
Trace arming and the load-balancing bit are written in views C and O. Whatever meets none of this changes nothing.
(R145, R147, R148, R149, R150, R154, R157, R160, R161, R164, R373, R383) -/
def Obligations.TimetableEventsComplete : Prop :=
  ∀ (s : State) (c off : Nat),
    let t := ttOf s c
    let p := partOfCtx c
    let w := ttbBase p
    let at' := { s with tick := { s.tick with off := off } }
    (mayClose s c off = true →
      let bad := off ≠ t.report.closeAc ∨ t.schedCount ≠ t.report.schedTotal
      let r := recOf at' c 1 off false
      let a := { at' with tts := upd at'.tts c fun t => { t with closed := true } }
      let b := deliverRec a c (if bad then { r with faulted := true, faults := r.faults + 1 } else r)
      let d := if traceOf b c then endTrace b p else b
      exec (.tickClose c off) s = .next (irq s (if bad then raiseFault (orReg (incReg d (w + 0x10) 1) (w + 0x4) 0x8)
        { code := 15, named := .context c, detail := stepDiff t, off := off } else d))) ∧
    (mayClose s c off = false → exec (.tickClose c off) s = .next (irq s s)) ∧
    (∀ i d n, liveDesc s c i = some (d, n) →
      let line := descLine d n
      let now := { s with tick := { s.tick with off := 3 * descSlot d n } }
      let seen := inView now c d.pc line
      let moved := lineMoved now c i d.write seen
      let left := fun (u : State) =>
        (List.range 3).foldl (fun u k => hubTake u (hubInKey d.hub d.port) (3 * descSlot d n + k)) u
      let bytes := (List.range 3).flatMap (writeWord s d n) ++ [0, 0, 0, 0]
      let drawn := left { moved with fresh := s.fresh + 3 }
      (d.write = false →
        (seen = true →
          let r := readLine moved (.context c) d.pc line.toNat
          exec (.hbmSlotRead c i) s = .next (irq s (placeLine r.1 c d n (if r.2.2 then 0 else d.kind) r.2.1))) ∧
        (seen = false → exec (.hbmSlotRead c i) s = .next (irq s
          (placeLine (memFault moved 36 (.context c) d.pc (wrapInt 24 line)) c d n 0 (List.replicate 64 0)))) ∧
        exec (.hbmSlotWrite c i) s = .next (irq s s)) ∧
      (d.write = true → exec (.hbmSlotRead c i) s = .next (irq s s) ∧
        exec (.hbmSlotWrite c i) s = .next (irq s (
          if replaying drawn c then drawn
          else if inView drawn c d.pc line then writeLine drawn d.pc line.toNat bytes
          else memFault drawn 36 (.context c) d.pc (wrapInt 24 line))))) ∧
    (∀ i, liveDesc s c i = none →
      exec (.hbmSlotRead c i) s = .next (irq s s) ∧ exec (.hbmSlotWrite c i) s = .next (irq s s)) ∧
    (mayEnter s c off = true → replaying s c = false →
      let next := (readyOf at' (balanceGroup at' c) off)[lowerMembers at' c off]?
      (∀ q r, next = some (q, r) →
        let f : Flight := { off := off, hold := r.hold, postmark := r.postmark }
        exec (.entryOffset c off) s = .next (irq s (placeEntry
          { at' with
            queues := upd at'.queues q fun x => { x with ready := x.ready.erase r }
            binds := holdEntered at' r.hold off
            tts := upd at'.tts c fun t => entered t f r.words } c off r.words 0))) ∧
      (next = none →
        let f : Flight := { off := off, idle := true }
        let a := { at' with tts := upd at'.tts c fun t => entered t f t.report.fill }
        exec (.entryOffset c off) s = .next (irq s (placeEntry a c off (ttOf a c).report.fill 0)))) ∧
    (mayEnter s c off = true → replaying s c = true →
      exec (.entryOffset c off) s = .next (irq s (replayEntry s c off))) ∧
    (mayEnter s c off = false → exec (.entryOffset c off) s = .next (irq s s)) ∧
    (∀ q : Nat,
      let x := queueOf at' q
      (∀ i, (queueOf s q).kind = 5 → bindingOfQ at' q = some i →
        let b := look at'.binds i
        (∀ n h, firstReady b (tickCount at' * tickLen at' + off) = some (n, h) →
          let r : ReadyReq := { tick := h.readyAc / tickLen s, off := h.readyAc % tickLen s
                                words := fieldWords h b.descN b.fIn, postmark := (ctxOf s b.ctx).postmark
                                hold := some (i, n) }
          exec (.requestReady q off) s = .next (irq s (becomeReady { at' with binds := upd at'.binds i fun b =>
            { b with holds := upd b.holds n fun h => { h with ready := true } } } q r))) ∧
        (firstReady b (tickCount at' * tickLen at' + off) = none →
          exec (.requestReady q off) s = .next (irq s at'))) ∧
      (∀ c', (queueOf s q).kind = 5 → bindingOfQ at' q = none → ctxOfEntryQ at' q = some c' →
        let n := (ttOf at' c').report.entry.f
        let r := takeEntries at' (.context c') q n
        exec (.requestReady q off) s = .next (irq s (
          if ¬(x.enabled = true ∧ n ≠ 0 ∧ n ≤ occupancy x) then at'
          else if (ctxOf at' c').state = .resetting then countDead r.1 q 1
          else becomeReady r.1 q { tick := tickCount at', off := off, words := r.2.1
                                   postmark := BitVec.ofNat 16 r.2.2 }))) ∧
      ((queueOf s q).kind = 5 → bindingOfQ at' q = none → ctxOfEntryQ at' q = none →
        exec (.requestReady q off) s = .next (irq s at')) ∧
      ((queueOf s q).kind ≠ 5 → exec (.requestReady q off) s = .next (irq s s))) ∧
    (∀ v : TWord,
      (t.ran = true →
        let key := hubInKey t.report.exit.hub t.report.exit.port
        let word := (hubWordAt s key off).getD v
        let u := hubTake at' key off
        (flightAt t off = none → exec (.exitResult c v off) s = .next (irq s u)) ∧
        (∀ f, flightAt t off = some f →
          let out := !f.idle && !pastBarrier u c
          let y := { u with tts := upd u.tts c fun t => landed t f out }
          (out = false → exec (.exitResult c v off) s = .next (irq s y)) ∧
          (out = true → f.hold = none → exec (.exitResult c v off) s = .next (irq s (ringResult y c f word))) ∧
          (out = true → ∀ i n, f.hold = some (i, n) →
            exec (.exitResult c v off) s = .next (irq s
              { y with binds := holdResult y i n word (decide (f.left ≤ 1)), fresh := y.fresh + (look y.binds i).fOut })))) ∧
      (t.ran = false → exec (.exitResult c v off) s = .next (irq s s))) ∧
    (∀ (v : View) (n : Nat) (data : BitVec 32),
      let a := ttbBase n + 0x24
      (hasAccess v = true → n < 32 →
        exec (.ttbTraceArm v n data) s = .next (irq s (setReg s a
          (bits data.toNat 20 0 + ofBool (bitOf data.toNat 31 || bitOf (reg s a) 31) * 2 ^ 31)))) ∧
      (hasAccess v = false ∨ 32 ≤ n → exec (.ttbTraceArm v n data) s = .next (irq s s)) ∧
      (hasAccess v = true → c < 2048 → (part s p).radio = false ∨ data.getLsbD 0 = false →
        exec (.dlbEnWrite v c data) s = .next (irq s
          { s with tts := upd s.tts c fun t => { t with dlbEn := data.getLsbD 0 } })) ∧
      (hasAccess v = false ∨ 2048 ≤ c ∨ (data.getLsbD 0 = true ∧ (part s p).radio = true) →
        exec (.dlbEnWrite v c data) s = .next (irq s s)))

/-- TT_ADMIT whose report meets every row of R155 stages and arms the timetable and answers its boundary (for a job of
several chips, nothing yet); with a row that fails it is refused with that row, and only what the reads of its two
buffers did stays. Bytes that do not hash to the digest (row 4) are refused with DIGEST after the Sidings were written
and failed; a Siding that cannot be written refuses with STATE, and a report that cannot be read with BAD_PARAM.
TT_WITHDRAW brakes the job and withdraws at the next boundary. TT_RESUME of a suspended timetable within the quota
resumes there; LEVEL where the partition is halted, STATE and QUOTA otherwise. QUOTA_FORCE sets the tick-share quota of
an assigned function without a cut pending (STATE), tells the tenant, and cuts at the first boundary 4,096 ac on.
(R151, R155, R156, R173, R309, R310, R336, R337) -/
def Obligations.TimetableCommandsComplete : Prop :=
  ∀ (s : State) (h : CmdHdr) (c : Nat),
    let u := taken s h
    let i := cmdIndex s h.src
    let p := partOfCtx c
    (∀ group run image report il rl : Nat, takes s (.ttAdmit h c group run image report il rl) = true →
      let rb := hostRead u (.function 0) 0 report rl
      let ib := hostRead rb.1 (.function 0) 0 image il
      let im := (ib.2.map (·.1)).getD []
      (readReport ((rb.2.map (·.1)).getD []) = none →
        exec (.ttAdmit h c group run image report il rl) s = .next (irq s
          (statusWritten s ib.1 h 1 stBadParam 0 0))) ∧
      (∀ r', readReport ((rb.2.map (·.1)).getD []) = some r' →
        let r := asLoaded r' im
        let b := stagingBoundary ib.1 h c r im
        let x : Candidate := { ctx := c, group := group, report := r, image := im, tick := b.1 }
        let place := if 1 < r.chips then (jobTick c, 0) else (b.1, b.2.1)
        let full := (quadsOf r).any (stagingBlocked ib.1 p (sameStaging ib.1 p place))
        let t := addEffect (stageTimetable { ib.1 with fresh := ib.1.fresh + 1 } x run place) h i place.1
          (.swapIn p place.1 place.2)
        let row := failedRow ib.1 x [1, 2, 3, 4, 5, 6, 7, 8, 9, 10, 11, 12, 13]
        (row = none → exec (.ttAdmit h c group run image report il rl) s = .next (irq s (
          if full = true then statusWritten s ib.1 h 1 stState 0 0
          else if 1 < r.chips then fulfilled s t h 1 0 0 else fulfilled s t h 1 b.1 b.2.2))) ∧
        (∀ n, row = some n → n ≠ 4 → exec (.ttAdmit h c group run image report il rl) s = .next (irq s
          (statusWritten s ib.1 h 1 (stRow n) 0 0))) ∧
        (row = some 4 → exec (.ttAdmit h c group run image report il rl) s = .next (irq s
          (statusWritten s (badDigest ib.1 x b).state h 1 (if full = true then stState else stDigest) 0 0))))) ∧
    (takes s (.ttWithdraw h c) = true →
      let a := raiseBrake u c 7
      let t := { a with tts := upd a.tts c fun t => { t with state := .withdrawing } }
      exec (.ttWithdraw h c) s = .next (irq s (
        if mayWithdraw u c = false then turnedAway s h 1 stState 0
        else fulfilled s (addEffect t h i (nextTick t) (.withdraw c)) h 1 (nextTick t) 0))) ∧
    (takes s (.ttResume h c) = true →
      exec (.ttResume h c) s = .next (irq s (
        if tenantHalted u p = true then turnedAway s h 1 stLevel (levelCode u.level)
        else if (ttOf u c).state ≠ .suspended ∨ (ctxOf u c).state = .resetting ∨ resumePending u c = true then
          turnedAway s h 1 stState 0
        else if resumeFits u c = false then turnedAway s h 1 stQuota 1
        else fulfilled s (addEffect u h i (nextTick u) (.resume c)) h 1 (nextTick u) 0))) ∧
    (∀ f q : Nat, takes s (.quotaForce h f q) = true →
      let b := tickAfter4096 u
      let t := notice { u with vfs := upd u.vfs f fun v =>
        { v with qTick := BitVec.ofNat 32 q, cutPending := true, cutTick := BitVec.ofNat 64 b } } f (cutNotice 1 1 q b)
      exec (.quotaForce h f q) s = .next (irq s (
        if (vfOf u f).assigned = false ∨ (vfOf u f).cutPending = true then turnedAway s h 1 stState 0
        else fulfilled s (addEffect t h i b (.forcedCut f)) h 1 b 0)))

/-- PLAN_SWAP of a shadow plan that breaks no rule takes effect at the next boundary and is answered with it;
one that breaks a rule is refused with that PLAN code. RADIO_RESERVE of an open radio partition takes effect at
its boundary, or at the first one 4,096 ac on; too near a boundary is LATE, and a partition of another class or state
is STATE; one that would take a cell it may not is refused with that PLAN code. (R26, R28, R293, R337, R430, R431) -/
def Obligations.PlanCommandsComplete : Prop :=
  ∀ (s : State) (h : CmdHdr),
    let u := taken s h
    let i := cmdIndex s h.src
    (takes s (.planSwap h) = true →
      let c := planCode u (swapPlan u) (nextTick u)
      exec (.planSwap h) s = .next (irq s (
        if c ≠ 0 then turnedAway s h 1 (stPlan c) 0
        else fulfilled s (addEffect u h i (nextTick u) (.planSwap (shadowN u) (shadowStarts u))) h 1 (nextTick u) 0))) ∧
    (∀ (p boundary : Nat) (slices : BitVec 16) (qmask : BitVec 160),
      takes s (.radioReserve h p slices boundary qmask) = true →
      let b := if boundary = 0 then tickAfter4096 u else boundary
      let c := reserveCode u p b slices qmask
      exec (.radioReserve h p slices boundary qmask) s = .next (irq s (
        if (part u p).state ≠ .opened ∨ (part u p).radio = false then turnedAway s h 1 stState 0
        else if late4096 u boundary = true then turnedAway s h 1 stLate boundary
        else if c ≠ 0 then turnedAway s h 1 (stPlan c) 0
        else fulfilled s (addEffect u h i b (.reserve p slices qmask)) h 1 b 0)))

/-- For an open partition, and for a tenant's at the full level: SDG_FILL of a free Siding from an entry that serves
it waits for its loader; SDG_SWAP at the next eligible boundary, or at one that is named, in time and eligible, arms
the group; a late one is refused with STRICT and carried forward without; SHUNT_START of sound slices and Sidings and
SHUNT_STOP take effect at the next boundary. SCAN_OUT and SCAN_DUMP take the quadrant with a new bundle; SCAN_IN of a
bundle that meets every check takes it, and one that does not leaves the quadrant cleared and STALE with DIGEST or
MISMATCH. Each is refused with LEVEL for a tenant below the full level, and with STATE for a partition, Siding,
quadrant or plan of another state; a refused scan sets SCAN_FAIL. (R166, R169, R171, R174, R175, R176, R179, R183,
R185, R187, R190, R389) -/
def Obligations.SidingCommandsComplete : Prop :=
  ∀ (s : State) (h : CmdHdr) (p quad : Nat),
    let u := taken s h
    let i := cmdIndex s h.src
    let no := fun status r0 r1 => statusWritten s u h 1 status r0 r1
    let noScan := fun status r0 => statusWritten s (noteScanFail u) h 1 status r0 0
    let closed := (part u p).state ≠ .opened
    let low := tenantHalted u p = true
    let level := levelCode u.level
    (∀ (source entry : Nat) (mask : BitVec 64), takes s (.sdgFill h p source quad entry mask) = true →
      let d := placeOf u (loaderFree u quad (fillTiles u source quad entry) h.off + fillTime u source quad mask)
      let f : Fill := { part := p, quad := quad, source := source, entry := entry, mask := mask,
                        readyTick := d.1, readyOff := d.2, seq := u.admitSeq }
      exec (.sdgFill h p source quad entry mask) s = .next (irq s (
        if low then no stLevel level 0
        else if closed ∨ sidingBusy (sidingOf u p quad) = true ∨ entryServes u p source quad entry mask = false then
          no stState 0 0
        else fulfilled s
          (addEffect { u with fills := u.fills ++ [f], fresh := u.fresh + 1 } h i noTick (.fill p quad)) h 1 d.1 d.2))) ∧
    (∀ (strict slice boundary : Nat) (qmask : BitVec 160), takes s (.sdgSwap h p strict slice boundary qmask) = true →
      let arm := fun (late : Bool) (b : Nat × Nat × Nat) =>
        let ctxs := stagedIn u p qmask ++ (sideEntries u p qmask).filterMap fun e => entryCtx (look u.lib e)
        let g : SwapGroup := { tick := b.1, slice := b.2.1, strict := decide (strict = 1), qmask := qmask, adds := ctxs }
        let v := armGroup (if late = true then noteDeferred u else u) p g
        if entriesAdmissible u p qmask b.1 = false then no stState 0 0
        else fulfilled s (addEffect v h i b.1 (.swapIn p b.1 b.2.1)) h 1 b.1 b.2.2
      (low → exec (.sdgSwap h p strict slice boundary qmask) s = .next (irq s (no stLevel level 0))) ∧
      (¬low → closed ∨ groupReadyAt u p qmask = none →
        exec (.sdgSwap h p strict slice boundary qmask) s = .next (irq s (no stState 0 0))) ∧
      (∀ ready, ¬low → ¬closed → groupReadyAt u p qmask = some ready →
        let need := max (h.off + 256) (if ready = 0 then 0 else ready + 1)
        let adds := addedReports u p qmask
        let starts := activeStarts u
        let start := starts.getD slice 0
        let late := boundary < tickCount u ∨ (boundary = tickCount u ∧ slice = 0) ∨ distanceTo u boundary start < need
        exec (.sdgSwap h p strict slice boundary qmask) s = .next (irq s (
          if boundary = 0 then arm false (firstEligible u p qmask adds need)
          else if late then
            (if strict = 1 then no stLate boundary slice else arm true (firstEligible u p qmask adds need))
          else if starts.length ≤ slice ∨ (slice ≠ 0 ∧ sliceEligible u p qmask adds start = false) then no stState 0 0
          else arm false (boundary, slice, start))))) ∧
    (∀ (mask : BitVec 16) (qmask : BitVec 160), takes s (.shuntStart h p mask qmask) = true →
      exec (.shuntStart h p mask qmask) s = .next (irq s (
        if low then no stLevel level 0
        else if closed ∨ (part u p).radio = true ∨ ((look u.sdg p).shuntOn = true ∧ planSwapDue u = false) ∨
            shuntOk u p mask qmask = false ∨ entriesAdmissible u p qmask (nextTick u) = false ∨
            (setBitsOf 160 qmask.toNat).any (fun q => !shuntable u p q) = true then no stState 0 0
        else fulfilled s (addEffect u h i (nextTick u) (.shuntStart p mask qmask)) h 1 (nextTick u) 0))) ∧
    (takes s (.shuntStop h p) = true →
      exec (.shuntStop h p) s = .next (irq s (
        if (look u.sdg p).shuntOn = true then
          fulfilled s (addEffect u h i (nextTick u) (.shuntStop p)) h 1 (nextTick u) 0
        else no stState 0 0))) ∧
    (∀ dest : Nat,
      let out := fun kind => addEffect (markScan (startScanOut u p quad kind dest) quad true) h i noTick (.scan p quad)
      (takes s (.scanOut h p quad dest) = true →
        exec (.scanOut h p quad dest) s = .next (irq s (
          if low then noScan stLevel level
          else if scanAllowed u p quad = false ∨ sidingBusy (sidingOf u p quad) = true then noScan stState 0
          else fulfilled s (out 1) h 1 (tickCount u) h.off))) ∧
      (takes s (.scanDump h p quad dest) = true →
        exec (.scanDump h p quad dest) s = .next (irq s (
          if quad ∈ (look u.sdg p).dumpable ∧ u.scans.all (fun x => decide (¬(x.part = p ∧ x.quad = quad))) = true then
            fulfilled s (out 2) h 1 (tickCount u) h.off
          else noScan stState 0)))) ∧
    (∀ src len : Nat, takes s (.scanIn h p quad src len) = true →
      let r := hostRead u (.function 0) 0 src len
      let chk := checkBundle r.1 p quad ((r.2.map (·.1)).getD [])
      let may := scanAllowed u p quad = true ∧ sidingBusy (sidingOf u p quad) = false
      (low → exec (.scanIn h p quad src len) s = .next (irq s (noScan stLevel level))) ∧
      (¬low → ¬may → exec (.scanIn h p quad src len) s = .next (irq s (noScan stState 0))) ∧
      (∀ seq hole plain, ¬low → may → chk = .ok seq hole plain →
        let sc : Scan := { part := p, quad := quad, isIn := true, addr := src, len := len, seq := seq,
                           startTick := u.tick.count, plain := plain, hole := hole }
        let t := scanStatus (setSiding (markScan { r.1 with scans := r.1.scans ++ [sc] } quad true) p quad .scanning)
          p quad true 0
        exec (.scanIn h p quad src len) s = .next (irq s (fulfilled s
          (addEffect t h i noTick (.scan p quad)) h 1 (tickCount t) h.off))) ∧
      (¬low → may → chk = .badTag → exec (.scanIn h p quad src len) s = .next (irq s
        (statusWritten s (noteScanFail (refuseScanIn r.1 p quad 3)) h 1 stDigest 0 0))) ∧
      (¬low → may → chk = .mismatch → exec (.scanIn h p quad src len) s = .next (irq s
        (statusWritten s (noteScanFail (refuseScanIn r.1 p quad 4)) h 1 stMismatch 0 0))))

/-- LIB_INSTALL that meets its rows takes a free entry and its Shared lines (NO_RESOURCE without them), and
LIB_INSTALL_DONE writes the home copy, makes the entry usable and answers; a row that fails refuses with that row, a
report that cannot be read with BAD_PARAM. LIB_REMOVE of an entry that nothing needs frees it; IN_USE while a fill or
an armed Siding needs it, STATE where it is free. Library tiles are added to an open partition that owns the quadrant
(STATE otherwise), and released. A waiting fill whose loader is free starts, or fails where its source has gone; a
running fill and a scan complete; with none waiting nothing changes. (R169, R170, R171, R180, R182, R184, R187, R337)
-/
def Obligations.LibraryCommandsComplete : Prop :=
  ∀ (s : State) (h : CmdHdr) (p quad e : Nat),
    let u := taken s h
    let no := fun (t : State) status => statusWritten s t h 1 status 0 0
    (∀ image report il rl : Nat, takes s (.libInstall h p image report il rl) = true →
      let rb := hostRead u (.function 0) 0 report rl
      let ib := hostRead rb.1 (.function 0) 0 image il
      let read := rb.2.bind fun b => readReport b.1
      (read = none → exec (.libInstall h p image report il rl) s = .next (irq s (no rb.1 stBadParam))) ∧
      (∀ r', read = some r' →
        let im := (ib.2.map (·.1)).getD []
        let r := asLoaded r' im
        let parts := partsOfImage r im
        let x : Candidate := { ctx := installCtx p parts, report := r, image := im, tick := nextTick ib.1 }
        let n := (parts.map fun q => q.2.2.length / 64).sum
        let home := sharedLines ib.1 p n
        let y : LibEntry := { part := p, report := r, parts := parts, image := im, writing := true,
                              home := home, token := h.token, src := h.src, index := cmdIndex s h.src }
        (∀ row, failedRow ib.1 x installRows = some row →
          exec (.libInstall h p image report il rl) s = .next (irq s (no ib.1 (stRow row)))) ∧
        (failedRow ib.1 x installRows = none → freeEntry ib.1 = none →
          exec (.libInstall h p image report il rl) s = .next (irq s (no ib.1 stNoResource))) ∧
        (∀ a, failedRow ib.1 x installRows = none → freeEntry ib.1 = some a →
          exec (.libInstall h p image report il rl) s = .next (irq s (
            if home.length < n then no ib.1 stNoResource else { ib.1 with lib := put ib.1.lib a y }))))) ∧
    ((look s.lib e).writing = true →
      exec (.libInstallDone e) s = .next (irq s (libDone s e (look s.lib e)))) ∧
    ((look s.lib e).writing = false → exec (.libInstallDone e) s = .next (irq s s)) ∧
    (takes s (.libRemove h e) = true →
      let t := setLibCount { u with
        lib := erase u.lib e
        sdg := mapT u.sdg fun _ d => { d with lib := d.lib.filter fun kv => decide (kv.2 ≠ e + 1) } }
      exec (.libRemove h e) s = .next (irq s (
        if (look u.lib e).used = false then no u stState
        else if entryInUse u e = true then no u stInUse
        else fulfilled s t h 1 0 0))) ∧
    (∀ tiles : BitVec 16,
      let x := look u.libTiles quad
      let y : LibTiles := { tiles := x.tiles ||| tiles.setWidth 12, part := p }
      (takes s (.libtileAssign h p quad tiles) = true →
        exec (.libtileAssign h p quad tiles) s = .next (irq s (
          if (part u p).state ≠ .opened ∨ ownsAll (planNow u) p quad = false ∨ (x.tiles ≠ 0 ∧ x.part ≠ p) ∨
              (setBitsOf 12 tiles.toNat).any (fun i => !tileFree u ((memTiles quad).getD i 0)) = true then no u stState
          else fulfilled s
            (setLibCount (renewResidence { u with libTiles := put u.libTiles quad y })) h 1 0 0))) ∧
      (takes s (.libtileRelease h quad tiles) = true →
        exec (.libtileRelease h quad tiles) s = .next (irq s (fulfilled s
          (setLibCount (renewResidence { u with libTiles := upd u.libTiles quad (tilesLeft · tiles) })) h 1 0 0)))) ∧
    (∀ (f : Fill) (off : Nat), findFill s p quad false = some f →
      (fillMayStart s f = true → sidingBusy (sidingOf s p quad) = false →
        (entryServes s p f.source quad f.entry f.mask = true →
          exec (.fillStart p quad off) s = .next (irq s (fillStart s f off)) ∧
          sidingOf (fillStart s f off) f.part f.quad = .filling) ∧
        (entryServes s p f.source quad f.entry f.mask = false →
          exec (.fillStart p quad off) s = .next (irq s
            (fillFailed (dropFill { s with tick := { s.tick with off := off } } f) f)))) ∧
      (fillMayStart s f = false ∨ sidingBusy (sidingOf s p quad) = true →
        exec (.fillStart p quad off) s = .next (irq s s))) ∧
    (∀ off, findFill s p quad false = none → exec (.fillStart p quad off) s = .next (irq s s)) ∧
    (∀ f : Fill, findFill s p quad true = some f →
      exec (.fillComplete p quad) s = .next (irq s (fillComplete s f))) ∧
    (findFill s p quad true = none → exec (.fillComplete p quad) s = .next (irq s s)) ∧
    (∀ x : Scan, s.scans.find? (fun x => decide (x.part = p ∧ x.quad = quad)) = some x →
      exec (.scanComplete p quad) s = .next (irq s (scanDone s x))) ∧
    (s.scans.find? (fun x => decide (x.part = p ∧ x.quad = quad)) = none →
      exec (.scanComplete p quad) s = .next (irq s s))

/-- At the end of the last slice of a tick, outside a step, TICK_BOUNDARY runs the boundary one period on with
the measured draws; STEP_END at an aligned time, no sooner than the tick's own end, runs it and ends the step in
Acquiring with a master and in Free-run without. SLICE_BOUNDARY of the next slice opens it: the slots of quadrants whose
owner changes are given up, swaps due there, shunting exchanges, then the changeover of those quadrants. CHANGEOVER_END
256 ac on restarts the incoming owners' tiles. Any of them at another moment changes nothing. (R18, R23, R24, R27, R32,
R75, R120, R177, R435) -/
def Obligations.BoundariesComplete : Prop :=
  ∀ (s : State) (power : List (Nat × Nat)) (ns i : Nat),
    let p := periodNs (periodCode s)
    let last := (activeStarts s).length ≤ s.tick.slice + 1
    let ends := s.tick.boundaryNs + s.tick.openNs ≤ ns ∧ ns % p = reg s (bTck + 0xC) % p
    (s.tick.state ≠ .stepping → last →
      exec (.tickBoundary power) s = .next (irq s (boundary s (s.tick.boundaryNs + p) power))) ∧
    (s.tick.state = .stepping ∨ ¬last → exec (.tickBoundary power) s = .next (irq s s)) ∧
    (s.tick.state = .stepping → ends →
      let b := orReg (boundary s ns power) (bTck + 0x30) 0x20
      exec (.stepEnd ⟨ns, power⟩) s = .next (irq s
        (enterState (nonePending b) (if b.tick.ptpOk then .acquiring else .freeRun)))) ∧
    (s.tick.state ≠ .stepping ∨ ¬ends → exec (.stepEnd ⟨ns, power⟩) s = .next (irq s s)) ∧
    (s.tick.state ≠ .stepping → i = s.tick.slice + 1 → i < (activeStarts s).length →
      let qs := changedQuads (cellOwner s.cellA s.tick.slice) (cellOwner s.cellA i)
      let a := saveSlots { s with tick := { s.tick with off := (activeStarts s).getD i 0, slice := i }, changing := qs }
        fun q => if q ∈ qs then cellOwner s.cellA s.tick.slice q else none
      let b := takeSwaps a i
      exec (.sliceBoundary i) s = .next (irq s
        (beginChangeover ((shuntsAt b i).foldl (fun s x => shuntAt s x.1 x.2) b) qs))) ∧
    (s.tick.state = .stepping ∨ i ≠ s.tick.slice + 1 ∨ (activeStarts s).length ≤ i →
      exec (.sliceBoundary i) s = .next (irq s s)) ∧
    (i = s.tick.slice → s.changing ≠ [] →
      let at' := (activeStarts s).getD i 0 + 256
      exec (.changeoverEnd i) s = .next (irq s
        { s with
          tick := { s.tick with off := at' }
          tiles := mapT s.tiles fun k t => if quadOfTile k ∈ s.changing then restartTile t at' else t
          changing := [] })) ∧
    (i ≠ s.tick.slice ∨ s.changing = [] → exec (.changeoverEnd i) s = .next (irq s s))

/-- At a boundary every timetable that runs or withdraws in an open partition begins a fresh pass, and every
other one keeps what it held; the tick counter of every context with a timetable moves by one. At beacon, while
the management cores run, no timetable stays running; at the full level none is stopped. Tenants' settings take
effect. The new tick is counted, the time in Holdover grows by the time the tick that ended took, and a die's draw is shown, 65,535 at
most. (R18, R32, R64, R116, R137, R321, R389) -/
def Obligations.WhatABoundaryBegins : Prop :=
  ∀ (s : State) (c f : Nat),
    let t := ttOf s c
    let runs := (t.state = .running ∨ t.state = .withdrawing) ∧ (part s (partOfCtx c)).state = .opened
    (runs → ttOf (beginPasses s) c = freshPass t) ∧
    (¬runs → ttOf (beginPasses s) c = t) ∧
    (t.state ≠ .none → look? s.ctxs c ≠ none → (ctxOf (beginPasses s) c).ticks = (ctxOf s c).ticks + 1) ∧
    (t.state = .none → ctxOf (beginPasses s) c = ctxOf s c) ∧
    (s.level = .full → levelStops s = s) ∧
    (s.level = .beacon → coresRun s = true →
      (t.state = .running → (ttOf (levelStops s) c).state = .suspended ∧ (ttOf (levelStops s) c).ran = false) ∧
      (t.state ≠ .running → ttOf (levelStops s) c = t)) ∧
    ((vfOf (tenantSettings s) f).ctrlT = if look? s.vfs f = none then 0 else (vfOf s f).tctrl) ∧
    (∀ p power, (countTick s p).tick.count = s.tick.count + 1 ∧ (countTick s p).tick.slice = 0 ∧
      (countTick s p).tick.openNs = periodNs (periodCode s) ∧
      (s.tick.state = .holdover → (tickEnded s p).tick.holdNs = s.tick.holdNs + p) ∧
      (power < 64 → reg (powerReading s power p) (bDie + 0xA00 + 4 * power) = min p 65535))

/-- A READY for no admitted job is kept; at member 0 of a waiting job it is counted, and one that disagrees
brakes the job with cause 5. GO names the boundary of a waiting job, or brakes it with cause 5 where that is not a
boundary at least 256 ac still to come. Until every READY has come the timeout at member 0 brakes it with cause 5. A
first brake records its cause and the stop pass, raises fault 45 and is sent on; a later one only moves the stop pass
earlier and counts; one learnt after its pass has begun stops the job a pass later and is marked late. Where no job, or
none in that state, is named nothing changes. (R361, R362, R363, R392) -/
def Obligations.JobMessagesTakeEffect : Prop :=
  ∀ (s : State) (job : BitVec 64) (c member chips period run off ts : Nat) (phase : BitVec 32),
    let t := ttOf s c
    let r : ReadyCell := (member, chips, period, phase, run)
    let at' := { s with tick := { s.tick with off := off } }
    (ctxOfJob s job = none → exec (.readyReceived job member chips period phase run) s = .next (irq s
      { s with earlyReady :=
          (s.earlyReady.filter fun x => decide (¬(x.1 = job ∧ x.2.1 = member))) ++ [(job, r)] })) ∧
    (ctxOfJob s job = some c → t.report.member = 0 → t.job.state = .waiting →
      let a := setJob s c fun j => addReady j r
      exec (.readyReceived job member chips period phase run) s = .next (irq s
        (if readyMatch a (ttOf a c) then a else raiseBrake a c 5))) ∧
    (ctxOfJob s job = some c → t.report.member ≠ 0 ∨ t.job.state ≠ .waiting →
      exec (.readyReceived job member chips period phase run) s = .next (irq s s)) ∧
    (ctxOfJob at' job = none → exec (.goReceived job ts off) s = .next (irq s at') ∧
      ∀ port pass cause, exec (.brakeReceived port job pass cause member off) s = .next (irq s at')) ∧
    (ctxOfJob at' job = some c →
      (t.job.state ≠ .waiting → exec (.goReceived job ts off) s = .next (irq s at')) ∧
      (t.job.state = .waiting →
        (∀ n, tickAtNs at' ts = some n →
          (n ≠ nextTick s ∨ off + 256 ≤ tickLen s →
            exec (.goReceived job ts off) s = .next (irq s (scheduleJob at' c n ts))) ∧
          (n = nextTick s → tickLen s < off + 256 →
            exec (.goReceived job ts off) s = .next (irq s (raiseBrake at' c 5)))) ∧
        (tickAtNs at' ts = none → exec (.goReceived job ts off) s = .next (irq s (raiseBrake at' c 5)))) ∧
      (∀ port pass cause,
        let began := (t.job.state = .running ∨ (t.job.state = .braked ∧ t.state ≠ .staged ∧ t.job.stopped = false)) ∧
          pass ≤ t.job.pass
        let q := brakePass t pass
        (began → q = (t.job.pass + 1, true)) ∧ (¬began → q = (pass, false)) ∧
        (t.job.state = .braked → exec (.brakeReceived port job pass cause member off) s = .next (irq s
          (noteLate (orReg (setJob at' c fun j => jobBraked j q.1 cause) (bTrk + 0xC) 0x2) c q.2))) ∧
        (t.job.state ≠ .braked →
          let a := noteLate (brakeHere at' c q.1 cause) c q.2
          let b := raiseFault a { code := 45, named := .context c, locKind := 6, location := port, off := off }
          exec (.brakeReceived port job pass cause member off) s = .next (irq s
            (sendAlarms b (relayMembers t (look s.trunk port).peerId member) 1
              (alarmBody b t.report.jobId pass member t.report.chips cause)))))) ∧
    (t.report.member = 0 → t.job.state = .waiting → t.job.startNs = none → allReady t = false →
      exec (.barrierTimeout c) s = .next (irq s (raiseBrake s c 5))) ∧
    (t.report.member ≠ 0 ∨ t.job.state ≠ .waiting ∨ t.job.startNs ≠ none ∨ allReady t = true →
      exec (.barrierTimeout c) s = .next (irq s s))

/-- CTX_RESET of an active context brakes its job, enters RESETTING and answers the next tick. PART_RESET of a
partition neither FREE nor RESETTING enters RESETTING with its stages to come and answers its tick and offset.
DEVICE_RESET writes its status, then resets every domain but the always-on one with cause 2. LEVEL_DROP to a lower
level drops at once; the return to full waits for the next boundary. PART_ISOLATE of a partition neither FREE nor
ISOLATED isolates at once. Any other is refused with STATE, and during a device reset LEVEL_DROP and PART_ISOLATE are
too. (R383, R385, R386, R388, R390, R392, R408) -/
def Obligations.ResetCommandsComplete : Prop :=
  ∀ (s : State) (h : CmdHdr) (c p lv : Nat),
    let u := taken s h
    let at' := { u with tick := { u.tick with off := h.off } }
    let i := cmdIndex s h.src
    (takes s (.ctxReset h c) = true →
      let t := addEffect (acceptCtxReset at' c false) h i noTick (.ctxReset c)
      exec (.ctxReset h c) s = .next (irq s (
        if (ctxOf u c).state = .active then fulfilled s t h 1 (nextTick t) 0 else turnedAway s h 1 stState 0))) ∧
    (takes s (.partReset h p) = true →
      let t := addEffect (acceptPartReset at' p false) h i noTick (.partReset p)
      exec (.partReset h p) s = .next (irq s (
        if (part u p).state = .free ∨ (part u p).state = .resetting then turnedAway s h 1 stState 0
        else fulfilled s t h 1 (tickCount t) h.off))) ∧
    (takes s (.deviceReset h) = true →
      let t := fulfilled s { u with life := { u.life with resetting := true } } h 2 (tickCount u) h.off
      exec (.deviceReset h) s = .next (irq s (startDeviceReset t 2 false))) ∧
    (takes s (.levelDrop h lv) = true →
      exec (.levelDrop h lv) s = .next (irq s (
        if u.life.resetting = true then turnedAway s h 4 stState 0
        else if lv = 0 ∧ u.level = .radioOnly then addEffect u h i (nextTick u) .levelFull
        else if lv ≤ 2 ∧ levelCode u.level < lv then
          fulfilled s (dropLevel at' (if lv = 1 then .radioOnly else .beacon)) h 4 0 0
        else turnedAway s h 4 stState 0))) ∧
    (takes s (.partIsolate h p) = true →
      exec (.partIsolate h p) s = .next (irq s (
        if u.life.resetting = true ∨ (part u p).state = .free ∨ (part u p).state = .isolated then
          turnedAway s h 4 stState 0
        else fulfilled s (isolate u p) h 4 0 0)))

/-- A context reset ends where its own clearing runs, and a stage of a partition reset ends in its stage only. An
overdue partition reset raises fault 59 and leaves the partition out of service. Configuration requests are answered
from boot stage 4 on, complete with Retry Status from the link's training until then, and meet no link before: a
function-level reset resets an enabled VF, and of PF clears VF Enable; setting VF Enable records at most 1,023 VFs. An
expired window lowers its count. A watchdog raises its fault; those of the management and system controllers drop to
beacon and, with AUTO_DEV, reset the device. A host access that times out raises fault 49, and its buffer's bytes are
open. QUARANTINE_REPLAY collects first, then scans in for the lowest quarantine whose step it is; a dump without the
quadrant fails it. (R188, R296, R323, R368, R373, R383, R384, R385, R387, R404) -/
def Obligations.ResetEventsComplete : Prop :=
  ∀ (s : State) (c p f : Nat),
    let ends := (ctxOf s c).state = .resetting ∧ (ctxOf s c).stage = 2 ∧ (part s (partOfCtx c)).state ≠ .resetting
    (ends → exec (.ctxResetDone c) s = .next (irq s (ctxResetEnd s c))) ∧
    (¬ends → exec (.ctxResetDone c) s = .next (irq s s)) ∧
    (let x := part s p
     let late := raiseFault s { code := 59, named := .partition p, off := s.tick.off }
     exec (.partResetCollectEnd p) s = .next (irq s
       (if x.state = .resetting ∧ x.stage = 2 then collectEnd s p else s)) ∧
     exec (.partResetDone p) s = .next (irq s
       (if x.state = .resetting ∧ x.stage = 4 then partResetDone s p else s)) ∧
     exec (.resetOvertime p) s = .next (irq s
       (if x.state = .resetting then outNotice (partResetEnd late p .outOfService) p false else s))) ∧
    (configServed s = true →
      exec (.functionLevelReset f) s = .next (irq s (
        if f = 0 then (if s.life.vfEnable = true then clearVfEnable s else s)
        else if s.life.vfEnable = true ∧ f ≤ s.life.numVfs then functionReset s f else s)) ∧
      exec .vfEnableClear s = .next (irq s (if s.life.vfEnable = true then clearVfEnable s else s)) ∧
      exec (.vfEnableSet f) s = .next (irq s (if s.life.vfEnable = false ∧ f ≤ 1023 then
        { s with life := { s.life with vfEnable := true, numVfs := f } } else s))) ∧
    (configServed s = false →
      ∀ x ∈ [Instr.functionLevelReset f, .vfEnableClear, .vfEnableSet f],
        exec x s = .next (irq s (if pcieLinkUp s = true then emit s .configRetry else s))) ∧
    (exec .perstNAssert s = .next (irq s (
      if pcieLinkUp (clearVfEnable s) = true then emit (clearVfEnable s) .pcieTrain else clearVfEnable s))) ∧
    (∀ kind : Nat, exec (.escalationWindowExpiry kind p) s = .next (irq s (
      if kind < 3 ∧ p < 32 then setReg s (escCount kind p) (reg s (escCount kind p) - 1) else s))) ∧
    (coresRun s = true →
      (let t := deviceFault s 56
       exec .heartbeatWatchdog s = .next (irq s
        { t with life := { t.life with failover := t.life.failover || t.life.standbyReady } })) ∧
      (let m := deviceFault (dropLevel s .beacon) 57
       exec .mgmtWatchdog s = .next (irq s (if bitOf (reg m bFlt) 16 then startDeviceReset m 3 true else m))) ∧
      (let m := deviceFault (dropLevel s .beacon) 58
       exec .scWatchdog s = .next (irq s (if bitOf (reg m bFlt) 16 then startDeviceReset m 4 true else m)))) ∧
    (coresRun s = false → exec .heartbeatWatchdog s = .next (irq s s) ∧ exec .mgmtWatchdog s = .next (irq s s) ∧
      exec .scWatchdog s = .next (irq s s)) ∧
    (exec .scHeartbeat s = .next (irq s { s with life := { s.life with scBeat := s.tick.count } })) ∧
    (∀ addr len : Nat,
      let t := raiseFault s { code := 49, named := .function f, off := s.tick.off }
      exec (.hostTimeout f addr len) s = .next (irq s (
        if 1024 ≤ f then s
        else if hostOk t f addr len = true then
          hostWrite { t with fresh := t.fresh + len } f none addr (freeBytes t len)
        else t))) ∧
    (∀ q, quarantineDue s = some (p, q) →
      (q.collected = true → exec .quarantineReplay s = .next (irq s (
        if (quarantineScanIn s p q).2 = true then setQuarantine (quarantineScanIn s p q).1 p { q with armed := true }
        else quarantineFails (quarantineScanIn s p q).1 p q))) ∧
      (q.collected = false →
        let r := quarantineCollect s p q
        (r.2 = none → exec .quarantineReplay s = .next (irq s (quarantineFails r.1 p q))) ∧
        (∀ b, r.2 = some b → exec .quarantineReplay s = .next (irq s
          (quarantineArm r.1 p { q with collected := true, bundle := b }))))) ∧
    (quarantineDue s = none → exec .quarantineReplay s = .next (irq s s))

/-- With the count 1 to 3, 1 to 8 and 1 to 2, and the window 60 to 3,600, 600 to 3,600 and 3,600 to 14,400 s, a
write of an escalation register that does not raise the count and does not shorten the window stores both; any
other is not accepted: the register keeps its value. A write without access to the block, or of no such register,
changes nothing. (R398) -/
def Obligations.EscalationLimitsOnlyTighten : Prop :=
  ∀ (s : State) (v : View) (d : BitVec 32),
    (hasAccess v = true → ∀ which addr hi most least longest : Nat,
      (which, addr, hi, most, least, longest) ∈ [(0, bFlt + 0x40, 1, 3, 60, 3600),
        (1, bFlt + 0x44, 3, 8, 600, 3600), (2, bFlt + 0x48, 1, 2, 3600, 14400)] →
      let old := reg s addr
      let n := bits d.toNat hi 0
      let w := bits d.toNat 17 4
      ((1 ≤ n ∧ n ≤ most ∧ least ≤ w ∧ w ≤ longest) ∧ n ≤ bits old hi 0 ∧ bits old 17 4 ≤ w →
        exec (.fltEscWrite v which d) s = .next (irq s (setReg s addr (n + w * 16)))) ∧
      (¬((1 ≤ n ∧ n ≤ most ∧ least ≤ w ∧ w ≤ longest) ∧ n ≤ bits old hi 0 ∧ bits old 17 4 ≤ w) →
        exec (.fltEscWrite v which d) s = .next (irq s (orReg s (bFlt + 0x14) 0x200)) ∧
        reg (irq s (orReg s (bFlt + 0x14) 0x200)) addr = old)) ∧
    (∀ which : Nat, hasAccess v = false ∨ 3 ≤ which → exec (.fltEscWrite v which d) s = .next (irq s s))

/-- PWR_OK starts the rails with the first enable; each power-good raises the next one, the last starts the boot and
the PCIe link's training, and a timeout drops every enable and fails the boot with cause 1. Power-off quiets the
outputs and lowers the rails in reverse; a fall of PWR_OK leaves what outlives a loss of power. Each boot stage takes
its images from the bank with the better version that passes, or fails with its cause; the restore brings the store
back, and the end of the boot shows the part alive. An unmasked low RESET_N starts a device reset that holds until its
release. A station manager is enrolled while no partition is open. Out of their stage these change nothing.
(R399, R400, R402, R403, R404, R405, R406, R407, R409) -/
def Obligations.PowerAndBootComplete : Prop :=
  ∀ (s : State) (g ms : Nat) (b : Bool) (mac : BitVec 48),
    let l := s.life
    let st := fun (st : Stage) (l : Life) => if l.stage = .failed then l else { l with stage := st }
    (let t := powerLost s
     let on := { t with life := { t.life with
       pwrOk := true, stage := .rails, enables := [true, false, false, false] } }
     exec .powerOn s = .next (irq s (if l.pwrOk = true then s else on))) ∧
    (let next := { s with life := { l with goods := l.goods.set g true, enables := l.enables.set (g + 1) true } }
     let up := { s with life := { l with goods := l.goods.set g true, stage := .scRom } }
     exec (.railPowerGood g) s = .next (irq s (
       if railAwaited l g = false then s else if g < 3 then next else emit up .pcieTrain))) ∧
    (let off := { s with life := { l with enables := [false, false, false, false], stage := .failed, fail := 1 } }
     exec (.railPgTimeout g) s = .next (irq s (
       if railAwaited l g = true ∧ l.goods.getD g false = false then off else s))) ∧
    (exec .powerOff s = .next (irq s (if l.pwrOk = true ∧ l.poweringOff = false then beginPowerOff s else s))) ∧
    (let low := { s with life := lowerRails { l with goods := l.goods.set g false } g }
     exec (.powerGoodDeassert g) s = .next (irq s (
       if l.poweringOff = true ∧ l.pwrOffDone = false ∧ l.enables.getD g false = false ∧ l.goods.getD g false = true ∧
           (g = 0 ∨ l.enables.getD (g - 1) false = true) then low else s))) ∧
    (exec .pwrOkFall s = .next (irq s (if l.pwrOk = true then powerLost s else s))) ∧
    (exec .bootScRom s = .next (irq s (if l.stage = .scRom ∧ l.resetHolding = false then
      { s with life := st .scFw (bootImage 0 2 l) } else s))) ∧
    (exec .bootScFw s = .next (irq s (if l.stage = .scFw then
      { s with life := st .mgmt (bootImage 2 4 (bootImage 1 3 l)) } else s))) ∧
    (exec .bootMgmt s = .next (irq s (if l.stage = .mgmt then bootMgmt s else s))) ∧
    (exec (.bootTrain b) s = .next (irq s (
      if l.stage ≠ .train then s
      else if b = true then { s with life := { l with stage := .restore } }
      else { s with life := { l with stage := .failed, fail := 5 } }))) ∧
    (let back := { s with
       parts := s.store.parts
       vfs := s.store.vfs
       retired := s.store.retired
       pages := if l.cold then allClearing else s.pages
       life := { l with stage := .done, cold := false } }
     exec (.bootRestore b) s = .next (irq s (
       if l.stage ≠ .restore then s
       else if b = true then back
       else { s with life := { l with stage := .failed, fail := 6 } }))) ∧
    (exec (.bootDone ms) s = .next (irq s (if l.stage = .done ∧ l.alive = false then bootDone s ms else s))) ∧
    (let low := { s with life := { l with resetLevel := false } }
     let t := startDeviceReset low 1 false
     let held := { t with life := { t.life with resetHolding := true } }
     exec .resetNAssert s = .next (irq s (
       if pinWatched s = false ∨ l.resetHolding = true then s else if l.mask = true then low else held))) ∧
    (exec .resetNRelease s = .next (irq s (if pinWatched s = true then
      { s with life := { l with resetLevel := true, resetHolding := false, held := false } } else s))) ∧
    (exec .resetNHeld s = .next (irq s (if pinWatched s = true ∧ l.resetHolding = true then
      { s with life := { l with held := true } } else s))) ∧
    (exec (.stationManagerEnrolment mac) s = .next (irq s (if scRuns s = true ∧ noneOpen s = true then
      { s with store := { s.store with stationMac := mac, enrolled := true } } else s)))

/-- A maintenance command with an activity in conflict is refused with CONFLICT and the running activity. Otherwise it
starts its activity in the lowest free entry and answers its tick and offset: HBM_RETRAIN aborts the fills that read the
position and begins its copy where the stack's spare is sound (STATE otherwise); SM_UPDATE and SC_UPDATE write
images that pass to the banks not in use, others are refused with DIGEST; SERDES_RECAL runs; DIE_RETIRE of an
unused die (IN_USE otherwise) and ADMIT_REBUILD end as they start. Only an enrolled and permitted station manager masks
the reset pin (NOT_PERMITTED otherwise), which ends a reset it holds; whoever may send the command may unmask it.
(R338, R339, R408, R409, R410, R411, R414, R415) -/
def Obligations.MaintenanceCommandsComplete : Prop :=
  ∀ (s : State) (h : CmdHdr) (n image len : Nat),
    let u := taken s h
    let fine := fun (t : State) (agent : Nat) => irq s (fulfilled s t h agent (tickCount t) h.off)
    (∀ row ∈ [(Instr.hbmRetrain h n, 1, 1, n), (.smUpdate h image len, 1, 4, 0), (.scUpdate h image len, 2, 8, 0),
        (.serdesRecal h n, 1, 5, n), (.dieRetire h n, 1, 6, n), (.admitRebuild h, 1, 7, 0)],
      takes s row.1 = true → ∀ i a, conflictAct u row.2.2.1 row.2.2.2 0 = some (i, a) →
        exec row.1 s = .next (irq s (statusWritten s u h row.2.1 stConflict
          (actResult a.code a.scope.toNat a.start.toNat) i))) ∧
    (takes s (.hbmRetrain h n) = true → conflictAct u 1 n 0 = none →
      let a := abortFills u n
      (n / 32 ∉ u.spareBad → exec (.hbmRetrain h n) s = .next (fine
        (startAct { a with pcs := upd u.pcs n fun x => { x with copy := some 0, switching := false } }
          (freeAct u) 1 n false) 1)) ∧
      (n / 32 ∈ u.spareBad → exec (.hbmRetrain h n) s = .next (irq s (turnedAway s h 1 stState 0)))) ∧
    (let r := imageBytes u image len
     let v := r.1
     (takes s (.smUpdate h image len) = true → conflictAct u 4 0 0 = none →
       let x := imageOf 1 r.2
       let up : Update := { active := true, image := x, act := freeAct u }
       let t := { v with life := { writeBank v.life 1 x with
         updating := true, standbyReady := false, smUpdate := up } }
       (imageAccepted v.life 1 x = true →
         exec (.smUpdate h image len) s = .next (fine (startAct t (freeAct u) 4 0 false) 1)) ∧
       (imageAccepted v.life 1 x = false →
         exec (.smUpdate h image len) s = .next (irq s (statusWritten s v h 1 stDigest 0 0)))) ∧
     (takes s (.scUpdate h image len) = true → conflictAct u 8 0 0 = none →
       let x := imageOf 0 r.2
       let y := imageOf 2 r.2
       let up : Update := { active := true, image := x, image2 := y, act := freeAct u }
       let t := { v with life := { writeBank (writeBank v.life 0 x) 2 y with scPaused := true, scUpdate := up } }
       (imageAccepted v.life 0 x = true ∧ imageAccepted v.life 2 y = true →
         exec (.scUpdate h image len) s = .next (fine (startAct t (freeAct u) 8 0 false) 2)) ∧
       (imageAccepted v.life 0 x = false ∨ imageAccepted v.life 2 y = false →
         exec (.scUpdate h image len) s = .next (irq s (statusWritten s v h 2 stDigest 0 0))))) ∧
    (takes s (.serdesRecal h n) = true → conflictAct u 5 n 0 = none →
      exec (.serdesRecal h n) s = .next (fine (startAct u (freeAct u) 5 n false) 1)) ∧
    (takes s (.dieRetire h n) = true → conflictAct u 6 n 0 = none →
      (dieUsed u n = false → exec (.dieRetire h n) s = .next (fine (ranAct (retireDie u n) (freeAct u) 6 n) 1)) ∧
      (dieUsed u n = true → exec (.dieRetire h n) s = .next (irq s (turnedAway s h 1 stInUse 0)))) ∧
    (takes s (.admitRebuild h) = true → conflictAct u 7 0 0 = none →
      exec (.admitRebuild h) s = .next (fine (ranAct u (freeAct u) 7 0) 1)) ∧
    (takes s (.resetPinMask h n) = true →
      let masked := { u with life := { u.life with mask := true, resetHolding := false, held := false } }
      let unmasked := { u with life := { u.life with mask := false } }
      exec (.resetPinMask h n) s = .next (irq s (
        if n = 0 then fulfilled s unmasked h 4 0 0
        else if mayMask u h.src = true then fulfilled s masked h 4 0 0
        else turnedAway s h 4 stNotPermitted 0)))

/-- The end of a retrain's copy copies what is left, uncorrectable lines as poisoned, and arms the switch; the
retrain's end frees or retires the former pseudo-channel. A mirrored Stationmaster image waits for its handover, and the
end of an update makes its bank valid, raises the fused minimum and ends the activity; the new monitor of an SC update
waits for the harts. A recalibration ends done, or aborted where the link went down. A reading at or above a threshold
sets the bits of every threshold it reaches: HOT drops to beacon, TRIP also powers off. ALARM clears only when every
sensor is 5 °C below its threshold. Without power, and where nothing waits, nothing changes.
(R338, R410, R411, R412, R414, R415, R426) -/
def Obligations.MaintenanceEventsComplete : Prop :=
  ∀ (s : State) (n : Nat) (b : Bool) (temp : Int) (l : List (Nat × Int)),
    (∀ k, (pcOf s n).copy = some k →
      let t := (badLines s n k).foldl (fun s l => copyLine s n l) s
      exec (.hbmCopyDone n) s = .next (irq s
        { t with pcs := upd t.pcs n fun x => { x with copy := none, switching := true } })) ∧
    ((pcOf s n).copy = none → exec (.hbmCopyDone n) s = .next (irq s s)) ∧
    (let kept := { s with spareBad := s.spareBad.filter (· ≠ n / 32) }
     let lost := { s with retiredPcs := upd s.retiredPcs (n / 32) (· + 1) }
     exec (.hbmRetrainDone n b) s = .next (irq s (
       if retrainWaits s n = true then scrubDueStart (endActOf (if b = true then kept else lost) 1 n 1) else s))) ∧
    (let u := s.life.smUpdate
     let ended := { s with life :=
       { validBank s.life 1 u.image with updating := false, standbyReady := true, smUpdate := {} } }
     exec .smMirrorDone s = .next (irq s (if u.active = true ∧ u.handedOver = false then
       { s with life := { s.life with smUpdate := { u with mirrored := true } } } else s)) ∧
     exec .smUpdateDone s = .next (irq s (
       if u.active = true ∧ u.handedOver = true then scrubDueStart (endAct ended u.act 1) else s))) ∧
    (let u := s.life.scUpdate
     let m := validBank (validBank s.life 0 u.image) 2 u.image2
     let ended := { s with life :=
       { m with
         versions := m.versions.set 0 u.image.version
         measures := m.measures.set 0 u.image.digest
         scPaused := false, scUpdate := {}, monHarts := []
         monNew := some u.image2.version, monDigest := u.image2.digest } }
     exec .scUpdateDone s = .next (irq s (
       if u.active = true then scrubDueStart (endAct ended u.act 1) else s))) ∧
    (exec (.serdesRecalDone n b) s = .next (irq s (
      if (findAct s 5 n).isSome = true then scrubDueStart (endActOf s 5 n (if b = true then 2 else 1)) else s))) ∧
    (let there := s.life.pwrOk = true ∧ n < 72
     let t := thermAlarm (sense s n temp) n
     exec (.thermalAlarm n temp) s = .next (irq s (if there ∧ alarmAt n ≤ temp then t else s)) ∧
     exec (.thermalHot n temp) s = .next (irq s (if there ∧ hotAt n ≤ temp then thermHot t else s)) ∧
     exec (.thermalTrip n temp) s = .next (irq s (
       if ¬(there ∧ tripAt n ≤ temp) then s
       else if s.life.poweringOff = true then thermLow s
       else beginPowerOff (thermLow (thermHot t))))) ∧
    (let t := (l.filter fun ut => decide (ut.1 < 72)).foldl (fun s ut => sense s ut.1 ut.2) s
     exec (.thermalAlarmClear l) s = .next (irq s (
       if s.life.pwrOk = false then s
       else if units.all (fun k => decide (tempOf t k ≤ alarmAt k - 80)) = true then clrReg t bTherm 0x3 else t)))

/-- Each event moves a port only from the state it belongs to: training ends in identification, NO_ID for a
reserved identity, or FAILED; identification checks LAT_FIX and then the identity; agreement checks the peer and
its point, and gives both directions their keys; a measured latency of at most LAT_FIX − 8 makes the port UP
with 64 credits a channel, and a followed one a reference again. A link down fails it, a retry trains it again, and a
key is replaced after 2^31 cells. TRK_PORT_SKEW reads and clears its largest magnitude; a changed TRK_PORT_CTRL retrains
the port. FABRIC_ID_SET retrains every port (RESERVED_ID, and STATE while a job of several chips is admitted); ROUTE_SWAP
waits for the boundary (RESERVED_ID for a route to a reserved ID; STATE during a drain, and for a route to the own group
or member); a drain ends. (R14, R348, R349, R352, R357, R364, R366) -/
def Obligations.TrunkPortsComplete : Prop :=
  ∀ (s : State) (p a b c : Nat) (v : View) (h : CmdHdr) (d : BitVec 32) (genuine rx : Bool),
    let x := portAt s p
    let u := taken s h
    let there := hasAccess v = true ∧ p < 40
    (exec (.trkPortSkewRead v p) s = .next (irq s (
      if there then emit (updPort s p fun x => { x with skewMax := 0 }) (.regData (BitVec.ofNat 64 (skewWord x)))
      else emit s (.regData 0)))) ∧
    (let old := reg s (portWindow p)
     let y := keepField old (d.toNat &&& 0x1FFF0001) 28 16 (within (bits d.toNat 28 16) 256 8191)
     exec (.trkPortCtrlWrite v p d) s = .next (irq s (
       if there ∧ y ≠ old then portRetrain (setReg s (portWindow p) y) p else s))) ∧
    (exec (.trunkTrainingDone p a) s = .next (irq s (
      if x.state ≠ .training then s
      else if a ≠ 0 then portTo s p .failed a
      else if 250000 ≤ s.fabricId then portTo s p .noId 0 else portTo s p .identify 0))) ∧
    (let t := updPort s p fun x => { x with peerId := a, peerPort := b }
     exec (.trunkIdentify p a b c) s = .next (irq s (
       if x.state ≠ .identify then s
       else if c ≠ portLat t p then portTo t p .failed 5
       else if 250000 ≤ a ∨ a = s.fabricId then portTo t p .failed 6 else portTo t p .agree 0))) ∧
    (let key := Config.sharedSecret s.fresh (a * 2 ^ 384 + b)
     let own := if s.fabricId < x.peerId then 0 else 1
     let keyed := updPort (portTo { s with fresh := s.fresh + 1 } p .measure 0) p fun x =>
       { x with txKey := Config.linkKey key own, rxKey := Config.linkKey key (1 - own) }
     exec (.trunkAgree p (a, b) genuine) s = .next (irq s (
       if x.state ≠ .agree then s
       else if genuine = false then portTo s p .failed 3
       else if onCurve a b = false then portTo s p .failed 7 else keyed))) ∧
    (let lat := (a + 1) / 2
     let t := orReg (updPort s p fun x => portUp x lat) (bTrk + 0xC) 0x1
     let short := updPort s p fun x => { x with latMeas := lat }
     exec (.trunkMeasure p a) s = .next (irq s (
       if x.state ≠ .measure then s
       else if portLat s p < lat + 8 then portTo short p .failed 4
       else if followEn t = true ∧ followPort t = p then referenceFound t else t))) ∧
    (exec (.trunkRetry p) s = .next (irq s (
      if x.state = .failed ∧ portEn s p = true then portTo s p .training 0 else s))) ∧
    (exec (.trunkLinkDown p a) s = .next (irq s (if x.state = .down then s else portTo s p .failed a))) ∧
    (let rxNew := updPort s p fun x => { x with rxKey := ratcheted x.rxKey, rxCount := 0, rxGen := !x.rxGen }
     let txNew := updPort s p fun x => { x with txKey := ratcheted x.txKey, txCount := 0, txGen := !x.txGen }
     exec (.keyRatchet p rx) s = .next (irq s (
       if x.state ≠ .up ∨ (if rx = true then x.rxCount else x.txCount) < 2 ^ 31 then s
       else if rx = true then rxNew else txNew))) ∧
    (takes s (.fabricIdSet h a) = true →
      exec (.fabricIdSet h a) s = .next (irq s (
        if 250000 ≤ a then turnedAway s h 1 stReservedId 0
        else if ctxsWhere u (fun t => decide (1 < t.report.chips)) ≠ [] then turnedAway s h 1 stState 0
        else fulfilled s ((List.range 40).foldl portRetrain { u with fabricId := a }) h 1 0 0))) ∧
    (takes s (.routeSwap h) = true →
      let g := u.fabricId / 64
      let m := u.fabricId % 64
      exec (.routeSwap h) s = .next (irq s (
        if routesReserved u = true then turnedAway s h 1 stReservedId 0
        else if u.drain ≠ 0 ∨ routePending u = true then turnedAway s h 1 stState 0
        else if shadowValid u (bTrk + 0x20000 + 4 * g) = true then turnedAway s h 1 stState g
        else if shadowValid u (bTrk + 0x30100 + 4 * m) = true then turnedAway s h 1 stState (0x10000 + m)
        else fulfilled s (addEffect u h (cmdIndex s h.src) (nextTick u) .routeSwap) h 1 (nextTick u) 0))) ∧
    (exec .routeDrainEnd s = .next (irq s (if s.drain = 1 then { s with drain := 0 } else s)))

/-- An UP port sends in each slot the standing words of its timetable, else a cell of the next channel that has
a message and a credit, else an idle cell. A received cell counts, and what the FEC corrected with it; an uncorrectable
one, or one whose tag does not verify, is only counted. At a slot's delivery the words a timetable lists stand in their
ports, and each one missing raises fault 44 and brakes the job; words of a slot that none lists are dropped and counted.
The first message of a port is forwarded and its cells return as credits. A port that is not UP, or a slot beyond the
tick, moves nothing. (R346, R347, R348, R350, R353, R354, R356, R358, R366) -/
def Obligations.CellsAndMessagesMove : Prop :=
  ∀ (s : State) (p slot arrival : Nat) (cell : BitVec 800) (bad : Bool),
    let x := portAt s p
    let at' := fun (off : Nat) => { s with tick := { s.tick with off := off } }
    (p < 40 ∧ x.state = .up ∧ slot < slotsInTick s →
      let t := at' (slotOffset slot)
      let idle : CellHdr := { idle := true }
      (∀ w l, standingWords t p slot = w :: l →
        let hdr : CellHdr := { vc := 0, pos := 3, wv := wvOf (w :: l) }
        exec (.trunkCellSend p slot) s = .next (irq s
          (cellOut (takeWords t p slot (w :: l)) p slot hdr (wordsPayload (w :: l))))) ∧
      (standingWords t p slot = [] → nextVc x = none →
        exec (.trunkCellSend p slot) s = .next (irq s (cellOut t p slot idle []))) ∧
      (∀ vc, standingWords t p slot = [] → nextVc x = some vc →
        (headOf x vc = none → exec (.trunkCellSend p slot) s = .next (irq s (cellOut t p slot idle []))) ∧
        (∀ m, headOf x vc = some m →
          let k := look x.sent vc
          let hdr : CellHdr := { vc := vc, epoch := m.epoch && decide (vc ≠ 1), pos := posOf k (msgCells m) }
          exec (.trunkCellSend p slot) s = .next (irq s (cellOut (updPort t p fun x => sentCell x vc m) p slot hdr
            (slice (msgBytes m) (92 * k) 92)))))) ∧
    (¬(p < 40 ∧ x.state = .up ∧ slot < slotsInTick s) → exec (.trunkCellSend p slot) s = .next (irq s s)) ∧
    (p < 40 ∧ x.state = .up →
      let t := updPort (at' arrival) p fun x => { x with rxCount := x.rxCount + 1 }
      let t := bump { t with fresh := t.fresh + 1 } (portWindow p + 0x30) (Config.trunkCorrected s.fresh)
      (bad = true →
        exec (.trunkCellReceive p cell arrival bad) s = .next (irq s (bump t (portWindow p + 0x38) 1))) ∧
      (bad = false → openCell x.rxKey x.rxCount cell = none →
        exec (.trunkCellReceive p cell arrival bad) s = .next (irq s (bump t (portWindow p + 0x40) 1))) ∧
      (∀ payload, bad = false → openCell x.rxKey x.rxCount cell = some payload →
        exec (.trunkCellReceive p cell arrival bad) s = .next (irq s
          (takeCell t p arrival (wordHdr (cell.toNat % 2 ^ 32)) payload)))) ∧
    (¬(p < 40 ∧ x.state = .up) → exec (.trunkCellReceive p cell arrival bad) s = .next (irq s s)) ∧
    (p < 40 ∧ slot < slotsInTick s →
      let t := updPort (at' (placeOffset s p slot % tickLen s)) p fun x =>
        { x with held := x.held.filter fun h => decide (h.1 ≠ slot) }
      (∀ c, slotUser t p slot = some c → exec (.vc0Delivery p slot) s = .next (irq s
        ((listedWords t c p slot).foldl (fun s j => deliverWord s c p slot (heldOf x slot) j) t))) ∧
      (slotUser t p slot = none →
        (x.held.any (fun h => decide (h.1 = slot)) = false → exec (.vc0Delivery p slot) s = .next (irq s t)) ∧
        (x.held.any (fun h => decide (h.1 = slot)) = true → exec (.vc0Delivery p slot) s = .next (irq s
          (orReg (bump t (bTrk + 0x20) 1) (bTrk + 0xC) 0x20))))) ∧
    (¬(p < 40 ∧ slot < slotsInTick s) → exec (.vc0Delivery p slot) s = .next (irq s s)) ∧
    (∀ m l, x.inbox = m :: l →
      exec (.messageForward p) s = .next (irq s (forward (updPort s p fun x => { x with
        inbox := l
        toReturn := if 2 ≤ m.vc then upd x.toReturn m.vc (· + msgCells m) else x.toReturn }) m))) ∧
    (x.inbox = [] → exec (.messageForward p) s = .next (irq s s))

/-- TX_FRAME of an enabled and bound ring whose send is whole, fresh and well formed queues its frames; a stale
or malformed one, with nothing before it, is counted and gets its status, and waits its turn otherwise. EGRESS_CHOICE
once the frame in progress is over ends it and, on a subport that is up, starts the next: timing first, then radio, then
fair; at beacon a port with fronthaul sends timing only. EGS_RING takes a good word of an empty ring unless a tenant
asks for the radio class or too much weight, which raises an event; another word is discarded. A link change of a
subport is shown; a split changes only on a port that nothing uses, and a port that is turned off goes down.
(R220, R232, R233, R234, R236, R238, R246, R251, R286) -/
def Obligations.EgressAndPortsComplete : Prop :=
  ∀ (s : State) (q port sub off : Nat) (v : View) (b : Bool),
    let x := queueOf s q
    let es := sendEntries s x (takeIndex x) (occupancy x - x.inFlight)
    let whole := x.kind = 2 ∧ x.enabled = true ∧ ringBound s q = true ∧ es ≠ [] ∧
      (hasEop es = true ∨ ringLen x ≤ es.length)
    let inTurn := fun t => if x.inFlight = 0 then t else s
    let stale := staleSend s x.func es = true
    let long := 16 < es.length ∨ hasEop es = false
    let r := readSend s x.func es
    (¬whole → exec (.txFrame q) s = .next (irq s s)) ∧
    (whole → stale → exec (.txFrame q) s = .next (irq s
      (inTurn (sendDone (cnt s (ringPort s q) (ringSub s q) 0x188 es.length) q es.length 2 none)))) ∧
    (whole → ¬stale → long → exec (.txFrame q) s = .next (irq s (inTurn (malformedSend s q es)))) ∧
    (whole → ¬stale → ¬long →
      (r.2 = none → exec (.txFrame q) s = .next (irq s (inTurn (malformedSend r.1 q es)))) ∧
      (∀ data, r.2 = some data → exec (.txFrame q) s = .next (irq s (
        if malformed s (ringPort s q) es data = true then inTurn (malformedSend r.1 q es)
        else if x.inFlight ≠ 0 ∧ sendItems q es data = [] then s
        else queueSend r.1 q es data)))) ∧
    (let k := subKey port sub
     let t := finishFrame { s with tick := { s.tick with off := off } } port sub
     let u := (boundRings t k).foldl dropBarred t
     exec (.egressChoice port sub off) s = .next (irq s (
       if ¬(port < 16 ∧ sub < 8 ∧ frameOver s port sub off = true) then s
       else if linkUp u port sub = false ∨ (look u.egress k).quiet = true then u
       else choose u port sub off)) ∧
     (∀ it, (look u.egress k).timing = some it → choose u port sub off = startItem
       { u with egress := upd u.egress k fun e => { e with timing := none } } port sub off it) ∧
     ((look u.egress k).timing = none →
       (u.level = .beacon ∧ hasFronthaul u port = true → choose u port sub off = u) ∧
       (¬(u.level = .beacon ∧ hasFronthaul u port = true) →
         (∀ q, radioRing u k = some q → choose u port sub off = sendRing u port sub off q) ∧
         (∀ q, radioRing u k = none → fairRing u k = some q → choose u port sub off = sendRing u port sub off q) ∧
         (radioRing u k = none → fairRing u k = none → choose u port sub off = u)))) ∧
    (∀ data : BitVec 64,
      let w := data.toNat &&& 0xFFFF81FF
      let asks := x.func ≠ 0 ∧ bitOf w 15 = true
      exec (.egsRingWrite v q data) s = .next (irq s (
        if ¬(hasAccess v = true ∧ q < 8192) ∨ (x.kind = 2 ∧ occupancy x ≠ 0) ∨ egsWordOk x w = false then s
        else if asks ∧ (bits w 8 7 = 1 ∨ (vfOf s x.func).qWeight.toNat < weightWith s x.func q w) then
          orReg s (bEgs + 0x40) 0x1
        else setReg s (bEgs + 0x10000 + 8 * q) w))) ∧
    (let a := bMac + 0x10000 * port + 0x4
     let m := 0x101 * 2 ^ sub
     let changes := port < 16 ∧ sub < subportsOf s port ∧ b ≠ bitOf (reg s a) sub ∧
       (b = false ∨ portPowered s port = true)
     exec (.macLinkChange port sub b) s = .next (irq s (
       if ¬changes then s
       else if b = true then orReg (orReg s a m) (a + 0xC) 0x1
       else orReg (dropPartial (clrReg s a m) (subKey port sub)) (a + 0xC) 0x1))) ∧
    (∀ data : BitVec 32,
      let a := bMac + 0x10000 * port
      exec (.macSplitWrite v port data) s = .next (irq s (
        if ¬(hasAccess v = true ∧ port < 16) then s
        else if bits data.toNat 2 1 = bits (reg s a) 2 1 then
          setReg (if bitOf data.toNat 0 = true then s else portDown s port) a (data.toNat &&& 0x1F)
        else if splitTaken s port = true then newSplit s port data.toNat
        else orReg s (a + 0x10) 0x2)))

/-- A frame that starts on a link that is up reserves receive memory, or is dropped and counted where it does
not fit. Its decision follows its lowest matching rule or the port's default, on the table in force at its start. At
its end the line's errors are counted; a frame that fails a check is counted there and goes, and one that passes is
completed once decided. A rule of the shadow is written a byte, half, word or double at a time, and an event is raised
instead while the copy runs; SRT_SWAP of a sound shadow takes effect 4,096 ac on, a shadow with a bad rule is refused
with the rule and the reason, and STATE refuses it while another swap or copy runs. The copy then ends. MACSEC_SAK
installs a key that unwraps, and refuses another with DIGEST. (R221, R222, R223, R226, R227, R228, R229, R230, R242)
-/
def Obligations.ReceivedFramesComplete : Prop :=
  ∀ (s : State) (port sub off : Nat) (bytes : List Byte) (v : View) (h : CmdHdr),
    let k := subKey port sub
    let at' := { s with tick := { s.tick with off := off } }
    let n := maxLen at' port
    let starts := linkUp at' port sub = true ∧ receiving at' k = false ∧ (look at'.egress k).quiet = false
    let u := taken s h
    (let held := { at' with
       rx := upd at'.rx k fun l => l ++ [newRx at' port off n]
       staging := upd at'.staging port (· + n) }
     let t := orReg (cnt at' port sub 0xA0 1) (bMac + 0x10000 * port + 0x10) 0x8
     let fr : RxFrame := { newRx t port off 0 with dropped := true }
     exec (.frameSfd port sub off) s = .next (irq s (
       if ¬starts then at'
       else if look at'.staging port + n ≤ 1048576 then held
       else { t with rx := upd t.rx k fun l => l ++ [fr] }))) ∧
    (∀ fr, undecided at' k = some fr →
      (fr.ended = none →
        let r := decideFrame at' port sub fr bytes
        exec (.frameHeaderDecision port sub bytes off) s = .next (irq s (replaceRx r.1 port sub fr r.2))) ∧
      (∀ b, fr.ended = some b →
        let r := decideFrame at' port sub fr b
        exec (.frameHeaderDecision port sub bytes off) s = .next (irq s
          (complete (removeRx r.1 port sub fr) port sub r.2 b)))) ∧
    (undecided at' k = none → exec (.frameHeaderDecision port sub bytes off) s = .next (irq s at')) ∧
    (∀ fr p clear rule r, findRule (tableFor at' fr) port p clear = some (rule, r) →
      (ruled at' port fr p clear).decided = true ∧ (ruled at' port fr p clear).rule = some rule) ∧
    (∀ fr, (look at'.rx k).find? (·.ended.isNone) = some fr →
      let t := countLine at' port sub
      let w := countKept (if isSecured bytes = true then secTaken t port sub bytes else t) port sub bytes
      (fr.dropped = true ∧ fr.action ≠ 3 →
        exec (.frameEnd port sub bytes off) s = .next (irq s (removeRx t port sub fr))) ∧
      (¬(fr.dropped = true ∧ fr.action ≠ 3) →
        (∀ o, endCheck t port sub bytes = some o → exec (.frameEnd port sub bytes off) s = .next (irq s
          (cnt (removeRx t port sub fr) port sub o 1))) ∧
        (endCheck t port sub bytes = none → exec (.frameEnd port sub bytes off) s = .next (irq s
          (if fr.decided = true then complete (removeRx w port sub fr) port sub fr bytes
           else keepPart w port sub fr bytes))))) ∧
    ((look at'.rx k).find? (·.ended.isNone) = none →
      exec (.frameEnd port sub bytes off) s = .next (irq s at')) ∧
    (∀ (o size : Nat) (data : BitVec 64),
      exec (.srtShadowRuleWrite v o size data) s = .next (irq s (
        if ¬(hasAccess v = true ∧ size ∈ [1, 2, 4, 8] ∧ o % size = 0 ∧ o + size ≤ 128) then s
        else if s.srtCopying = true then orReg s (bSrt + 0xC) 0x4
        else { s with srtS := upd s.srtS (shadowSel s) fun r => ruleWith r o size data.toNat }))) ∧
    (let ended := { s with srtS := s.srtA, srtCopying := false }
     exec .srtCopyDone s = .next (irq s (if s.srtCopying = true then orReg ended (bSrt + 0xC) 0x2 else s))) ∧
    (takes s (.srtSwap h) = true →
      let t := { u with srtPending := true, srtNext := u.srtS }
      (u.srtCopying = true ∨ u.srtPending = true →
        exec (.srtSwap h) s = .next (irq s (turnedAway s h 1 stState 0))) ∧
      (¬(u.srtCopying = true ∨ u.srtPending = true) →
        (badRule u = none → exec (.srtSwap h) s = .next (irq s (fulfilled s
          (addEffect t h (cmdIndex s h.src) (tickAfter4096 u) .srtSwap) h 1 (tickAfter4096 u) 0))) ∧
        (∀ rule why, badRule u = some (rule, why) →
          exec (.srtSwap h) s = .next (irq s (turnedAway s h 1 0x200 (rule + why * 4096)))))) ∧
    (∀ chan an suite src : Nat, takes s (.macsecSak h port sub chan an suite src) = true →
      let r := hostRead u (.function 0) 0 src (sakBufLen suite)
      let no := irq s (statusWritten s r.1 h 2 stDigest 0 0)
      (∀ b, r.2 = some (b, false) →
        (∀ key, sakOf r.1 suite b = some key → exec (.macsecSak h port sub chan an suite src) s = .next (irq s
          (fulfilled s (installSak r.1 port sub chan an suite key) h 2 0 0))) ∧
        (sakOf r.1 suite b = none → exec (.macsecSak h port sub chan an suite src) s = .next no)) ∧
      ((∀ b, r.2 ≠ some (b, false)) → exec (.macsecSak h port sub chan an suite src) s = .next no))

/-- The descriptors of the oldest request that waits for them are compared with its binding's: a match holds its
fields and the ac from which they may enter, max(h + 64, f) + 24; a mismatch abandons it. A die short of reply sequence
numbers gets 2^30. A due recall notice is sent; a produced reply is handed over no earlier than its time. From the eighth
ac after its last byte the verdict is the lowest failure that applies; a passing one delivers the bulk payload, and what
a failing one does follows from where the reply stands. BIND to a standing tenant timetable that meets the five
conditions makes a binding; UNBIND waits for the boundary. Out of their time or place these change nothing but the
offset. (R255, R257, R259, R260, R261, R262, R263, R264, R265, R268, R270) -/
def Obligations.CutThroughComplete : Prop :=
  ∀ (s : State) (port sub off : Nat) (bytes : List Byte) (h : CmdHdr),
    let at' := { s with tick := { s.tick with off := off } }
    let u := taken s h
    let still := Host.Outcome.next (irq s at')
    (∀ i n, oldestHold at' port sub (fun h => !h.descOk) = some (i, n) →
      let b := look at'.binds i
      let x := look b.holds n
      let plain := decryptBody x bytes
      let hdr := fun (h : Hold) => h.hdrOff + h.lead + 31
      let ready := fun (h : Hold) => max (byteAt at' h (hdr h) + 64) (byteAt at' h (hdr h + fieldBytes b)) + 24
      exec (.requestDescriptorsArrived port sub bytes off) s = .next (irq s (
        if bytes.length < 4 * reqDescCount (holdAt at' i n).header then at'
        else if descsMatch b x plain = true then updHold at' i n fun h =>
          { h with body := plain, descOk := true, readyAc := ready h,
                   echo := (sha256 (bytes.take (fieldBytes b))).take 16 }
        else freeHold (cutBad at' 0x138) i n))) ∧
    (oldestHold at' port sub (fun h => !h.descOk) = none →
      exec (.requestDescriptorsArrived port sub bytes off) s = still) ∧
    (∀ die dom : Nat,
      let b := look s.seqBlocks (seqKey die dom)
      let c := (look s.domains dom).replySeq
      exec (.replySeqGrant die dom) s = .next (irq s (
        if die < 8 ∧ dom < 1024 ∧ b.left + b.left2 ≤ 2 ^ 29 ∧ (look s.domains dom).state ≠ .empty ∧
            agentUp s 2 = true then
          { s with
            domains := upd s.domains dom fun d => { d with replySeq := c + 2 ^ 30 }
            seqBlocks := upd s.seqBlocks (seqKey die dom) fun b => seqGranted b c }
        else s))) ∧
    (∀ i n : Nat,
      let b := look at'.binds i
      let x := look b.holds n
      exec (.replyHandover i n off) s = .next (irq s (
        if x.used = false ∨ at'.level = .beacon then at'
        else if x.recallDue = true then handRecall at' i n
        else if x.reply = .produced ∧ x.noReply = false ∧ handAc at' b x ≤ absAc at' off then
          handover at' i n (absAc at' off)
        else at'))) ∧
    (∀ i n ended, oldestHold at' port sub (fun h => h.verdict.isNone) = some (i, n) →
      let x := holdAt at' i n
      let v := byteAt at' x ((if ended = true then min bytes.length x.declared else x.declared) - 1) + 8
      let code := verdictCode at' x bytes ended
      let t := updHold at' i n fun h => { h with verdict := some code, verdictAt := v }
      exec (.verdict port sub bytes ended off) s = .next (irq s (
        if absAc at' off < v then at'
        else if code = 0 then passRequest t i n bytes
        else failReply (bump t (bCut + (0x138 + 8 * code)) 1) i n code v bytes.length))) ∧
    (∀ ended, oldestHold at' port sub (fun h => h.verdict.isNone) = none →
      exec (.verdict port sub bytes ended off) s = still) ∧
    (∀ entryQ ring bulkQ recallQ tenant model fOut bulkEn descN descAddr : Nat,
      let c := .bind h entryQ ring bulkQ recallQ tenant model fOut bulkEn descN descAddr
      takes s c = true →
      (standingOf u entryQ = none → exec c s = .next (irq s (turnedAway s h 1 stState 0))) ∧
      (∀ k, standingOf u entryQ = some k →
        let r := hostRead u (.function 0) 0 descAddr (4 * (descN + 1))
        let descs := descList ((r.2.map (·.1)).getD []) (descN + 1)
        let e := (ttOf r.1 k).report.entry
        let why := bindRefusal r.1 k entryQ ring bulkQ recallQ descs
        let x : Binding :=
          { valid := true, holdT := (vfOf r.1 (funcOfCtx r.1 k)).ctrlT.getLsbD 1, func := funcOfCtx r.1 k
            tenant := tenant, model := model, entryQ := entryQ, replyRing := ring, bulkQ := bulkQ
            bulkEn := decide (bulkEn = 1), recallQ := recallQ, fIn := e.f, descN := descN + 1, fOut := fOut, d := e.d
            ii := e.ii, ctx := k, descs := descs }
        (why ≠ 0 → exec c s = .next (irq s (statusWritten s r.1 h 1 (0x400 + why) 0 0))) ∧
        (why = 0 → freeBinding r.1 = none →
          exec c s = .next (irq s (statusWritten s r.1 h 1 stNoResource 0 0))) ∧
        (∀ i, why = 0 → freeBinding r.1 = some i →
          exec c s = .next (irq s (fulfilled s { r.1 with binds := put r.1.binds i x } h 1 (tickCount r.1) h.off))))) ∧
    (∀ entryQ : Nat, takes s (.unbind h entryQ) = true →
      (bindingAt u entryQ = none → exec (.unbind h entryQ) s = .next (irq s (turnedAway s h 1 stState 0))) ∧
      (∀ b, bindingAt u entryQ = some b →
        let t := { u with binds := upd u.binds b fun x => { x with removing := true } }
        exec (.unbind h entryQ) s = .next (irq s (
          if (look u.binds b).removing = true then turnedAway s h 1 stState 0
          else fulfilled s (addEffect t h (cmdIndex s h.src) (nextTick t) (.unbind b)) h 1 (nextTick t) 0))))

/-- A cipher message of a context that may submit work waits in order of arrival. In a period a unit first drops
a message whose context was reset, then runs the oldest waiting code block, else the cipher message whose turn
it is: the one in progress goes on unless one of another stream waits, and otherwise makes room for the longest
waiting. A whole job of the right direction is taken from its port and waits; one that a unit has run returns its
words and is counted. Reading the longest radio wait clears it. Where there is no such die, unit, port, message or
job nothing changes. (R239, R248, R279, R280, R281, R282) -/
def Obligations.EnginesComplete : Prop :=
  ∀ (s : State) (die n stream ctx len key : Nat) (v : View),
    (exec (.cipherMessageSubmit die stream ctx len key) s = .next (irq s (
      if die < 8 ∧ submitter s ctx = true then updEng s die fun e =>
        { e with waiting := e.waiting ++ [newMsg s e stream ctx len key], nextId := e.nextId + 1 }
      else s))) ∧
    (die < 8 ∧ n < 12 →
      let t := updEng s die fun e => tidyUnit s e n
      let now := absAc s s.tick.off
      (∀ x, oldestJob (look t.engines die) now = some x →
        exec (.enginePeriod die n) s = .next (irq s (runJob t die n now x))) ∧
      (oldestJob (look t.engines die) now = none →
        let a := if slotsFull t (look t.engines die) then orReg t (bSeg + 0x80) 0x2 else t
        exec (.enginePeriod die n) s = .next (irq s
          { updEng a die fun e => cipherWork a e n with fresh := a.fresh + 2 }))) ∧
    (¬(die < 8 ∧ n < 12) → exec (.enginePeriod die n) s = .next (irq s s)) ∧
    (∀ e m, currentMsg s e n = some m → goesOn s e m = true → cipherWork s e n = runMsg s e n m) ∧
    (∀ e m, currentMsg s e n = some m → goesOn s e m = false →
      cipherWork s e n = (startLongest s (saveMsg e n m) n).getD (saveMsg e n m)) ∧
    (die < 8 ∧ n < 8 → ∀ w l, submitted s die n = w :: l →
      let hd := fecHdr w.2
      let m := inputWords hd
      let j := newJob s die n hd (w :: l.take m)
      let t := updEng { s with hub := put s.hub (hubKey die (Config.fecPort die n 0)) (l.drop m) } die fun e =>
        { e with jobs := e.jobs ++ [j] }
      exec (.ldpcDecode die n) s = .next (irq s (if hd.encode = false ∧ m ≤ l.length then t else s)) ∧
      exec (.ldpcEncode die n) s = .next (irq s (if hd.encode = true ∧ m ≤ l.length then t else s))) ∧
    (¬(die < 8 ∧ n < 8) ∨ submitted s die n = [] →
      exec (.ldpcDecode die n) s = .next (irq s s) ∧ exec (.ldpcEncode die n) s = .next (irq s s)) ∧
    (∀ x, (look s.engines die).jobs.find? (fun x => decide (x.port = n)) = some x →
      let t := updEng s die fun e => { e with jobs := e.jobs.erase x }
      exec (.fecReturn die n) s = .next (irq s (
        if x.waiting = true then s else countJob (returnWords t die x) die x))) ∧
    ((look s.engines die).jobs.find? (fun x => decide (x.port = n)) = none →
      exec (.fecReturn die n) s = .next (irq s s)) ∧
    (let a := bSeg + 0x40 + 8 * die
     exec (.segRadioWaitRead v die) s = .next (irq s (
       if hasAccess v = true ∧ die < 8 then emit (setReg64 s a 0) (.regData (BitVec.ofNat 64 (reg64 s a)))
       else emit s (.regData 0))))

/-- An enabled node answers a status request with its reply, whose SEQ and TCK_COUNT stand most significant byte first,
and takes frames by their kind: a command waits, or is counted where the queue is full; the kinds for other nodes are
counted as received. A runt goes; a bad FCS, a longer frame or another type is counted. The node sends the frame in
front when it may, and a collision starts a backoff below 2^min(attempts, 10), or abandons the frame after 16 attempts;
PLCA has no collisions. A PLCA beacon is seen and starts PLCA where it is on, and node 0 sends it; its loss ends both.
While the reset is held a notice goes out. A node that is not enabled does none of it. (R10, R222, R243, R244, R252) -/
def Obligations.StationBusComplete : Prop :=
  ∀ (s : State) (src : BitVec 48) (seq : BitVec 16) (b : List Byte) (f : Bool),
    let n := s.station.attempts + 1
    let c := bump s (bStb + 0x130) 1
    let gone := { c with station := { c.station with txq := c.station.txq.drop 1, attempts := 0, backoff := none } }
    let backed := { c with
      fresh := c.fresh + 1
      station := { c.station with attempts := n, backoff := some (Config.backoffDraw c.fresh % 2 ^ min n 10) } }
    let collided := if 16 ≤ n then orReg (bump gone (bStb + 0x138) 1) (bStb + 0x18) 0x2 else backed
    let got := fun (t : State) => bump t (bStb + 0x100) 1
    let reply := fun (q : Nat) => [2] ++ beBytes 2 q ++ beBytes 1 ((answerNow s).toNat + 16 * ofBool s.life.held) ++
      beBytes 1 (tickStatusByte s) ++ beBytes 8 (tickCount s)
    (exec (.stbStatusRequest src seq) s = .next (irq s (
      if stbEn s = true then stationQueue s src.toNat (reply seq.toNat) else s))) ∧
    (stbEn s = false ∨ b.length < 64 → exec (.stbFrame b) s = .next (irq s s)) ∧
    (stbEn s = true → 64 ≤ b.length → b.length ≤ 1518 → fcsOk b = false →
      exec (.stbFrame b) s = .next (irq s (bump s (bStb + 0x108) 1))) ∧
    (stbEn s = true → 64 ≤ b.length → 1518 < b.length ∨ fcsOk b = true →
      let t := if 1518 < b.length then bump s (bStb + 0x110) 1 else s
      let x := b.take 1518
      let kind := beAt x 14 1
      let kept := { t with station := { t.station with rxq := t.station.rxq ++ [x] } }
      exec (.stbFrame b) s = .next (irq s (
        if beAt b 12 2 ≠ stationEtype t ∨ kind = 0 ∨ 6 ≤ kind then bump t (bStb + 0x120) 1
        else if kind = 1 then statusRequest (got t) (beAt x 6 6) (beAt x 15 2)
        else if kind ≠ 3 then got t
        else if 16 ≤ t.station.rxq.length then bump t (bStb + 0x118) 1
        else got kept))) ∧
    (exec .stbCollision s = .next (irq s (if stbMaySend s = true ∧ plcaEn s = false then collided else s))) ∧
    (stbMaySend s = false → exec (.stbTransmitOpportunity f) s = .next (irq s s)) ∧
    (stbMaySend s = true → f = true ∧ plcaEn s = false →
      exec (.stbTransmitOpportunity f) s = .next (irq s collided)) ∧
    (stbMaySend s = true → f = false ∨ plcaEn s = true → ∀ x l, s.station.txq = x :: l →
      let t := { s with station := { s.station with txq := l, attempts := 0 } }
      exec (.stbTransmitOpportunity f) s = .next (irq s (emit (bump t (bStb + 0x128) 1) (.station x)))) ∧
    (exec .stbBackoffExpiry s = .next (irq s { s with station := { s.station with backoff := none } })) ∧
    (let t := { s with station := { s.station with beaconSeen := true, plcaActive := plcaEn s } }
     exec .plcaBeacon s = .next (irq s (
       if stbEn s = false then s
       else if plcaEn s = true ∧ bits (reg s bStb) 2 0 = 0 then emit t .plcaBeacon else t))) ∧
    (let t := { s with station := { s.station with beaconSeen := false, plcaActive := false } }
     exec .plcaLost s = .next (irq s (if plcaEn s = true then orReg t (bStb + 0x18) 0x4 else t))) ∧
    (exec .resetHeldNotice s = .next (irq s (
      if s.life.held = true ∧ stbEn s = true then stationQueue s (2 ^ 48 - 1) [5, 1] else s)))

/-- On the air, a carrier sends the C-plane message of a symbol whose words stand complete at the offsets of its
timetable, 512 ac after the last of them, and later the U-plane messages; without ring or words it counts a miss. A PRB
of uplink data that is good and in its window is held and counted; an early, repeated or bad one is counted, and a late
one is not taken. At the delivery, no earlier than 64 ac after the window, PRBs that did not come are counted and carry
zeros. A delay measurement request is answered and a follow-up taken; any other such message is counted as bad.
CARRIER_CFG and CARRIER_REMOVE take effect at their boundary, or are refused in the order of their checks. Off the air,
or at a time outside the tick, nothing is sent or taken. (R273, R274, R276, R277, R283, R285, R286, R288) -/
def Obligations.RadioComplete : Prop :=
  ∀ (s : State) (c sym prb port sub off air boundary : Nat) (h : CmdHdr),
    let x := carrierOf s c
    let at' := fun (o : Nat) => { s with tick := { s.tick with off := o } }
    let ctr := bRad + 0x10000 + 0x40 * c
    let u := taken s h
    let i := cmdIndex s h.src
    let due := if boundary = 0 then tickAfter4096 u else boundary
    let late := fun (t : State) => irq s (statusWritten s t h 1 stLate boundary 0)
    (∀ o, airOff s ((air : Int) - x.txAdv - x.cpLead) = some o →
      let t := at' o
      let ws := (radioTt t c true).bind fun k => dlStanding t x (ttOf t k) c sym o
      let miss := orReg (bump t (ctr + 0x28) 1) (bRad + 0xC) 0x2
      (onAir t c true = false → exec (.cplaneSend c ⟨sym, air⟩) s = .next (irq s t)) ∧
      (onAir t c true = true → fhRing t x = none ∨ ws = none →
        exec (.cplaneSend c ⟨sym, air⟩) s = .next (irq s miss)) ∧
      (onAir t c true = true → ∀ q w, fhRing t x = some q → ws = some w →
        exec (.cplaneSend c ⟨sym, air⟩) s = .next (irq s
          (fhSend (takeSymbol t c sym w) c q 2 0 (cplaneBody x c sym))))) ∧
    (airOff s ((air : Int) - x.txAdv - x.cpLead) = none → exec (.cplaneSend c ⟨sym, air⟩) s = .next (irq s s)) ∧
    (∀ o w, airOff s ((air : Int) - x.txAdv) = some o → x.dlWords.find? (fun w => decide (w.1 = sym)) = some w →
      exec (.uplaneSend c ⟨sym, air⟩) s = .next (irq s (
        if onAir (at' o) c true = true then uplaneSend (at' o) c sym w.2 else at' o))) ∧
    (airOff s ((air : Int) - x.txAdv) = none ∨ x.dlWords.find? (fun w => decide (w.1 = sym)) = none →
      exec (.uplaneSend c ⟨sym, air⟩) s = .next (irq s s)) ∧
    (∀ iq exp t bad,
      let p : RadioPrb := { symbol := sym, airNs := air, prb := prb, words := bfpWords x.iqwUl iq exp }
      let good := { bump s ctr 1 with carriers := upd s.carriers c (storePrb · p) }
      exec (.uplaneReceive port sub c sym prb iq exp t air bad) s = .next (irq s (
        if ¬(onAir s c false = true ∧ linkUp s port sub = true) then s
        else if bad = true ∨ uplaneOk x port sub prb iq = false then orReg (bump s (ctr + 0x18) 1) (bRad + 0xC) 0x4
        else if t < air + x.rxMin ∨ hasPrb x sym air prb = true then bump s (ctr + 0x10) 1
        else if air + x.rxMax < t then s
        else good))) ∧
    (∀ k, radioTt s c false = some k →
      let o := symbolOffset (ttOf s k) c sym
      exec (.uplinkDelivery c ⟨sym, air⟩) s = .next (irq s (
        if onAir s c false = true ∧ afterWindow s x air o = true then uplinkDelivery (at' o) c sym air o (ttOf s k)
        else s))) ∧
    (radioTt s c false = none → exec (.uplinkDelivery c ⟨sym, air⟩) s = .next (irq s s)) ∧
    (∀ msg : List Byte,
      let t := at' off
      let ring := radioRingOf t (subKey port sub)
      let hears := linkUp t port sub = true ∧ s.level ≠ .beacon
      (¬hears ∨ delayFollowUp msg = true ∨ (delayRequest msg = true ∧ ring = none) →
        exec (.ecpriDelayMeasurement port sub msg off) s = .next (irq s t)) ∧
      (hears → delayFollowUp msg = false → delayRequest msg = false →
        exec (.ecpriDelayMeasurement port sub msg off) s = .next (irq s (ecpriBad t port sub))) ∧
      (hears → delayFollowUp msg = false → delayRequest msg = true → ∀ q, ring = some q →
        let answer : TxItem := { ring := q, bytes := framed (delayResponse t msg off) }
        exec (.ecpriDelayMeasurement port sub msg off) s = .next (irq s
          (enqueue { t with fresh := t.fresh + 1 } q answer)))) ∧
    (∀ addr : Nat, takes s (.carrierCfg h c addr boundary) = true →
      let r := hostRead u (.function 0) 0 addr 64
      let no := fun status => irq s (statusWritten s r.1 h 1 status 0 0)
      (∀ b, r.2 = some (b, false) →
        let y := carrierBlock b
        let d := if boundary = 0 then tickAfter4096 r.1 else boundary
        exec (.carrierCfg h c addr boundary) s = .next (
          if carrierFieldsOk y = false then no stBadParam
          else if (part r.1 y.part).state ≠ .opened ∨ (part r.1 y.part).radio = false then no stState
          else if late4096 r.1 boundary = true then late r.1
          else if carrierCode r.1 c y ≠ 0 then no (0x500 + carrierCode r.1 c y)
          else irq s (fulfilled s (addEffect r.1 h i d (.carrier c y)) h 1 d 0))) ∧
      ((∀ b, r.2 ≠ some (b, false)) → exec (.carrierCfg h c addr boundary) s = .next (no stAddress))) ∧
    (takes s (.carrierRemove h c boundary) = true →
      exec (.carrierRemove h c boundary) s = .next (
        if (carrierOf u c).valid = false then irq s (turnedAway s h 1 stState 0)
        else if late4096 u boundary = true then late u
        else irq s (fulfilled s (addEffect u h i due (.carrierRemove c)) h 1 due 0)))
end

