-- ==== Sys2Proof/Laws/Commands.lean ====
section
/-!
SUPPORT. What taking a command does, said once: a command that passes the general checks is answered with what
its own body replies, and one that fails a check is answered with that check's status.
-/

namespace Sys2Proof.Machine

/-- An accepted command is fulfilled on the state its effect left. -/
theorem answer_accept (s t : State) (h : CmdHdr) (row : OpRow) (r0 r1 : Nat) :
    answer (taken s h) h row (cmdIndex s h.src) { result0 := r0, result1 := r1, state := t } =
      fulfilled s t h row.agent r0 r1 := by
  simp [answer, fulfilled, statusWritten, countStatus, stOk, stBadOpcode]

/-- A command that passes, with its parameters and addresses in order, is judged by its body. -/
theorem judge_passes {s : State} {h : CmdHdr} {row : OpRow} (hp : passes s h row = true)
    (body : State → Nat → Reply) (i : Nat) :
    judge (taken s h) h row true true body i = body (taken s h) i := by
  unfold passes at hp
  simp only [Bool.and_eq_true, Bool.or_eq_true, decide_eq_true_eq, Bool.not_eq_true'] at hp
  obtain ⟨⟨⟨⟨⟨⟨⟨-, hpm⟩, hop⟩, hf⟩, hst⟩, hc⟩, hl⟩, hb⟩ := hp
  unfold judge
  extract_lets f
  rw [if_neg (not_not_intro hpm), if_neg (not_not_intro hop), if_neg, if_neg, if_neg, if_neg, if_neg (not_not_intro hb)]
  · rintro ⟨a, b⟩
    rcases hl with hl | hl
    · exact hl a
    · rw [hl] at b; cases b
  · simp
  · simp [hc]
  · rintro (⟨a, b⟩ | ⟨a, b⟩)
    · rcases hf with hf | hf
      · exact a hf
      · rw [hf] at b; cases b
    · rcases hst with hst | hst
      · rw [hst] at a; cases a
      · rw [hst] at b; cases b

theorem passes_mayTake {s : State} {h : CmdHdr} {row : OpRow} (hp : passes s h row = true) :
    mayTake s h row.agent = true := by
  unfold passes at hp
  simp only [Bool.and_eq_true] at hp
  exact hp.1.1.1.1.1.1.1

/-- A command that passes, with its parameters and addresses in order, is answered with what its body replies. -/
theorem takeCommand_passes {s : State} {h : CmdHdr} {row : OpRow} (hp : passes s h row = true)
    (body : State → Nat → Reply) :
    takeCommand s h row true true body =
      answer (taken s h) h row (cmdIndex s h.src) (body (taken s h) (cmdIndex s h.src)) := by
  unfold takeCommand takeWith
  rw [if_pos (passes_mayTake hp)]
  exact congrArg _ (judge_passes hp body _)

/-- The same of a scan command. -/
theorem takeScan_passes {s : State} {h : CmdHdr} {row : OpRow} (hp : passes s h row = true)
    (body : State → Nat → Reply) :
    takeScan s h row true true body =
      answer (taken s h) h row (cmdIndex s h.src) (scanReply (body (taken s h) (cmdIndex s h.src))) := by
  unfold takeScan takeWith
  rw [if_pos (passes_mayTake hp)]
  exact congrArg (fun r => answer _ _ _ _ (scanReply r)) (judge_passes hp body _)

/-- A refusal of a command's body turns the command away. -/
theorem answer_refuse (s t : State) (h : CmdHdr) (row : OpRow) (st r0 r1 : Nat) (hs : st ≠ stBadOpcode) :
    answer (taken s h) h row (cmdIndex s h.src) { status := st, result0 := r0, result1 := r1, state := t } =
      statusWritten s t h row.agent st r0 r1 := by
  simp [answer, statusWritten, hs]

/-- How a scan command shows its refusal, and any other command as it is. -/
def shown (c : Instr) (r : Reply) : Reply := if isScan c then scanReply r else r

/-- What a command packet's own checks and effect reply, once the general checks are met. -/
def cmdBody (c : Instr) : State → Nat → Reply :=
  match c with
  | .nop _ => fun s _ => accept s
  | .planSwap h => planSwapBody h
  | .radioReserve h part slices boundary qmask => radioReserveBody h part slices boundary qmask
  | .partOpen _ part radio func => partOpenBody part radio func
  | .partClose _ part => partCloseBody part
  | .partReturn _ part => partReturnBody part
  | .partIsolate _ part => partIsolateBody part
  | .ctxCreate h part slot seed => ctxCreateBody h part slot seed
  | .ctxRemove h ctx => ctxRemoveBody h ctx
  | .ctxSeed _ ctx seed => ctxSeedBody ctx seed
  | .ttAdmit h ctx group run image report imageLen reportLen =>
    ttAdmitBody h ctx group run image report imageLen reportLen
  | .ttWithdraw h ctx => ttWithdrawBody h ctx
  | .ttResume h ctx => ttResumeBody h ctx
  | .quotaForce h func qTick => quotaForceBody h func qTick
  | .sdgFill h part source quad entry mask => sdgFillBody h part source quad entry mask
  | .sdgSwap h part strict slice boundary qmask => sdgSwapBody h part strict slice boundary qmask
  | .shuntStart h part mask qmask => shuntStartBody h part mask qmask
  | .shuntStop h part => shuntStopBody h part
  | .libInstall h part image report imageLen reportLen =>
    libInstallBody h part image report imageLen reportLen
  | .libRemove _ entry => libRemoveBody entry
  | .libtileAssign _ part quad tiles => libtileAssignBody part quad tiles
  | .libtileRelease _ quad tiles => libtileReleaseBody quad tiles
  | .scanOut h part quad dest => scanOutBody h part quad dest
  | .scanDump h part quad dest => scanDumpBody h part quad dest
  | .scanIn h part quad src len => scanInBody h part quad src len
  | .pcAssign _ pc owner sealed => pcAssignBody pc owner sealed
  | .pcFree h pc => pcFreeBody h pc
  | .pageAssign h pc kind page owner frame => pageAssignBody h pc kind page owner frame
  | .pageRelease h pc page => pageReleaseBody h pc page
  | .scrubPass h spread pcmask => scrubPassBody h spread pcmask
  | .regionRekey h pc page => regionRekeyBody h pc page
  | .srtSwap h => srtSwapBody h
  | .bind h entryQ replyRing bulkQ recallQ tenant model fOut bulkEn descN descAddr =>
    bindBody h entryQ replyRing bulkQ recallQ tenant model fOut bulkEn descN descAddr
  | .unbind h entryQ => unbindBody h entryQ
  | .macsecSak _ port sub chan an suite src => macsecBody port sub chan an suite src
  | .queAssign _ q func kind log2 vec dbslot peer base => queAssignBody q func kind log2 vec dbslot peer base
  | .queRelease _ q => queReleaseBody q
  | .queEnable _ q => queEnableBody q
  | .queDisable _ q => queDisableBody q
  | .carrierCfg h carrier addr boundary => carrierCfgBody h carrier addr boundary
  | .carrierRemove h carrier boundary => carrierRemoveBody h carrier boundary
  | .vfAssign _ func tenant => vfAssignBody func tenant
  | .vfRelease _ func => vfReleaseBody func
  | .keyInstall h slot addr => keyInstallBody h slot addr
  | .attest h part dest nonce => attestBodyCmd h part dest nonce
  | .certGet h which dest => certGetBody h which dest
  | .ctxReset h ctx => ctxResetBody h ctx
  | .partReset h part => partResetBody h part
  | .deviceReset h => deviceResetBody h
  | .levelDrop h level => levelDropBody h level
  | .hbmRetrain h pc => hbmRetrainBody h pc
  | .smUpdate h image len => smUpdateBody h image len
  | .scUpdate h image len => scUpdateBody h image len
  | .serdesRecal h port => serdesRecalBody h port
  | .dieRetire h die => dieRetireBody h die
  | .admitRebuild h => admitRebuildBody h
  | .fabricIdSet _ id => fabricIdBody id
  | .routeSwap h => routeSwapBody h
  | .resetPinMask h mask => resetPinMaskBody h mask
  | _ => fun s _ => accept s

/-- Every command packet but DEVICE_RESET is taken, judged by the general checks and answered; only what its body
replies is its own. -/
theorem exec_command {c : Instr} {h : CmdHdr} {row : OpRow} (hc : commandRow c = some (h, row))
    (hr : row.opcode ≠ 0x0A03) (s : State) :
    exec c s = done s (takeWith s h row fun u i =>
      shown c (judge u h row (fieldsOk c) (buffersOk s c) (cmdBody c) i)) := by
  unfold commandRow at hc
  split at hc <;> cases hc
  all_goals first
    | exact absurd rfl hr
    | (simp only [exec, execNop, execPlanSwap, execRadioReserve, execPartOpen, execPartClose, execPartReturn,
        execPartIsolate, execCtxCreate, execCtxRemove, execCtxSeed, execTtAdmit, execTtWithdraw,
        execTtResume, execQuotaForce, execSdgFill, execSdgSwap, execShuntStart, execShuntStop,
        execLibInstall, execLibRemove, execLibtileAssign, execLibtileRelease, execScanOut, execScanDump,
        execScanIn, execPcAssign, execPcFree, execPageAssign, execPageRelease, execScrubPass,
        execRegionRekey, execSrtSwap, execBind, execUnbind, execMacsecSak, execQueAssign,
        execQueRelease, execQueEnable, execQueDisable, execCarrierCfg, execCarrierRemove, execVfAssign,
        execVfRelease, execKeyInstall, execAttest, execCertGet, execCtxReset, execPartReset,
        execLevelDrop, execHbmRetrain, execSmUpdate, execScUpdate, execSerdesRecal, execDieRetire,
        execAdmitRebuild, execFabricIdSet, execRouteSwap, execResetPinMask,
        cmdBody, takeCommand, takeScan, shown, isScan, fieldsOk, buffersOk, Bool.decide_and, if_true, if_false, Bool.false_eq_true])

/-- A command packet that its agent takes and no general check refuses is answered with what its body replies. -/
theorem exec_takes {c : Instr} {h : CmdHdr} {row : OpRow} (s : State) (hc : commandRow c = some (h, row))
    (hr : row.opcode ≠ 0x0A03) (ht : takes s c = true) :
    exec c s = .next (irq s (answer (taken s h) h row (cmdIndex s h.src)
      (shown c (cmdBody c (taken s h) (cmdIndex s h.src))))) := by
  simp only [takes, hc, Bool.and_eq_true] at ht
  rw [exec_command hc hr]
  unfold takeWith
  rw [if_pos (passes_mayTake ht.1.1)]
  beta_reduce
  rw [ht.1.2, ht.2, judge_passes ht.1.1]
  rfl

end Sys2Proof.Machine
end

