-- ==== Sys2Proof/Laws/Tables.lean ====
section
/-!
SUPPORT. Laws of the sparse tables: what a read gives after a write, and that every operation over tables
and over HBM contents keeps the canonical form.
-/

namespace Sys2Proof.Machine

variable {α : Type}

/-! ## The order of keys -/

theorem rising_iff (t : Table α) : rising t = true ↔ t.Pairwise fun a b => a.1 < b.1 := by
  induction t with
  | nil => simp [rising]
  | cons a l ih =>
    cases l with
    | nil => simp [rising]
    | cons b l =>
      simp only [rising, Bool.and_eq_true, decide_eq_true_eq, ih]
      constructor
      · rintro ⟨h, g⟩
        refine List.pairwise_cons.2 ⟨fun c hc => ?_, g⟩
        rcases List.mem_cons.1 hc with rfl | hc
        · exact h
        · exact Nat.lt_trans h ((List.pairwise_cons.1 g).1 c hc)
      · intro g
        exact ⟨(List.pairwise_cons.1 g).1 b List.mem_cons_self, (List.pairwise_cons.1 g).2⟩

theorem canonical_iff [Inhabited α] [DecidableEq α] (t : Table α) :
    canonical t = true ↔ (t.Pairwise fun a b => a.1 < b.1) ∧ ∀ kv ∈ t, kv.2 ≠ default := by
  simp [canonical, rising_iff]

/-! ## Reads after writes -/

theorem look_insert_self [Inhabited α] (t : Table α) (k : Nat) (v : α) : look (insert t k v) k = v := by
  induction t with
  | nil => simp [insert, look]
  | cons a l ih =>
    obtain ⟨k', v'⟩ := a
    unfold insert
    split
    · simp [look]
    · split
      · simp [look]
      · rename_i h _
        simp [look, Ne.symm h, ih]

theorem look_insert_ne [Inhabited α] (t : Table α) {k j : Nat} (v : α) (h : j ≠ k) :
    look (insert t k v) j = look t j := by
  induction t with
  | nil => simp [insert, look, Ne.symm h]
  | cons a l ih =>
    obtain ⟨k', v'⟩ := a
    unfold insert
    split
    · subst k'; simp [look, Ne.symm h]
    · split
      · simp [look, Ne.symm h]
      · simp [look, ih]

theorem look_erase_ne [Inhabited α] (t : Table α) {k j : Nat} (h : j ≠ k) : look (erase t k) j = look t j := by
  induction t with
  | nil => rfl
  | cons a l ih =>
    obtain ⟨k', v'⟩ := a
    unfold erase
    split
    · subst k'; simp [look, Ne.symm h, ih]
    · simp [look, ih]

theorem look_erase_self [Inhabited α] (t : Table α) (k : Nat) : look (erase t k) k = default := by
  induction t with
  | nil => rfl
  | cons a l ih =>
    obtain ⟨k', v'⟩ := a
    unfold erase
    split
    · exact ih
    · rename_i h
      simp only [look, Ne.symm h, if_false]
      exact ih

/-- A write leaves every other key alone. -/
theorem look_put_ne [Inhabited α] [DecidableEq α] (t : Table α) {k j : Nat} (v : α) (h : j ≠ k) :
    look (put t k v) j = look t j := by
  unfold put
  split
  · exact look_erase_ne t h
  · exact look_insert_ne t v h

/-- A read after a write gives the value written. -/
theorem look_put_self [Inhabited α] [DecidableEq α] (t : Table α) (k : Nat) (v : α) :
    look (put t k v) k = v := by
  unfold put
  split
  · rename_i h
    rw [look_erase_self t k, h]
  · exact look_insert_self t k v

theorem look_upd_self [Inhabited α] [DecidableEq α] (t : Table α) (k : Nat) (f : α → α) :
    look (upd t k f) k = f (look t k) := look_put_self t k _

theorem look_upd_ne [Inhabited α] [DecidableEq α] (t : Table α) {k j : Nat} (f : α → α) (h : j ≠ k) :
    look (upd t k f) j = look t j := look_put_ne t _ h

/-- What a read gives after every listed value is changed. -/
theorem look_mapT [Inhabited α] [DecidableEq α] (t : Table α) (f : Nat → α → α) (k : Nat) :
    look (mapT t f) k = match look? t k with
      | some v => f k v
      | none => default := by
  induction t with
  | nil => rfl
  | cons a l ih =>
    obtain ⟨k', v'⟩ := a
    by_cases h : k' = k
    · subst h
      simp only [mapT, look?, if_true]
      split
      · rename_i hd
        rw [look_erase_self, hd]
      · simp [look]
    · simp only [mapT, look?, h, if_false]
      split
      · rw [look_erase_ne _ (Ne.symm h), ih]
      · simp only [look, h, if_false]
        rw [look_erase_ne _ (Ne.symm h), ih]

/-! ## The canonical form -/

theorem mem_insert {t : Table α} {k : Nat} {v : α} {x : Nat × α} (h : x ∈ insert t k v) : x = (k, v) ∨ x ∈ t := by
  induction t with
  | nil => simpa [insert] using h
  | cons a l ih =>
    obtain ⟨k', v'⟩ := a
    unfold insert at h
    split at h
    · rcases List.mem_cons.1 h with h | h
      · exact .inl h
      · exact .inr (List.mem_cons_of_mem _ h)
    · split at h
      · rcases List.mem_cons.1 h with h | h
        · exact .inl h
        · exact .inr h
      · rcases List.mem_cons.1 h with h | h
        · exact .inr (h ▸ List.mem_cons_self)
        · rcases ih h with h | h
          · exact .inl h
          · exact .inr (List.mem_cons_of_mem _ h)

theorem mem_erase {t : Table α} {k : Nat} {x : Nat × α} (h : x ∈ erase t k) : x ∈ t := by
  induction t with
  | nil => exact h
  | cons a l ih =>
    obtain ⟨k', v'⟩ := a
    unfold erase at h
    split at h
    · exact List.mem_cons_of_mem _ (ih h)
    · rcases List.mem_cons.1 h with h | h
      · exact h ▸ List.mem_cons_self
      · exact List.mem_cons_of_mem _ (ih h)

theorem pairwise_insert {t : Table α} (k : Nat) (v : α) (h : t.Pairwise fun a b => a.1 < b.1) :
    (insert t k v).Pairwise fun a b => a.1 < b.1 := by
  induction t with
  | nil => simp [insert]
  | cons a l ih =>
    obtain ⟨k', v'⟩ := a
    have h' := List.pairwise_cons.1 h
    unfold insert
    split
    · subst k'; exact List.pairwise_cons.2 h'
    · split
      · rename_i hk
        refine List.pairwise_cons.2 ⟨fun x hx => ?_, h⟩
        rcases List.mem_cons.1 hx with rfl | hx
        · exact hk
        · exact Nat.lt_trans hk (h'.1 x hx)
      · rename_i h1 h2
        refine List.pairwise_cons.2 ⟨fun x hx => ?_, ih h'.2⟩
        rcases mem_insert hx with rfl | hx
        · show k' < k; omega
        · exact h'.1 x hx

theorem pairwise_erase {t : Table α} (k : Nat) (h : t.Pairwise fun a b => a.1 < b.1) :
    (erase t k).Pairwise fun a b => a.1 < b.1 := by
  induction t with
  | nil => exact h
  | cons a l ih =>
    obtain ⟨k', v'⟩ := a
    have h' := List.pairwise_cons.1 h
    unfold erase
    split
    · exact ih h'.2
    · exact List.pairwise_cons.2 ⟨fun x hx => h'.1 x (mem_erase hx), ih h'.2⟩

/-- A write keeps the canonical form. -/
theorem canonical_put [Inhabited α] [DecidableEq α] {t : Table α} (k : Nat) (v : α) (h : canonical t = true) :
    canonical (put t k v) = true := by
  obtain ⟨h1, h2⟩ := (canonical_iff t).1 h
  refine (canonical_iff _).2 ?_
  unfold put
  split
  · exact ⟨pairwise_erase k h1, fun kv hkv => h2 kv (mem_erase hkv)⟩
  · rename_i hv
    refine ⟨pairwise_insert k v h1, fun kv hkv => ?_⟩
    rcases mem_insert hkv with rfl | hkv
    · exact hv
    · exact h2 kv hkv

theorem canonical_upd [Inhabited α] [DecidableEq α] {t : Table α} (k : Nat) (f : α → α) (h : canonical t = true) :
    canonical (upd t k f) = true := canonical_put k _ h

theorem canonical_filter [Inhabited α] [DecidableEq α] {t : Table α} {f : Nat × α → Bool} (h : canonical t = true) :
    canonical (t.filter f) = true := by
  obtain ⟨h1, h2⟩ := (canonical_iff t).1 h
  exact (canonical_iff _).2 ⟨h1.filter _, fun kv hkv => h2 kv (List.mem_filter.1 hkv).1⟩

/-! ## HBM contents -/

theorem wf_filter {m : List Host.Cell} {f : Host.Cell → Bool} (h : Memory.wf m = true) :
    Memory.wf (m.filter f) = true := canonical_filter h

/-- A write of bytes keeps the canonical form of the HBM contents. -/
theorem wf_writeBytes {m : List Host.Cell} {k : Nat} {l : List Byte} (h : Memory.wf m = true) :
    Memory.wf (writeBytes m k l) = true := by
  induction l generalizing m k with
  | nil => exact h
  | cons b l ih => exact ih (canonical_put k b h)

/-- A byte outside the ones written reads as before. -/
theorem look_writeBytes_ne (m : List Host.Cell) (k : Nat) (l : List Byte) {j : Nat} (h : j < k ∨ k + l.length ≤ j) :
    look (writeBytes m k l) j = look m j := by
  induction l generalizing m k with
  | nil => rfl
  | cons b l ih =>
    have hl : (b :: l).length = l.length + 1 := rfl
    show look (writeBytes (put m k b) (k + 1) l) j = _
    rw [ih (put m k b) (k + 1) (by omega), look_put_ne m b (by omega)]

/-- The bytes written read back. -/
theorem readBytes_writeBytes (m : List Host.Cell) (k : Nat) (l : List Byte) :
    readBytes (writeBytes m k l) k l.length = l := by
  induction l generalizing m k with
  | nil => rfl
  | cons b l ih =>
    show look (writeBytes (put m k b) (k + 1) l) k :: readBytes (writeBytes (put m k b) (k + 1) l) (k + 1) l.length = b :: l
    rw [look_writeBytes_ne _ _ _ (by omega), look_put_self m k b, ih]

end Sys2Proof.Machine
end

