-- ==== Sys2Proof/Laws/Grows.lean ====
section
/-!
SUPPORT. The relation between a state and a later one that every operation of the model keeps: the queue is
left alone, HBM contents stay canonical, nothing driven outward is taken back, the map of disabled tiles
stands, and no fused minimum version falls. The other Grows files say it of each operation, once.
-/

namespace Sys2Proof.Machine

/-- What no command undoes. -/
structure Grows (s t : State) : Prop where
  queue : t.pending = s.pending
  mem : Memory.wf s.mem = true → Memory.wf t.mem = true
  wire : s.wire <:+ t.wire
  disabled : t.disabled = s.disabled
  minimums : List.Forall₂ (fun a b => a.toNat ≤ b.toNat) s.life.minimums t.life.minimums

theorem forall2_le_refl (l : List (BitVec 32)) : List.Forall₂ (fun a b => a.toNat ≤ b.toNat) l l := by
  induction l with
  | nil => exact .nil
  | cons a l ih => exact .cons (Nat.le_refl _) ih

theorem forall2_le_trans {a b c : List (BitVec 32)} (h : List.Forall₂ (fun a b => a.toNat ≤ b.toNat) a b)
    (g : List.Forall₂ (fun a b => a.toNat ≤ b.toNat) b c) : List.Forall₂ (fun a b => a.toNat ≤ b.toNat) a c := by
  induction h generalizing c with
  | nil => cases g; exact .nil
  | cons h _ ih => cases g with | cons g gs => exact .cons (Nat.le_trans h g) (ih gs)

/-- No fused minimum of l is above the one of m. -/
def Life.Rises (l m : Life) : Prop := List.Forall₂ (fun a b => a.toNat ≤ b.toNat) l.minimums m.minimums

theorem rises_refl (l : Life) : l.Rises l := forall2_le_refl _

theorem rises_eq {l m : Life} (h : m.minimums = l.minimums) : l.Rises m := by
  unfold Life.Rises; rw [h]; exact forall2_le_refl _

theorem Grows.refl (s : State) : Grows s s :=
  ⟨rfl, id, List.suffix_refl _, rfl, forall2_le_refl _⟩

theorem Grows.trans {a b c : State} (h : Grows a b) (g : Grows b c) : Grows a c :=
  ⟨g.queue.trans h.queue, fun x => g.mem (h.mem x), h.wire.trans g.wire,
    g.disabled.trans h.disabled, forall2_le_trans h.minimums g.minimums⟩

theorem Grows.lit {s0 s : State} {v_regs : Table Word32} {v_latches : Table
    (BitVec 16)} {v_level : Level} {v_tick : TickGen} {v_sig : SigBus} {v_retired : BitVec 40} {v_tiles : Table Tile} {v_changing : List Nat} {v_tracing : List Nat} {v_hub : Table (List (Nat × TWord))} {v_tts : Table Timetable} {v_admitSeq : Nat} {v_siding : Table SidingState} {v_sdg : Table PartSdg} {v_fills : List Fill} {v_lib : Table LibEntry} {v_libTiles : Table LibTiles} {v_scans : List Scan} {v_pcs : Table Pc} {v_pages : Table Page} {v_lines : Table Line} {v_domains : Table Domain} {v_blocks : Table Block} {v_stalls : List Stall} {v_scrub : Option Scrub} {v_scrubDue : Bool} {v_spareBad : List Nat} {v_retiredPcs : Table Nat} {v_queues : Table Queue} {v_rx : Table (List RxFrame)} {v_staging : Table Nat} {v_srtA : Table (BitVec 1024)} {v_srtS : Table (BitVec 1024)} {v_srtCopying : Bool} {v_srtPending : Bool} {v_srtNext : Table (BitVec 1024)} {v_srtCopy : Bool} {v_binds : Table Binding} {v_seqBlocks : Table Block} {v_egress : Table Egress} {v_txRings : Table TxRing} {v_engines : Table Engines} {v_saks : Table Sak} {v_station : Station} {v_carriers : Table Carrier} {v_parts : Table Part} {v_cellA : Table Byte} {v_cellS : Table Byte} {v_ctxs : Table Ctx} {v_vfs : Table Vf} {v_harts : Table Nat} {v_inData : Table Byte} {v_effects : List Pending} {v_acts : Table Act} {v_trunk : Table TrunkPort} {v_routeEpoch : Bool} {v_drain : Nat} {v_fabricId : Nat} {v_earlyReady : List (BitVec 64 × Nat × Nat × Nat × BitVec 32 × Nat)} {v_fltSeq : BitVec 64} {v_fltLog : List FaultRec} {v_dumps : List Dump} {v_gathers : Table Gathering} {v_dumpSeq : BitVec 16} {v_quarantines : Table Quarantine} {v_seedStage : Word32 × Word32} {v_suspectSeq : BitVec 16} {v_store : ScStore} {v_fresh : Nat}
    (h : Grows s0 s) : Grows s0 (State.mk s.pending v_regs v_latches v_level v_tick v_sig s.disabled v_retired v_tiles v_changing v_tracing v_hub v_tts v_admitSeq v_siding v_sdg v_fills v_lib v_libTiles v_scans s.mem v_pcs v_pages v_lines v_domains v_blocks v_stalls v_scrub v_scrubDue v_spareBad v_retiredPcs v_queues v_rx v_staging v_srtA v_srtS v_srtCopying v_srtPending v_srtNext v_srtCopy v_binds v_seqBlocks v_egress v_txRings v_engines v_saks v_station v_carriers v_parts v_cellA v_cellS v_ctxs v_vfs v_harts v_inData v_effects v_acts v_trunk v_routeEpoch v_drain v_fabricId v_earlyReady v_fltSeq v_fltLog v_dumps v_gathers v_dumpSeq v_quarantines v_seedStage v_suspectSeq s.life v_store s.wire v_fresh) :=
  h.trans ⟨rfl, id, List.suffix_refl _, rfl, forall2_le_refl _⟩

theorem Grows.litLife {s0 s : State} {v_life : Life} {v_regs : Table Word32} {v_latches : Table
    (BitVec 16)} {v_level : Level} {v_tick : TickGen} {v_sig : SigBus} {v_retired : BitVec 40} {v_tiles : Table Tile} {v_changing : List Nat} {v_tracing : List Nat} {v_hub : Table (List (Nat × TWord))} {v_tts : Table Timetable} {v_admitSeq : Nat} {v_siding : Table SidingState} {v_sdg : Table PartSdg} {v_fills : List Fill} {v_lib : Table LibEntry} {v_libTiles : Table LibTiles} {v_scans : List Scan} {v_pcs : Table Pc} {v_pages : Table Page} {v_lines : Table Line} {v_domains : Table Domain} {v_blocks : Table Block} {v_stalls : List Stall} {v_scrub : Option Scrub} {v_scrubDue : Bool} {v_spareBad : List Nat} {v_retiredPcs : Table Nat} {v_queues : Table Queue} {v_rx : Table (List RxFrame)} {v_staging : Table Nat} {v_srtA : Table (BitVec 1024)} {v_srtS : Table (BitVec 1024)} {v_srtCopying : Bool} {v_srtPending : Bool} {v_srtNext : Table (BitVec 1024)} {v_srtCopy : Bool} {v_binds : Table Binding} {v_seqBlocks : Table Block} {v_egress : Table Egress} {v_txRings : Table TxRing} {v_engines : Table Engines} {v_saks : Table Sak} {v_station : Station} {v_carriers : Table Carrier} {v_parts : Table Part} {v_cellA : Table Byte} {v_cellS : Table Byte} {v_ctxs : Table Ctx} {v_vfs : Table Vf} {v_harts : Table Nat} {v_inData : Table Byte} {v_effects : List Pending} {v_acts : Table Act} {v_trunk : Table TrunkPort} {v_routeEpoch : Bool} {v_drain : Nat} {v_fabricId : Nat} {v_earlyReady : List (BitVec 64 × Nat × Nat × Nat × BitVec 32 × Nat)} {v_fltSeq : BitVec 64} {v_fltLog : List FaultRec} {v_dumps : List Dump} {v_gathers : Table Gathering} {v_dumpSeq : BitVec 16} {v_quarantines : Table Quarantine} {v_seedStage : Word32 × Word32} {v_suspectSeq : BitVec 16} {v_store : ScStore} {v_fresh : Nat}
    (hl : s.life.Rises v_life) (h : Grows s0 s) :
    Grows s0 (State.mk s.pending v_regs v_latches v_level v_tick v_sig s.disabled v_retired v_tiles v_changing v_tracing v_hub v_tts v_admitSeq v_siding v_sdg v_fills v_lib v_libTiles v_scans s.mem v_pcs v_pages v_lines v_domains v_blocks v_stalls v_scrub v_scrubDue v_spareBad v_retiredPcs v_queues v_rx v_staging v_srtA v_srtS v_srtCopying v_srtPending v_srtNext v_srtCopy v_binds v_seqBlocks v_egress v_txRings v_engines v_saks v_station v_carriers v_parts v_cellA v_cellS v_ctxs v_vfs v_harts v_inData v_effects v_acts v_trunk v_routeEpoch v_drain v_fabricId v_earlyReady v_fltSeq v_fltLog v_dumps v_gathers v_dumpSeq v_quarantines v_seedStage v_suspectSeq v_life v_store s.wire v_fresh) :=
  h.trans ⟨rfl, id, List.suffix_refl _, rfl, hl⟩

theorem Grows.litWire {s0 s : State} {v_wire : List Out} {v_regs : Table Word32} {v_latches : Table
    (BitVec 16)} {v_level : Level} {v_tick : TickGen} {v_sig : SigBus} {v_retired : BitVec 40} {v_tiles : Table Tile} {v_changing : List Nat} {v_tracing : List Nat} {v_hub : Table (List (Nat × TWord))} {v_tts : Table Timetable} {v_admitSeq : Nat} {v_siding : Table SidingState} {v_sdg : Table PartSdg} {v_fills : List Fill} {v_lib : Table LibEntry} {v_libTiles : Table LibTiles} {v_scans : List Scan} {v_pcs : Table Pc} {v_pages : Table Page} {v_lines : Table Line} {v_domains : Table Domain} {v_blocks : Table Block} {v_stalls : List Stall} {v_scrub : Option Scrub} {v_scrubDue : Bool} {v_spareBad : List Nat} {v_retiredPcs : Table Nat} {v_queues : Table Queue} {v_rx : Table (List RxFrame)} {v_staging : Table Nat} {v_srtA : Table (BitVec 1024)} {v_srtS : Table (BitVec 1024)} {v_srtCopying : Bool} {v_srtPending : Bool} {v_srtNext : Table (BitVec 1024)} {v_srtCopy : Bool} {v_binds : Table Binding} {v_seqBlocks : Table Block} {v_egress : Table Egress} {v_txRings : Table TxRing} {v_engines : Table Engines} {v_saks : Table Sak} {v_station : Station} {v_carriers : Table Carrier} {v_parts : Table Part} {v_cellA : Table Byte} {v_cellS : Table Byte} {v_ctxs : Table Ctx} {v_vfs : Table Vf} {v_harts : Table Nat} {v_inData : Table Byte} {v_effects : List Pending} {v_acts : Table Act} {v_trunk : Table TrunkPort} {v_routeEpoch : Bool} {v_drain : Nat} {v_fabricId : Nat} {v_earlyReady : List (BitVec 64 × Nat × Nat × Nat × BitVec 32 × Nat)} {v_fltSeq : BitVec 64} {v_fltLog : List FaultRec} {v_dumps : List Dump} {v_gathers : Table Gathering} {v_dumpSeq : BitVec 16} {v_quarantines : Table Quarantine} {v_seedStage : Word32 × Word32} {v_suspectSeq : BitVec 16} {v_store : ScStore} {v_fresh : Nat}
    (hl : s.wire <:+ v_wire) (h : Grows s0 s) : Grows s0 (State.mk s.pending v_regs v_latches v_level v_tick v_sig s.disabled v_retired v_tiles v_changing v_tracing v_hub v_tts v_admitSeq v_siding v_sdg v_fills v_lib v_libTiles v_scans s.mem v_pcs v_pages v_lines v_domains v_blocks v_stalls v_scrub v_scrubDue v_spareBad v_retiredPcs v_queues v_rx v_staging v_srtA v_srtS v_srtCopying v_srtPending v_srtNext v_srtCopy v_binds v_seqBlocks v_egress v_txRings v_engines v_saks v_station v_carriers v_parts v_cellA v_cellS v_ctxs v_vfs v_harts v_inData v_effects v_acts v_trunk v_routeEpoch v_drain v_fabricId v_earlyReady v_fltSeq v_fltLog v_dumps v_gathers v_dumpSeq v_quarantines v_seedStage v_suspectSeq s.life v_store v_wire v_fresh) :=
  h.trans ⟨rfl, id, hl, rfl, forall2_le_refl _⟩

theorem Grows.litMem {s0 s : State} {v_mem : List Host.Cell} {v_regs : Table Word32} {v_latches : Table
    (BitVec 16)} {v_level : Level} {v_tick : TickGen} {v_sig : SigBus} {v_retired : BitVec 40} {v_tiles : Table Tile} {v_changing : List Nat} {v_tracing : List Nat} {v_hub : Table (List (Nat × TWord))} {v_tts : Table Timetable} {v_admitSeq : Nat} {v_siding : Table SidingState} {v_sdg : Table PartSdg} {v_fills : List Fill} {v_lib : Table LibEntry} {v_libTiles : Table LibTiles} {v_scans : List Scan} {v_pcs : Table Pc} {v_pages : Table Page} {v_lines : Table Line} {v_domains : Table Domain} {v_blocks : Table Block} {v_stalls : List Stall} {v_scrub : Option Scrub} {v_scrubDue : Bool} {v_spareBad : List Nat} {v_retiredPcs : Table Nat} {v_queues : Table Queue} {v_rx : Table (List RxFrame)} {v_staging : Table Nat} {v_srtA : Table (BitVec 1024)} {v_srtS : Table (BitVec 1024)} {v_srtCopying : Bool} {v_srtPending : Bool} {v_srtNext : Table (BitVec 1024)} {v_srtCopy : Bool} {v_binds : Table Binding} {v_seqBlocks : Table Block} {v_egress : Table Egress} {v_txRings : Table TxRing} {v_engines : Table Engines} {v_saks : Table Sak} {v_station : Station} {v_carriers : Table Carrier} {v_parts : Table Part} {v_cellA : Table Byte} {v_cellS : Table Byte} {v_ctxs : Table Ctx} {v_vfs : Table Vf} {v_harts : Table Nat} {v_inData : Table Byte} {v_effects : List Pending} {v_acts : Table Act} {v_trunk : Table TrunkPort} {v_routeEpoch : Bool} {v_drain : Nat} {v_fabricId : Nat} {v_earlyReady : List (BitVec 64 × Nat × Nat × Nat × BitVec 32 × Nat)} {v_fltSeq : BitVec 64} {v_fltLog : List FaultRec} {v_dumps : List Dump} {v_gathers : Table Gathering} {v_dumpSeq : BitVec 16} {v_quarantines : Table Quarantine} {v_seedStage : Word32 × Word32} {v_suspectSeq : BitVec 16} {v_store : ScStore} {v_fresh : Nat}
    (hl : Memory.wf s.mem = true → Memory.wf v_mem = true) (h : Grows s0 s) :
    Grows s0 (State.mk s.pending v_regs v_latches v_level v_tick v_sig s.disabled v_retired v_tiles v_changing v_tracing v_hub v_tts v_admitSeq v_siding v_sdg v_fills v_lib v_libTiles v_scans v_mem v_pcs v_pages v_lines v_domains v_blocks v_stalls v_scrub v_scrubDue v_spareBad v_retiredPcs v_queues v_rx v_staging v_srtA v_srtS v_srtCopying v_srtPending v_srtNext v_srtCopy v_binds v_seqBlocks v_egress v_txRings v_engines v_saks v_station v_carriers v_parts v_cellA v_cellS v_ctxs v_vfs v_harts v_inData v_effects v_acts v_trunk v_routeEpoch v_drain v_fabricId v_earlyReady v_fltSeq v_fltLog v_dumps v_gathers v_dumpSeq v_quarantines v_seedStage v_suspectSeq s.life v_store s.wire v_fresh) :=
  h.trans ⟨rfl, hl, List.suffix_refl _, rfl, forall2_le_refl _⟩


theorem Grows.ite {s a b : State} {c : Prop} [Decidable c] (ha : Grows s a) (hb : Grows s b) :
    Grows s (if c then a else b) := by
  by_cases h : c
  · rw [if_pos h]; exact ha
  · rw [if_neg h]; exact hb

theorem Grows.rite {s : State} {a b : Reply} {c : Prop} [Decidable c] (ha : Grows s a.state) (hb : Grows s b.state) :
    Grows s (if c then a else b).state := by
  by_cases h : c
  · rw [if_pos h]; exact ha
  · rw [if_neg h]; exact hb

theorem Grows.pite {β : Type} {s : State} {a b : State × β} {c : Prop} [Decidable c] (ha : Grows s a.1)
    (hb : Grows s b.1) : Grows s (if c then a else b).1 := by
  by_cases h : c
  · rw [if_pos h]; exact ha
  · rw [if_neg h]; exact hb

theorem Grows.foldl {α : Type} {s0 s : State} {f : State → α → State} {l : List α}
    (hf : ∀ s x, Grows s0 s → Grows s0 (f s x)) (h : Grows s0 s) : Grows s0 (l.foldl f s) := by
  induction l generalizing s with
  | nil => exact h
  | cons a l ih => exact ih (hf s a h)

theorem Grows.pfoldl {α β : Type} {s0 : State} {b : State × β} {f : State × β → α → State × β} {l : List α}
    (hf : ∀ b x, Grows s0 b.1 → Grows s0 (f b x).1) (h : Grows s0 b.1) : Grows s0 (l.foldl f b).1 := by
  induction l generalizing b with
  | nil => exact h
  | cons a l ih => exact ih (hf b a h)

/-- Every next state of an outcome grows from s. -/
structure OGrows (s : State) (o : Out1) : Prop where
  next : ∀ t, o = .next t → Grows s t

theorem grows_emit {s0 s : State} (h : Grows s0 s) (o : Out) : Grows s0 (emit s o) :=
  Grows.litWire (List.suffix_cons _ _) h

theorem grows_sendVec {s0 s : State} (h : Grows s0 s) (f v : Nat) : Grows s0 (sendVec s f v) := by
  unfold sendVec
  refine Grows.litWire ?_ h
  split
  · exact List.suffix_refl _
  · exact List.suffix_cons _ _

theorem grows_irq {s0 s t : State} (h : Grows s0 t) : Grows s0 (irq s t) := by
  unfold irq
  exact Grows.ite h (grows_sendVec h 0 0)

theorem OGrows.done {s0 s t : State} (h : Grows s0 t) : OGrows s0 (done s t) := by
  constructor
  intro u e
  cases e
  exact grows_irq h

theorem OGrows.ite {s : State} {a b : Out1} {c : Prop} [Decidable c] (ha : OGrows s a) (hb : OGrows s b) :
    OGrows s (if c then a else b) := by
  by_cases h : c
  · rw [if_pos h]; exact ha
  · rw [if_neg h]; exact hb

theorem OGrows.fault {s : State} {f : Fault} : OGrows s (.fault f) := by
  constructor
  intro u e; cases e

/-- A change outside what Grows speaks of. -/
theorem Grows.upd {s0 s t : State} (h : Grows s0 s) (h1 : t.pending = s.pending) (h2 : t.mem = s.mem)
    (h3 : t.wire = s.wire) (h4 : t.disabled = s.disabled) (h5 : t.life.minimums = s.life.minimums) : Grows s0 t :=
  h.trans ⟨h1, fun x => h2 ▸ x, h3 ▸ List.suffix_refl _, h4, h5 ▸ forall2_le_refl _⟩

theorem Grows.ofPair {β : Type} {s0 a : State} {b : β} {r : State × β} (e : r = (a, b)) (h : Grows s0 r.1) :
    Grows s0 a := by
  subst e; exact h

theorem Grows.fst {β : Type} {s0 a : State} {b : β} (h : Grows s0 a) : Grows s0 (a, b).1 := h

end Sys2Proof.Machine
end

