-- ==== Sys2Proof/Laws/Minimums.lean ====
section
/-!
SUPPORT. What the lifecycle operations do to the fused minimum versions (R403, R410).
-/

namespace Sys2Proof.Machine

theorem rises_trans {l m n : Life} (h : l.Rises m) (g : m.Rises n) : l.Rises n := forall2_le_trans h g

theorem minimums_updateKept (l : Life) : (updateKept l).minimums = l.minimums := by
  unfold updateKept
  split
  · split <;> rfl
  · rfl

theorem minimums_keptLife (l : Life) (b : Bool) : (keptLife l b).minimums = l.minimums := minimums_updateKept l

theorem minimums_railGood (l : Life) (g : Nat) : (railGood l g).minimums = l.minimums := by
  unfold railGood
  extract_lets
  split <;> rfl

theorem minimums_lowerRails (l : Life) (n : Nat) : (lowerRails l n).minimums = l.minimums := by
  induction n generalizing l with
  | zero => rfl
  | succ n ih =>
    unfold lowerRails
    extract_lets l'
    split
    · rfl
    · exact ih l'

theorem minimums_bootFails (l : Life) (c : Nat) : (bootFails l c).minimums = l.minimums := rfl

theorem minimums_bootImage (i c : Nat) (l : Life) : (bootImage i c l).minimums = l.minimums := by
  unfold bootImage
  split
  · rfl
  · split <;> rfl

theorem minimums_nextStage (st : Stage) (l : Life) : (nextStage st l).minimums = l.minimums := by
  unfold nextStage
  split <;> rfl

theorem minimums_writeBank (l : Life) (i : Nat) (x : Image) : (writeBank l i x).minimums = l.minimums := by
  unfold writeBank
  split <;> rfl

theorem rises_modify (l : List (BitVec 32)) (i : Nat) (v : BitVec 32) :
    List.Forall₂ (fun a b => a.toNat ≤ b.toNat) l (l.modify i fun m => if m ≤ v then v else m) := by
  induction l generalizing i with
  | nil => cases i <;> exact .nil
  | cons a l ih =>
    cases i with
    | zero =>
      refine .cons ?_ (forall2_le_refl _)
      show a.toNat ≤ (if a ≤ v then v else a).toNat
      split
      · assumption
      · exact Nat.le_refl _
    | succ i => exact .cons (Nat.le_refl _) (ih i)

theorem rises_validBank (l : Life) (i : Nat) (x : Image) : l.Rises (validBank l i x) := by
  unfold validBank
  extract_lets l'
  have h : l'.minimums = l.minimums := minimums_writeBank _ _ _
  unfold Life.Rises
  rw [← h]
  exact rises_modify _ _ _

end Sys2Proof.Machine
end

