-- ==== Sys2Proof/Laws/GrowsOps.lean ====
section
/-!
SUPPORT. What every command leaves standing (Laws/Grows), said once of each operation over
registers, faults, HBM and host accesses, queue words, the taking of commands and activities.
-/

namespace Sys2Proof.Machine

/-! ## Ops -/

theorem grows_orReg {s0 s : State} (g0 : Grows s0 s) (a : Nat) (m : Nat) :
    Grows s0 (orReg s a m) := by
  unfold orReg
  with_reducible repeat' first | assumption | fail_if_no_progress refine Grows.lit ?_

theorem grows_incReg {s0 s : State} (g0 : Grows s0 s) (a : Nat) (n : Nat) :
    Grows s0 (incReg s a n) := by
  unfold incReg
  with_reducible repeat' first | assumption | fail_if_no_progress refine Grows.lit ?_

theorem grows_setReg64 {s0 s : State} (g0 : Grows s0 s) (a : Nat) (v : Nat) :
    Grows s0 (setReg64 s a v) := by
  unfold setReg64
  with_reducible repeat' first | assumption | fail_if_no_progress refine Grows.lit ?_

theorem grows_notice {s0 s : State} (g0 : Grows s0 s) (f : Nat) (n : Notice) :
    Grows s0 (notice s f n) := by
  unfold notice
  with_reducible repeat' first
      | assumption | extract_lets | apply Grows.ite | apply grows_sendVec | fail_if_no_progress refine Grows.lit ?_

theorem grows_bump {s0 s : State} (g0 : Grows s0 s) (a : Nat) (n : Nat) :
    Grows s0 (bump s a n) := by
  unfold bump
  with_reducible repeat' first | assumption | fail_if_no_progress refine Grows.lit ?_

theorem grows_noticeAll {s0 s : State} (g0 : Grows s0 s) (n : Notice) :
    Grows s0 (noticeAll s n) := by
  unfold noticeAll
  with_reducible repeat' first | assumption | (intro x) | extract_lets | apply Grows.foldl | apply grows_notice

theorem grows_countDead {s0 s : State} (g0 : Grows s0 s) (q : Nat) (n : Nat) :
    Grows s0 (countDead s q n) := by
  unfold countDead
  with_reducible repeat' first | assumption | apply grows_bump

theorem grows_setReg {s0 s : State} (g0 : Grows s0 s) (a : Nat) (v : Nat) :
    Grows s0 (setReg s a v) := by
  unfold setReg
  with_reducible repeat' first | assumption | fail_if_no_progress refine Grows.lit ?_

theorem grows_clrReg {s0 s : State} (g0 : Grows s0 s) (a : Nat) (m : Nat) :
    Grows s0 (clrReg s a m) := by
  unfold clrReg
  with_reducible repeat' first | assumption | fail_if_no_progress refine Grows.lit ?_

/-! ## FaultOps -/

theorem grows_copyRec {s0 s : State} (g0 : Grows s0 s) (f : Nat) (r : FaultRec) :
    Grows s0 (copyRec s f r) := by
  unfold copyRec
  with_reducible repeat' first
      | assumption | extract_lets | apply Grows.ite | apply grows_sendVec | apply grows_notice
      | fail_if_no_progress refine Grows.lit ?_

theorem grows_recordFault {s0 s : State} (g0 : Grows s0 s) (q : FaultReq) :
    Grows s0 (recordFault s q) := by
  unfold recordFault
  with_reducible repeat' first
      | assumption | (intro x) | extract_lets | apply Grows.foldl | apply grows_copyRec
      | fail_if_no_progress refine Grows.lit ?_

theorem grows_brakeHere {s0 s : State} (g0 : Grows s0 s) (c : Nat) (p : Nat) (cause : Nat) :
    Grows s0 (brakeHere s c p cause) := by
  unfold brakeHere
  with_reducible repeat' first
      | assumption | extract_lets | apply grows_notice | apply grows_orReg | fail_if_no_progress refine Grows.lit ?_

theorem grows_forward {s0 s : State} (g0 : Grows s0 s) (m : TrunkMsg) :
    Grows s0 (forward s m) := by
  unfold forward
  with_reducible repeat' first
      | assumption | extract_lets | apply Grows.ite | apply grows_orReg | apply grows_bump | split
      | fail_if_no_progress refine Grows.lit ?_

theorem grows_sendAlarms {s0 s : State} (g0 : Grows s0 s) (dests : List Nat) (type : Nat) (body : List Byte) :
    Grows s0 (sendAlarms s dests type body) := by
  unfold sendAlarms
  with_reducible repeat' first | assumption | (intro x) | extract_lets | apply Grows.foldl | apply grows_forward

theorem grows_raiseBrake {s0 s : State} (g0 : Grows s0 s) (c : Nat) (cause : Nat) :
    Grows s0 (raiseBrake s c cause) := by
  unfold raiseBrake
  with_reducible repeat' first
      | assumption | extract_lets | apply Grows.ite | apply grows_brakeHere | apply grows_bump
      | apply grows_sendAlarms

theorem grows_withhold {s0 s : State} (g0 : Grows s0 s) (p : Nat) (gone : SwapGroup → Bool) :
    Grows s0 (withhold s p gone) := by
  unfold withhold
  with_reducible repeat' first | assumption | extract_lets | apply Grows.ite | fail_if_no_progress refine Grows.lit ?_

theorem grows_withholdAll {s0 s : State} (g0 : Grows s0 s) (p : Nat) :
    Grows s0 (withholdAll s p) := by
  unfold withholdAll
  with_reducible repeat' first | assumption | apply grows_withhold

theorem grows_addLog {s0 s : State} (g0 : Grows s0 s) (r : FaultRec) :
    Grows s0 (addLog s r) := by
  unfold addLog
  with_reducible repeat' first | assumption | fail_if_no_progress refine Grows.lit ?_

theorem grows_cancelEffects {s0 s : State} (g0 : Grows s0 s) (gone : Pending → Bool) :
    Grows s0 (cancelEffects s gone) := by
  unfold cancelEffects
  with_reducible repeat' first
      | assumption | (intro x) | extract_lets | apply Grows.ite | apply Grows.foldl | apply grows_addLog
      | apply grows_notice | fail_if_no_progress refine Grows.lit ?_

theorem grows_acceptCtxReset {s0 s : State} (g0 : Grows s0 s) (c : Nat) (auto : Bool) :
    Grows s0 (acceptCtxReset s c auto) := by
  unfold acceptCtxReset
  with_reducible repeat' first
      | assumption | extract_lets | apply Grows.ite | apply grows_raiseBrake | apply grows_incReg
      | apply grows_withhold | apply grows_cancelEffects | fail_if_no_progress refine Grows.lit ?_

theorem grows_openQuarantine {s0 s : State} (g0 : Grows s0 s) (p : Nat) (die : Nat) (tile : Nat) (cs : List Nat) :
    Grows s0 (openQuarantine s p die tile cs) := by
  unfold openQuarantine
  with_reducible repeat' first
      | assumption | (intro x) | extract_lets | apply Grows.ite | apply Grows.foldl | apply grows_acceptCtxReset
      | fail_if_no_progress refine Grows.lit ?_

theorem grows_abortSdg {s0 s : State} (g0 : Grows s0 s) (p : Nat) :
    Grows s0 (abortSdg s p) := by
  unfold abortSdg
  with_reducible repeat' first | assumption | extract_lets | split | fail_if_no_progress refine Grows.lit ?_

theorem grows_setPartState {s0 s : State} (g0 : Grows s0 s) (p : Nat) (st : PartState) :
    Grows s0 (setPartState s p st) := by
  unfold setPartState
  with_reducible repeat' first
      | assumption | extract_lets | apply grows_notice | apply grows_orReg | fail_if_no_progress refine Grows.lit ?_

theorem grows_dropUnentered {s0 s : State} (g0 : Grows s0 s) :
    Grows s0 (dropUnentered s) := by
  unfold dropUnentered
  with_reducible repeat' first
      | assumption | (intro x) | extract_lets | apply Grows.foldl | apply grows_countDead
      | fail_if_no_progress refine Grows.lit ?_

theorem grows_goQuiet {s0 s : State} (g0 : Grows s0 s) :
    Grows s0 (goQuiet s) := by
  unfold goQuiet
  with_reducible repeat' first | assumption | extract_lets | refine Grows.litWire (List.suffix_append _ _) ?_

theorem grows_dropLevel {s0 s : State} (g0 : Grows s0 s) (lv : Level) :
    Grows s0 (dropLevel s lv) := by
  unfold dropLevel
  with_reducible repeat' first
      | assumption | (intro x) | extract_lets | apply Grows.ite | apply Grows.foldl | apply grows_noticeAll
      | apply grows_withholdAll | apply grows_raiseBrake | apply grows_dropUnentered | apply grows_goQuiet
      | fail_if_no_progress refine Grows.lit ?_

theorem grows_escalatePart {s0 s : State} (g0 : Grows s0 s) (p : Nat) :
    Grows s0 (escalatePart s p) := by
  unfold escalatePart
  with_reducible repeat' first
      | assumption | extract_lets | apply Grows.ite | apply grows_incReg | apply grows_orReg | apply grows_dropLevel
      | fail_if_no_progress refine Grows.lit ?_

theorem grows_acceptPartReset {s0 s : State} (g0 : Grows s0 s) (p : Nat) (auto : Bool) :
    Grows s0 (acceptPartReset s p auto) := by
  unfold acceptPartReset
  with_reducible repeat' first
      | assumption | (intro x) | extract_lets | apply Grows.ite | apply Grows.foldl | apply grows_raiseBrake
      | apply grows_cancelEffects | apply grows_abortSdg | apply grows_setPartState | apply grows_notice
      | apply grows_incReg | apply grows_escalatePart | fail_if_no_progress refine Grows.lit ?_

theorem grows_respond {s0 s : State} (g0 : Grows s0 s) (a1 : Named) :
    Grows s0 (respond s a1) := by
  unfold respond
  with_reducible repeat' first
      | assumption | extract_lets | apply Grows.ite | apply grows_raiseBrake | apply grows_withholdAll
      | apply grows_acceptCtxReset | apply grows_openQuarantine | apply grows_acceptPartReset | split

theorem grows_raiseFault {s0 s : State} (g0 : Grows s0 s) (q : FaultReq) :
    Grows s0 (raiseFault s q) := by
  unfold raiseFault
  with_reducible repeat' first
      | assumption | extract_lets | apply Grows.ite | apply grows_recordFault | apply grows_respond

theorem grows_dropReplies {s0 s : State} (g0 : Grows s0 s) (c : Nat) :
    Grows s0 (dropReplies s c) := by
  unfold dropReplies
  with_reducible repeat' first | assumption | fail_if_no_progress refine Grows.lit ?_

theorem grows_raiseFaults {s0 s : State} (g0 : Grows s0 s) (l : List FaultReq) :
    Grows s0 (raiseFaults s l) := by
  unfold raiseFaults
  with_reducible repeat' first | assumption | (intro x) | extract_lets | apply Grows.foldl | apply grows_raiseFault

/-! ## MemOps -/

theorem grows_writeLine {s0 s : State} (g0 : Grows s0 s) (pc line : Nat) (bytes : List Byte) :
    Grows s0 (writeLine s pc line bytes) :=
  g0.trans ⟨rfl, fun h => wf_writeBytes h, List.suffix_refl _, rfl, forall2_le_refl _⟩

theorem grows_memFault {s0 s : State} (g0 : Grows s0 s) (code : Nat) (who : Named) (pc : Nat) (line : Nat) :
    Grows s0 (memFault s code who pc line) := by
  unfold memFault
  with_reducible repeat' first
      | assumption | extract_lets | apply Grows.ite | apply grows_setReg64 | apply grows_orReg | apply grows_incReg
      | apply grows_raiseFault

theorem grows_poison {s0 s : State} (g0 : Grows s0 s) (pc : Nat) (line : Nat) :
    Grows s0 (poison s pc line) := by
  unfold poison
  with_reducible repeat' first | assumption | extract_lets | apply Grows.ite | fail_if_no_progress refine Grows.lit ?_

theorem grows_countUe {s0 s : State} (g0 : Grows s0 s) :
    Grows s0 (countUe s) := by
  unfold countUe
  with_reducible repeat' first | assumption | extract_lets | apply grows_orReg | apply grows_incReg

theorem grows_writePart {s0 s : State} (g0 : Grows s0 s) (who : Named) (pc line b : Nat) (bytes : List Byte) :
    Grows s0 (writePart s who pc line b bytes) := by
  unfold writePart
  with_reducible split
  · with_reducible extract_lets old s'
    have hs : Grows s0 s' := g0.trans ⟨rfl, fun h => wf_writeBytes h, List.suffix_refl _, rfl, forall2_le_refl _⟩
    clear_value s'
    with_reducible repeat' first | assumption | apply Grows.ite | apply grows_writeLine
  all_goals with_reducible repeat' first
      | assumption | apply Grows.ite | apply grows_memFault | apply grows_poison | apply grows_countUe

theorem grows_writePieces {s0 s : State} (g0 : Grows s0 s) (who : Named) (f : Nat) (a3 : List (Nat × Nat))
    (a4 : List Byte) :
    Grows s0 (writePieces s who f a3 a4) := by
  induction a3 generalizing s a4 with
  | nil =>
    unfold writePieces
    with_reducible repeat' first | assumption
  | cons _ _ ih =>
    unfold writePieces
    with_reducible repeat' first
        | apply ih | assumption | extract_lets | apply Grows.ite | apply grows_writeLine | apply grows_writePart
        | split

theorem grows_rejectHost {s0 s : State} (g0 : Grows s0 s) (who : Named) (f : Nat) (addr : Nat) (len : Nat) :
    Grows s0 (rejectHost s who f addr len) := by
  unfold rejectHost
  with_reducible repeat' first | assumption | extract_lets | apply grows_memFault

theorem grows_hostWrite {s0 s : State} (g0 : Grows s0 s) (f : Nat) (ctx : Option Nat) (addr : Nat)
    (bytes : List Byte) :
    Grows s0 (hostWrite s f ctx addr bytes) := by
  unfold hostWrite
  with_reducible repeat' first
      | assumption | extract_lets | apply Grows.ite | apply grows_orReg | apply grows_incReg | apply grows_writePieces
      | apply grows_rejectHost | split | fail_if_no_progress refine Grows.lit ?_

theorem grows_readLine {s0 s : State} (g0 : Grows s0 s) (who : Named) (pc : Nat) (line : Nat) :
    Grows s0 (readLine s who pc line).1 := by
  unfold readLine
  with_reducible repeat' first
      | assumption | extract_lets | apply Grows.ite | apply grows_memFault | apply grows_countUe | apply grows_poison
      | split

theorem grows_readPieces {s0 s : State} (g0 : Grows s0 s) (who : Named) (f : Nat) (a3 : List (Nat × Nat)) :
    Grows s0 (readPieces s who f a3).1 := by
  induction a3 generalizing s with
  | nil =>
    unfold readPieces
    with_reducible repeat' first | assumption
  | cons _ _ ih =>
    unfold readPieces
    with_reducible repeat' first | apply ih | assumption | extract_lets | apply grows_readLine | split

theorem grows_hostRead {s0 s : State} (g0 : Grows s0 s) (who : Named) (f : Nat) (addr : Nat) (len : Nat) :
    Grows s0 (hostRead s who f addr len).1 := by
  unfold hostRead
  with_reducible repeat' first
      | assumption | extract_lets | apply Grows.pite | apply grows_readPieces | apply grows_rejectHost

/-! ## QueueOps -/

theorem grows_stationQueue {s0 s : State} (g0 : Grows s0 s) (dest : Nat) (payload : List Byte) :
    Grows s0 (stationQueue s dest payload) := by
  unfold stationQueue
  with_reducible repeat' first | assumption | extract_lets | fail_if_no_progress refine Grows.lit ?_

theorem grows_ringVector {s0 s : State} (g0 : Grows s0 s) (q : Nat) :
    Grows s0 (ringVector s q) := by
  unfold ringVector
  with_reducible repeat' first
      | assumption | extract_lets | apply Grows.ite | apply grows_sendVec | fail_if_no_progress refine Grows.lit ?_

theorem grows_writeProd {s0 s : State} (g0 : Grows s0 s) (q : Nat) (bytes : List Byte) :
    Grows s0 (writeProd s q bytes) := by
  unfold writeProd
  with_reducible repeat' first
      | assumption | extract_lets | apply grows_hostWrite | apply grows_ringVector
      | fail_if_no_progress refine Grows.lit ?_

theorem grows_writeStatus {s0 s : State} (g0 : Grows s0 s) (src : CmdSrc) (t : Status) :
    Grows s0 (writeStatus s src t) := by
  unfold writeStatus
  with_reducible repeat' first
      | assumption | extract_lets | apply Grows.ite | apply grows_stationQueue | apply grows_writeProd | split
      | fail_if_no_progress refine Grows.lit ?_

theorem grows_writeBarrier {s0 s : State} (g0 : Grows s0 s) (q : Nat) (tick : Nat) (enteredLost : Nat)
    (queuedLost : Nat) (c : Nat) (cause : Nat) (postmark : Nat) :
    Grows s0 (writeBarrier s q tick enteredLost queuedLost c cause postmark) := by
  unfold writeBarrier
  with_reducible repeat' first
      | assumption | extract_lets | apply Grows.ite | apply grows_writeProd | fail_if_no_progress refine Grows.lit ?_

theorem grows_offer {s0 s : State} (g0 : Grows s0 s) (q : Nat) (bytes : Queue → List Byte) :
    Grows s0 (offer s q bytes) := by
  unfold offer
  with_reducible repeat' first
      | assumption | extract_lets | apply Grows.ite | apply grows_countDead | apply grows_writeProd

theorem grows_writeRec {s0 s : State} (g0 : Grows s0 s) (c : Nat) (r : CloseRec) :
    Grows s0 (writeRec s c r) := by
  unfold writeRec
  with_reducible repeat' first
      | assumption | extract_lets | apply grows_offer | split | fail_if_no_progress refine Grows.lit ?_

theorem grows_writeCons {s0 s : State} (g0 : Grows s0 s) (q : Nat) (bytes : List Byte) :
    Grows s0 (writeCons s q bytes) := by
  unfold writeCons
  with_reducible repeat' first
      | assumption | extract_lets | apply grows_hostWrite | apply grows_ringVector
      | fail_if_no_progress refine Grows.lit ?_

theorem grows_txEntryDone {s0 s : State} (g0 : Grows s0 s) (q : Nat) (st : Nat) (stamp : Option Nat) :
    Grows s0 (txEntryDone s q st stamp) := by
  unfold txEntryDone
  with_reducible repeat' first | assumption | extract_lets | apply grows_writeCons

theorem grows_exitEntry {s0 s : State} (g0 : Grows s0 s) (q : Nat) (w : TWord) (postmark : Nat) :
    Grows s0 (exitEntry s q w postmark) := by
  unfold exitEntry
  with_reducible repeat' first | assumption | apply grows_offer

/-! ## CmdOps -/

theorem grows_dequeue {s0 s : State} (g0 : Grows s0 s) (hh : CmdHdr) :
    Grows s0 (dequeue s hh) := by
  unfold dequeue
  with_reducible repeat' first | assumption | (intro x) | split | fail_if_no_progress refine Grows.lit ?_

theorem grows_countStatus {s0 s : State} (g0 : Grows s0 s) (st : Nat) :
    Grows s0 (countStatus s st) := by
  unfold countStatus
  with_reducible repeat' first | assumption | extract_lets | apply Grows.ite | apply grows_incReg | apply grows_orReg

theorem grows_answer {s0 s : State} (g0 : Grows s0 s) (hh : CmdHdr) (row : OpRow) (index : Nat) (r : Reply)
    (g_r : Grows s0 r.state) :
    Grows s0 (answer s hh row index r) := by
  unfold answer
  with_reducible repeat' first
      | assumption | extract_lets | apply Grows.ite | apply grows_writeStatus | apply grows_countStatus

theorem grows_refuse {s0 s : State} (g0 : Grows s0 s) (status : Nat) :
    Grows s0 (refuse s status).state := by
  unfold refuse
  with_reducible repeat' first | assumption

theorem grows_refuseAt {s0 s : State} (g0 : Grows s0 s) (status : Nat) (r0 : Nat) (r1 : Nat) :
    Grows s0 (refuseAt s status r0 r1).state := by
  unfold refuseAt
  with_reducible repeat' first | assumption

theorem grows_judge {s0 s : State} (g0 : Grows s0 s) (hh : CmdHdr) (row : OpRow) (params : Bool) (address : Bool)
    (body : State → Nat → Reply) (index : Nat) (g_body : ∀ y0 y1, Grows s0 y0 → Grows s0 (body y0 y1).state) :
    Grows s0 (judge s hh row params address body index).state := by
  unfold judge
  with_reducible repeat' first
      | assumption | extract_lets | apply Grows.rite | apply grows_refuse | apply grows_refuseAt | apply g_body

theorem grows_stallRing {s0 s : State} (g0 : Grows s0 s) (hh : CmdHdr) :
    Grows s0 (stallRing s hh) := by
  unfold stallRing
  with_reducible repeat' first
      | assumption | extract_lets | apply grows_orReg | split | fail_if_no_progress refine Grows.lit ?_

theorem grows_taken {s0 s : State} (g0 : Grows s0 s) (hh : CmdHdr) :
    Grows s0 (taken s hh) := by
  unfold taken
  with_reducible repeat' first | assumption | apply grows_dequeue | fail_if_no_progress refine Grows.lit ?_

theorem grows_takeWith {s0 s : State} (g0 : Grows s0 s) (hh : CmdHdr) (row : OpRow) (reply : State → Nat → Reply)
    (g_reply : ∀ y0 y1, Grows s0 y0 → Grows s0 (reply y0 y1).state) :
    Grows s0 (takeWith s hh row reply) := by
  unfold takeWith
  with_reducible repeat' first
      | assumption | (intro x) | apply Grows.ite | apply grows_answer | apply grows_stallRing | apply grows_taken
      | apply g_reply

theorem grows_takeCommand {s0 s : State} (g0 : Grows s0 s) (hh : CmdHdr) (row : OpRow) (params : Bool) (address :
    Bool) (body : State → Nat → Reply) (g_body : ∀ y0 y1, Grows s0 y0 → Grows s0 (body y0 y1).state) :
    Grows s0 (takeCommand s hh row params address body) := by
  unfold takeCommand
  with_reducible repeat' first | assumption | (intro x) | apply grows_judge | apply grows_takeWith | apply g_body

theorem grows_accept {s0 s : State} (g0 : Grows s0 s) :
    Grows s0 (accept s).state := by
  unfold accept
  with_reducible repeat' first | assumption

theorem grows_acceptAt {s0 s : State} (g0 : Grows s0 s) (r0 : Nat) (r1 : Nat) :
    Grows s0 (acceptAt s r0 r1).state := by
  unfold acceptAt
  with_reducible repeat' first | assumption

theorem grows_addEffect {s0 s : State} (g0 : Grows s0 s) (hh : CmdHdr) (index : Nat) (due : Nat) (e : Effect) :
    Grows s0 (addEffect s hh index due e) := by
  unfold addEffect
  with_reducible repeat' first | assumption | fail_if_no_progress refine Grows.lit ?_

theorem grows_finishLater {s0 s : State} (g0 : Grows s0 s) :
    Grows s0 (finishLater s).state := by
  unfold finishLater
  with_reducible repeat' first | assumption

/-! ## Activities -/

theorem grows_withActivity {s0 s : State} (g0 : Grows s0 s) (code : Nat) (scope : Nat) (mask : BitVec 256)
    (ok : Nat → State → Reply) (g_ok : ∀ y0 y1, Grows s0 y1 → Grows s0 (ok y0 y1).state) :
    Grows s0 (withActivity s code scope mask ok).state := by
  unfold withActivity
  with_reducible repeat' first | assumption | apply grows_refuseAt | apply g_ok | split

theorem grows_startedNow {s0 s : State} (g0 : Grows s0 s) (hh : CmdHdr) :
    Grows s0 (startedNow hh s).state := by
  unfold startedNow
  with_reducible repeat' first | assumption | apply grows_acceptAt

theorem grows_endAct {s0 s : State} (g0 : Grows s0 s) (i : Nat) (outcome : Nat) :
    Grows s0 (endAct s i outcome) := by
  unfold endAct
  with_reducible repeat' first | assumption | fail_if_no_progress refine Grows.lit ?_

theorem grows_startAct {s0 s : State} (g0 : Grows s0 s) (i : Nat) (code : Nat) (scope : Nat) (auto : Bool) :
    Grows s0 (startAct s i code scope auto) := by
  unfold startAct
  with_reducible repeat' first | assumption | extract_lets | fail_if_no_progress refine Grows.lit ?_

theorem grows_endActOf {s0 s : State} (g0 : Grows s0 s) (code : Nat) (scope : Nat) (outcome : Nat) :
    Grows s0 (endActOf s code scope outcome) := by
  unfold endActOf
  with_reducible repeat' first | assumption | apply grows_endAct | split

end Sys2Proof.Machine
end

