-- ==== Sys2Proof/Laws/GrowsTiles.lean ====
section
/-!
SUPPORT. What every command leaves standing (Laws/Grows), said once of each operation over
the tiles: links, queues, entries, cores.
-/

namespace Sys2Proof.Machine

/-! ## TileOps -/

theorem grows_setTile {s0 s : State} (g0 : Grows s0 s) (k : Nat) (f : Tile → Tile) :
    Grows s0 (setTile s k f) := by
  unfold setTile
  with_reducible repeat' first | assumption | fail_if_no_progress refine Grows.lit ?_

theorem grows_tileFaultAt {s0 s : State} (g0 : Grows s0 s) (x : Site) (code : Nat) (c : Nat) (off : Nat) :
    Grows s0 (tileFaultAt s x code c off) := by
  unfold tileFaultAt
  with_reducible repeat' first
      | assumption | (intro x) | extract_lets | apply Grows.ite | apply grows_orReg | apply grows_incReg
      | apply grows_raiseFault | apply grows_setTile | fail_if_no_progress refine Grows.lit ?_

theorem grows_tileFault {s0 s : State} (g0 : Grows s0 s) (x : Site) (code : Nat) (c : Nat) :
    Grows s0 (tileFault s x code c) := by
  unfold tileFault
  with_reducible repeat' first | assumption | apply grows_tileFaultAt

theorem grows_slotFault {s0 s : State} (g0 : Grows s0 s) (x : Site) (code : Nat) :
    Grows s0 (slotFault s x code) := by
  unfold slotFault
  with_reducible repeat' first | assumption | apply grows_tileFault

theorem grows_popQueue {s0 s : State} (g0 : Grows s0 s) (x : Site) (q : Nat) :
    Grows s0 (popQueue s x q).1 := by
  unfold popQueue
  with_reducible repeat' first
      | assumption | extract_lets | apply Grows.pite | apply grows_slotFault | apply grows_setTile | split

theorem grows_drainSlot {s0 s : State} (g0 : Grows s0 s) (x : Site) (ix : Nat) :
    Grows s0 (drainSlot s x ix) := by
  unfold drainSlot
  with_reducible repeat' first
      | assumption | extract_lets | apply Grows.ite | apply grows_setTile | apply grows_tileFault

theorem grows_drainAll {s0 s : State} (g0 : Grows s0 s) (x : Site) :
    Grows s0 (drainAll s x) := by
  unfold drainAll
  with_reducible repeat' first
      | assumption | (intro x) | extract_lets | apply Grows.ite | apply Grows.foldl | apply grows_drainSlot

theorem grows_deliverMemory {s0 s : State} (g0 : Grows s0 s) (x : Site) (w : TWord) :
    Grows s0 (deliverMemory s x w) := by
  unfold deliverMemory
  with_reducible repeat' first
      | assumption | extract_lets | apply Grows.ite | apply grows_slotFault | apply grows_setTile

theorem grows_deliverCompute {s0 s : State} (g0 : Grows s0 s) (x : Site) (w : TWord) :
    Grows s0 (deliverCompute s x w) := by
  unfold deliverCompute
  refine Grows.ite g0 (Grows.ite (grows_slotFault g0 _ _) (Grows.ite (grows_tileFault g0 _ _ _) ?_))
  split
  · exact Grows.ite (Grows.ite (grows_tileFault g0 _ _ _) (Grows.ite (grows_tileFault g0 _ _ _) (grows_setTile g0 _ _)))
      (grows_setTile g0 _ _)
  · exact grows_setTile g0 _ _

theorem grows_pushIn {s0 s : State} (g0 : Grows s0 s) (k : Nat) (port : Nat) (arr : Nat) (w : TWord) :
    Grows s0 (pushIn s k port arr w) := by
  unfold pushIn
  with_reducible repeat' first | assumption | apply grows_setTile

theorem grows_checkCrossing {s0 s : State} (g0 : Grows s0 s) (die : Nat) (unit : Nat) (link : Nat) (p : Nat) (off :
    Nat) :
    Grows s0 (checkCrossing s die unit link p off).1 := by
  unfold checkCrossing
  generalize Config.crossingError s.fresh = e
  with_reducible rcases e with _ | _ | _ <;> repeat' first
      | assumption | extract_lets | apply grows_orReg | apply grows_incReg | apply grows_raiseFault
      | fail_if_no_progress refine Grows.lit ?_

theorem grows_hubStand {s0 s : State} (g0 : Grows s0 s) (key : Nat) (arr : Nat) (w : TWord) :
    Grows s0 (hubStand s key arr w) := by
  unfold hubStand
  with_reducible repeat' first | assumption | fail_if_no_progress refine Grows.lit ?_

theorem grows_strayIdle {s0 s : State} (g0 : Grows s0 s) (k : Nat) :
    Grows s0 (strayIdle s k) := by
  unfold strayIdle
  with_reducible repeat' first
      | assumption | (intro x) | extract_lets | apply Grows.ite | apply Grows.foldl | apply Grows.pfoldl
      | apply grows_setTile | apply grows_tileFaultAt | split

theorem grows_arrive {s0 s : State} (g0 : Grows s0 s) (k : Nat) (port : Nat) (arr : Nat) (w : TWord) :
    Grows s0 (arrive s k port arr w) := by
  unfold arrive
  with_reducible repeat' first | assumption | apply grows_pushIn | apply grows_strayIdle

theorem grows_spineArrive {s0 s : State} (g0 : Grows s0 s) (p : Nat) (k : Nat) (arr : Nat) (w : TWord) :
    Grows s0 (spineArrive s p k arr w) := by
  unfold spineArrive
  with_reducible repeat' first
      | assumption | extract_lets | apply Grows.ite | apply Grows.pite | apply grows_arrive | apply grows_checkCrossing

theorem grows_hubRoute {s0 s : State} (g0 : Grows s0 s) (p : Nat) (a2 : Nat) (a3 : Bool) (a4 : Nat) (a5 : Nat) (a6 :
    Nat) (a7 : TWord) :
    Grows s0 (hubRoute s p a2 a3 a4 a5 a6 a7) := by
  induction a2 generalizing s a3 a4 a5 a6 a7 with
  | zero => exact grows_hubStand g0 _ _ _
  | succ _ ih =>
    cases a3 <;> simp only [hubRoute] <;> with_reducible repeat' first
        | apply ih | assumption | extract_lets | apply Grows.ite | apply grows_checkCrossing
        | apply grows_hubStand | apply grows_spineArrive | split

theorem grows_hubPlace {s0 s : State} (g0 : Grows s0 s) (p : Nat) (hub : Nat) (port : Nat) (arr : Nat) (w : TWord) :
    Grows s0 (hubPlace s p hub port arr w) := by
  unfold hubPlace
  with_reducible repeat' first | assumption | apply grows_hubRoute

theorem grows_sendSpine {s0 s : State} (g0 : Grows s0 s) (x : Site) (w : TWord) :
    Grows s0 (sendSpine s x w) := by
  unfold sendSpine
  with_reducible repeat' first
      | assumption | extract_lets | apply Grows.ite | apply Grows.pite | apply grows_slotFault | apply grows_hubPlace
      | apply grows_checkCrossing | split

theorem grows_sendBeside {s0 s : State} (g0 : Grows s0 s) (x : Site) (dir : Nat) (w : TWord) :
    Grows s0 (sendBeside s x dir w) := by
  unfold sendBeside
  with_reducible repeat' first
      | assumption | extract_lets | apply Grows.ite | apply Grows.pite | apply grows_slotFault | apply grows_arrive
      | apply grows_checkCrossing | split

theorem grows_sendOut {s0 s : State} (g0 : Grows s0 s) (x : Site) (dir : Nat) (w : TWord) :
    Grows s0 (sendOut s x dir w) := by
  unfold sendOut
  with_reducible repeat' first | assumption | apply Grows.ite | apply grows_sendSpine | apply grows_sendBeside

theorem grows_forwardAll {s0 s : State} (g0 : Grows s0 s) (x : Site) (src : Nat) (w : TWord) :
    Grows s0 (forwardAll s x src w).1 := by
  unfold forwardAll
  with_reducible repeat' first | assumption | (intro x) | extract_lets | apply Grows.foldl | apply grows_sendOut

theorem grows_handleWord {s0 s : State} (g0 : Grows s0 s) (x : Site) (port : Nat) (w : TWord) :
    Grows s0 (handleWord s x port w) := by
  unfold handleWord
  with_reducible repeat' first
      | assumption | extract_lets | apply Grows.ite | apply grows_slotFault | apply grows_deliverMemory
      | apply grows_deliverCompute | apply grows_forwardAll

theorem grows_handlePort {s0 s : State} (g0 : Grows s0 s) (x : Site) (port : Nat) :
    Grows s0 (handlePort s x port) := by
  unfold handlePort
  with_reducible repeat' first
      | assumption | (intro x) | extract_lets | apply Grows.ite | apply Grows.foldl | apply grows_setTile
      | apply grows_handleWord

theorem grows_handleOut {s0 s : State} (g0 : Grows s0 s) (x : Site) (src : Nat) (now : List OutWord) :
    Grows s0 (handleOut s x src now) := by
  unfold handleOut
  with_reducible repeat' first
      | assumption | extract_lets | apply Grows.ite | apply Grows.pite | apply grows_slotFault | apply grows_forwardAll
      | split

theorem grows_switchAc {s0 s : State} (g0 : Grows s0 s) (x : Site) :
    Grows s0 (switchAc s x) := by
  unfold switchAc
  with_reducible repeat' first
      | assumption | (intro x) | extract_lets | apply Grows.foldl | apply grows_setTile | apply grows_handlePort
      | apply grows_handleOut

theorem grows_landWrites {s0 s : State} (g0 : Grows s0 s) (x : Site) :
    Grows s0 (landWrites s x) := by
  unfold landWrites
  with_reducible repeat' first
      | assumption | extract_lets | apply Grows.ite | apply grows_setTile | apply grows_incReg

theorem grows_acStep {s0 s : State} (g0 : Grows s0 s) (x : Site) (act : State → State)
    (g_act : ∀ y0, Grows s0 y0 → Grows s0 (act y0)) :
    Grows s0 (acStep s x act) := by
  unfold acStep
  with_reducible repeat' first
      | assumption | extract_lets | apply grows_drainAll | apply grows_switchAc | apply grows_landWrites
      | apply grows_setTile | apply g_act

theorem grows_traceNote {s0 s : State} (g0 : Grows s0 s) (x : Site) :
    Grows s0 (traceNote s x) := by
  unfold traceNote
  with_reducible repeat' first | assumption | extract_lets | apply Grows.ite | apply grows_setReg

theorem grows_setDyn {s0 s : State} (g0 : Grows s0 s) (x : Site) (f : SlotDyn → SlotDyn) :
    Grows s0 (setDyn s x f) := by
  unfold setDyn
  with_reducible repeat' first | assumption | apply grows_setTile

theorem grows_countSteps {s0 s : State} (g0 : Grows s0 s) (c : Option Nat) (n : Nat) :
    Grows s0 (countSteps s c n) := by
  unfold countSteps
  with_reducible repeat' first | assumption | split | fail_if_no_progress refine Grows.lit ?_

theorem grows_finishEntry {s0 s : State} (g0 : Grows s0 s) (x : Site) (sel : Option Bool) :
    Grows s0 (finishEntry s x sel) := by
  unfold finishEntry
  with_reducible repeat' first | assumption | apply grows_setDyn

/-! ## Tiles -/

theorem grows_endEntry {s0 s : State} (g0 : Grows s0 s) (x : Site) :
    Grows s0 (endEntry s x) := by
  unfold endEntry
  with_reducible repeat' first
      | assumption | (intro x) | extract_lets | apply Grows.ite | apply grows_setTile | apply grows_finishEntry
      | apply grows_strayIdle

/-! ## TileOps -/

theorem grows_pushOut {s0 s : State} (g0 : Grows s0 s) (x : Site) (ac : Nat) (w : TWord) :
    Grows s0 (pushOut s x ac w) := by
  unfold pushOut
  with_reducible repeat' first
      | assumption | extract_lets | apply Grows.ite | apply grows_slotFault | apply grows_setTile

/-! ## Tiles -/

theorem grows_pushWords {s0 s : State} (g0 : Grows s0 s) (x : Site) (q : Nat) (tag : BitVec 16) (a4 : Nat)
    (a5 : List (BitVec 160)) :
    Grows s0 (pushWords s x q tag a4 a5) := by
  induction a5 generalizing s a4 with
  | nil =>
    unfold pushWords
    with_reducible repeat' first | assumption
  | cons _ _ ih =>
    unfold pushWords
    with_reducible repeat' first | apply ih | assumption | extract_lets | apply grows_pushOut

theorem grows_readAct {s0 s : State} (g0 : Grows s0 s) (x : Site) :
    Grows s0 (readAct s x) := by
  unfold readAct
  with_reducible repeat' first
      | assumption | extract_lets | apply Grows.ite | apply grows_setDyn | apply grows_slotFault
      | apply grows_pushWords

theorem grows_tokenAct {s0 s : State} (g0 : Grows s0 s) (x : Site) (use : SlotDyn → TWord → SlotDyn) :
    Grows s0 (tokenAct s x use) := by
  unfold tokenAct
  with_reducible repeat' first
      | assumption | (intro x) | apply Grows.ite | apply Grows.pite | apply grows_popQueue | apply grows_setDyn | split
      | refine Grows.ofPair (by assumption) ?_

theorem grows_loadWeights {s0 s : State} (g0 : Grows s0 s) (x : Site) :
    Grows s0 (loadWeights s x) := by
  unfold loadWeights
  with_reducible repeat' first | assumption | apply grows_setTile | apply grows_slotFault | split

theorem grows_takeInput {s0 s : State} (g0 : Grows s0 s) (x : Site) (inq : Nat) :
    Grows s0 (takeInput s x inq).1 := by
  unfold takeInput
  with_reducible repeat' first
      | assumption | (intro x) | extract_lets | apply Grows.ite | apply Grows.pite | apply grows_setTile
      | apply grows_slotFault | apply grows_popQueue | apply grows_setDyn | split

theorem grows_noteFiring {s0 s : State} (g0 : Grows s0 s) (x : Site) (w : TWord) :
    Grows s0 (noteFiring s x w) := by
  unfold noteFiring
  with_reducible repeat' first | assumption | extract_lets | apply grows_setTile | apply grows_setDyn

theorem grows_addPipe {s0 s : State} (g0 : Grows s0 s) (x : Site) (it : PipeItem) :
    Grows s0 (addPipe s x it) := by
  unfold addPipe
  with_reducible repeat' first | assumption | apply grows_setDyn

theorem grows_mergeWord {s0 s : State} (g0 : Grows s0 s) (x : Site) (clr : Bool) (w : TWord) :
    Grows s0 (mergeWord s x clr w) := by
  unfold mergeWord
  with_reducible repeat' first
      | assumption | extract_lets | apply Grows.ite | apply grows_slotFault | apply grows_addPipe | apply grows_setDyn

/-! ## TileOps -/

theorem grows_windowWrite {s0 s : State} (g0 : Grows s0 s) (x : Site) (off : Nat) (bytes : List Byte) :
    Grows s0 (windowWrite s x off bytes) := by
  unfold windowWrite
  with_reducible repeat' first
      | assumption | extract_lets | apply Grows.ite | apply grows_setTile | apply grows_slotFault

/-! ## Tiles -/

theorem grows_popScales {s0 s : State} (g0 : Grows s0 s) (x : Site) (i : Nat) :
    Grows s0 (popScales s x i) := by
  unfold popScales
  with_reducible repeat' first
      | assumption | extract_lets | apply Grows.ite | apply grows_popQueue | apply grows_windowWrite | split
      | refine Grows.ofPair (by assumption) ?_

theorem grows_multiplyWord {s0 s : State} (g0 : Grows s0 s) (x : Site) (clr : Bool) (w : TWord) :
    Grows s0 (multiplyWord s x clr w) := by
  unfold multiplyWord
  with_reducible repeat' first
      | assumption | extract_lets | apply Grows.ite | apply grows_popScales | apply grows_addPipe | apply grows_setDyn
      | apply grows_slotFault

theorem grows_mulTake {s0 s : State} (g0 : Grows s0 s) (x : Site) :
    Grows s0 (mulTake s x) := by
  unfold mulTake
  with_reducible repeat' first
      | assumption | (intro x) | extract_lets | apply Grows.ite | apply Grows.pite | apply grows_setTile
      | apply grows_takeInput | apply grows_noteFiring | apply grows_mergeWord | apply grows_multiplyWord | split
      | refine Grows.ofPair (by assumption) ?_

theorem grows_mulAct {s0 s : State} (g0 : Grows s0 s) (x : Site) :
    Grows s0 (mulAct s x) := by
  unfold mulAct
  with_reducible repeat' first
      | assumption | extract_lets | apply Grows.ite | apply grows_loadWeights | apply grows_mulTake

theorem grows_mtRead {s0 s : State} (g0 : Grows s0 s) (x : Site) (a : Nat) :
    Grows s0 (mtRead s x a) := by
  unfold mtRead
  with_reducible repeat' first
      | assumption | (intro x) | extract_lets | apply Grows.ite | apply grows_setTile | apply grows_pushOut
      | apply grows_setDyn

theorem grows_mtWrite {s0 s : State} (g0 : Grows s0 s) (x : Site) (a : Nat) :
    Grows s0 (mtWrite s x a) := by
  unfold mtWrite
  with_reducible repeat' first
      | assumption | (intro x) | extract_lets | apply grows_setTile | apply grows_popQueue | apply grows_setDyn | split
      | refine Grows.ofPair (by assumption) ?_

theorem grows_mtAct {s0 s : State} (g0 : Grows s0 s) (x : Site) :
    Grows s0 (mtAct s x) := by
  unfold mtAct
  with_reducible repeat' first
      | assumption | (intro x) | extract_lets | apply Grows.ite | apply grows_setTile | apply grows_slotFault
      | apply grows_noteFiring | apply grows_mtRead | apply grows_mtWrite

/-! ## TileOps -/

theorem grows_raiseFlags {s0 s : State} (g0 : Grows s0 s) (x : Site) (f : Nat) :
    Grows s0 (raiseFlags s x f) := by
  unfold raiseFlags
  with_reducible repeat' first
      | assumption | extract_lets | apply Grows.ite | apply grows_setDyn | apply grows_slotFault

/-! ## Tiles -/

theorem grows_softPass1 {s0 s : State} (g0 : Grows s0 s) (x : Site) (j : Nat) (w : TWord) :
    Grows s0 (softPass1 s x j w) := by
  unfold softPass1
  with_reducible repeat' first
      | assumption | extract_lets | apply grows_raiseFlags | apply grows_addPipe

theorem grows_sfEmit {s0 s : State} (g0 : Grows s0 s) (x : Site) (w : TWord) (r : BitVec 160 × Nat) :
    Grows s0 (sfEmit s x w r) := by
  unfold sfEmit
  with_reducible repeat' first
      | assumption | extract_lets | apply Grows.ite | apply grows_pushOut | apply grows_raiseFlags

theorem grows_sfWordAct {s0 s : State} (g0 : Grows s0 s) (x : Site) (j : Nat) (w : TWord) :
    Grows s0 (sfWordAct s x j w) := by
  unfold sfWordAct
  with_reducible repeat' first
      | assumption | apply Grows.ite | apply grows_slotFault | apply grows_softPass1 | apply grows_sfEmit | split

theorem grows_sfAct {s0 s : State} (g0 : Grows s0 s) (x : Site) :
    Grows s0 (sfAct s x) := by
  unfold sfAct
  with_reducible repeat' first
      | assumption | (intro x) | extract_lets | apply Grows.ite | apply Grows.pite | apply grows_setTile
      | apply grows_takeInput | apply grows_noteFiring | apply grows_sfWordAct | split
      | refine Grows.ofPair (by assumption) ?_

theorem grows_fireAct {s0 s : State} (g0 : Grows s0 s) (x : Site) :
    Grows s0 (fireAct s x) := by
  unfold fireAct
  with_reducible repeat' first
      | assumption | apply Grows.ite | apply grows_mulAct | apply grows_mtAct | apply grows_sfAct

theorem grows_entryAct {s0 s : State} (g0 : Grows s0 s) (x : Site) :
    Grows s0 (entryAct s x) := by
  unfold entryAct
  with_reducible repeat' first
      | assumption | apply Grows.ite | apply grows_loadCounter | apply grows_readAct | apply grows_tokenAct
      | apply grows_fireAct

theorem grows_tileAc {s0 s : State} (g0 : Grows s0 s) (x : Site) :
    Grows s0 (tileAc s x) := by
  unfold tileAc
  with_reducible repeat' first
      | assumption | (intro x) | extract_lets | apply Grows.ite | apply grows_acStep | apply grows_traceNote
      | apply grows_setDyn | apply grows_countSteps | apply grows_endEntry | apply grows_entryAct

/-! ## TileOps -/

theorem grows_runAcs {s0 a2 : State} (g0 : Grows s0 a2) (k : Nat) (a1 : Nat) :
    Grows s0 (runAcs k a1 a2) := by
  induction a1 generalizing a2 with
  | zero =>
    unfold runAcs
    with_reducible repeat' first
        | apply ih | assumption

  | succ _ ih =>
    unfold runAcs
    with_reducible repeat' first
        | apply ih | assumption | apply Grows.ite | apply grows_tileAc | split

theorem grows_hubEmit {s0 s : State} (g0 : Grows s0 s) (p : Nat) (hub : Nat) (port : Nat) (arr : Nat) (w : TWord) :
    Grows s0 (hubEmit s p hub port arr w) := by
  unfold hubEmit
  with_reducible repeat' first | assumption | apply grows_hubRoute

theorem grows_hubTake {s0 s : State} (g0 : Grows s0 s) (key : Nat) (ac : Nat) :
    Grows s0 (hubTake s key ac) := by
  unfold hubTake
  with_reducible repeat' first | assumption | (intro x) | fail_if_no_progress refine Grows.lit ?_

/-! ## Tiles -/

theorem grows_startCore {s0 s : State} (g0 : Grows s0 s) (x : Site) : Grows s0 (startCore s x) := by
  unfold startCore
  extract_lets s1 tag s2 sup s3 idle s4
  have h2 : Grows s0 s2 := Grows.ite (grows_slotFault (grows_traceNote g0 x) _ _) (grows_traceNote g0 x)
  have h3 : Grows s0 s3 := by
    unfold s3
    split
    · exact h2
    · exact grows_setDyn (grows_setTile h2 _ _) _ _
  exact grows_setTile (grows_setDyn h3 _ _) _ _

theorem grows_runEntry {s0 s : State} (g0 : Grows s0 s) (x : Site) :
    Grows s0 (runEntry s x) := by
  unfold runEntry
  with_reducible repeat' first
      | assumption | apply Grows.ite | apply grows_runAcs | apply grows_finishEntry | apply grows_startCore

theorem grows_tileRow {s0 s : State} (g0 : Grows s0 s) (die : Nat) (tile : Nat) (want : Site → Bool) :
    OGrows s0 (tileRow die tile want s) := by
  unfold tileRow
  with_reducible repeat' first
      | assumption | extract_lets | apply Grows.ite | apply OGrows.done | apply OGrows.ite | apply OGrows.fault
      | apply grows_runEntry | split

theorem grows_execSeqLoad {s0 s : State} (g0 : Grows s0 s) (die : Nat) (tile : Nat) :
    OGrows s0 (execSeqLoad die tile s) := by
  unfold execSeqLoad
  with_reducible repeat' first | assumption | apply grows_tileRow

theorem grows_execSfSigmoid {s0 s : State} (g0 : Grows s0 s) (die : Nat) (tile : Nat) :
    OGrows s0 (execSfSigmoid die tile s) := by
  unfold execSfSigmoid
  with_reducible repeat' first | assumption | apply grows_tileRow

theorem grows_execMinSumCheckNodeUpdate {s0 s : State} (g0 : Grows s0 s) (die : Nat) (tile : Nat) :
    OGrows s0 (execMinSumCheckNodeUpdate die tile s) := by
  unfold execMinSumCheckNodeUpdate
  with_reducible repeat' first | assumption | apply grows_tileRow

theorem grows_execRawReadout {s0 s : State} (g0 : Grows s0 s) (die : Nat) (tile : Nat) :
    OGrows s0 (execRawReadout die tile s) := by
  unfold execRawReadout
  with_reducible repeat' first | assumption | apply grows_tileRow

theorem grows_execCoreFiring {s0 s : State} (g0 : Grows s0 s) (die : Nat) (tile : Nat) :
    OGrows s0 (execCoreFiring die tile s) := by
  unfold execCoreFiring
  with_reducible repeat' first | assumption | apply grows_tileRow

theorem grows_execSfReciprocalSquareRoot {s0 s : State} (g0 : Grows s0 s) (die : Nat) (tile : Nat) :
    OGrows s0 (execSfReciprocalSquareRoot die tile s) := by
  unfold execSfReciprocalSquareRoot
  with_reducible repeat' first | assumption | apply grows_tileRow

theorem grows_execSfReciprocal {s0 s : State} (g0 : Grows s0 s) (die : Nat) (tile : Nat) :
    OGrows s0 (execSfReciprocal die tile s) := by
  unfold execSfReciprocal
  with_reducible repeat' first | assumption | apply grows_tileRow

theorem grows_execSeqRead {s0 s : State} (g0 : Grows s0 s) (die : Nat) (tile : Nat) :
    OGrows s0 (execSeqRead die tile s) := by
  unfold execSeqRead
  with_reducible repeat' first | assumption | apply grows_tileRow

theorem grows_execSeqFold {s0 s : State} (g0 : Grows s0 s) (die : Nat) (tile : Nat) :
    OGrows s0 (execSeqFold die tile s) := by
  unfold execSeqFold
  with_reducible repeat' first | assumption | apply grows_tileRow

theorem grows_execSeqWait {s0 s : State} (g0 : Grows s0 s) (die : Nat) (tile : Nat) :
    OGrows s0 (execSeqWait die tile s) := by
  unfold execSeqWait
  with_reducible repeat' first | assumption | apply grows_tileRow

theorem grows_execSeqFire {s0 s : State} (g0 : Grows s0 s) (die : Nat) (tile : Nat) :
    OGrows s0 (execSeqFire die tile s) := by
  unfold execSeqFire
  with_reducible repeat' first | assumption | apply grows_tileRow

theorem grows_execSeqFireIf {s0 s : State} (g0 : Grows s0 s) (die : Nat) (tile : Nat) :
    OGrows s0 (execSeqFireIf die tile s) := by
  unfold execSeqFireIf
  with_reducible repeat' first | assumption | apply grows_tileRow

theorem grows_execSeqSelect {s0 s : State} (g0 : Grows s0 s) (die : Nat) (tile : Nat) :
    OGrows s0 (execSeqSelect die tile s) := by
  unfold execSeqSelect
  with_reducible repeat' first | assumption | apply grows_tileRow

theorem grows_execSeqEnd {s0 s : State} (g0 : Grows s0 s) (die : Nat) (tile : Nat) :
    OGrows s0 (execSeqEnd die tile s) := by
  unfold execSeqEnd
  with_reducible repeat' first | assumption | apply grows_tileRow

theorem grows_execTagFiring {s0 s : State} (g0 : Grows s0 s) (die : Nat) (tile : Nat) :
    OGrows s0 (execTagFiring die tile s) := by
  unfold execTagFiring
  with_reducible repeat' first | assumption | apply grows_tileRow

theorem grows_execExactMerge {s0 s : State} (g0 : Grows s0 s) (die : Nat) (tile : Nat) :
    OGrows s0 (execExactMerge die tile s) := by
  unfold execExactMerge
  with_reducible repeat' first | assumption | apply grows_tileRow

theorem grows_execSfExponential {s0 s : State} (g0 : Grows s0 s) (die : Nat) (tile : Nat) :
    OGrows s0 (execSfExponential die tile s) := by
  unfold execSfExponential
  with_reducible repeat' first | assumption | apply grows_tileRow

theorem grows_execSfLogarithm {s0 s : State} (g0 : Grows s0 s) (die : Nat) (tile : Nat) :
    OGrows s0 (execSfLogarithm die tile s) := by
  unfold execSfLogarithm
  with_reducible repeat' first | assumption | apply grows_tileRow

theorem grows_execSfTanh {s0 s : State} (g0 : Grows s0 s) (die : Nat) (tile : Nat) :
    OGrows s0 (execSfTanh die tile s) := by
  unfold execSfTanh
  with_reducible repeat' first | assumption | apply grows_tileRow

theorem grows_execSoftmaxPass1 {s0 s : State} (g0 : Grows s0 s) (die : Nat) (tile : Nat) :
    OGrows s0 (execSoftmaxPass1 die tile s) := by
  unfold execSoftmaxPass1
  with_reducible repeat' first | assumption | apply grows_tileRow

theorem grows_execSoftmaxPass2 {s0 s : State} (g0 : Grows s0 s) (die : Nat) (tile : Nat) :
    OGrows s0 (execSoftmaxPass2 die tile s) := by
  unfold execSoftmaxPass2
  with_reducible repeat' first | assumption | apply grows_tileRow

theorem grows_execRadix4Butterfly {s0 s : State} (g0 : Grows s0 s) (die : Nat) (tile : Nat) :
    OGrows s0 (execRadix4Butterfly die tile s) := by
  unfold execRadix4Butterfly
  with_reducible repeat' first | assumption | apply grows_tileRow

theorem grows_execMinSumDemapping {s0 s : State} (g0 : Grows s0 s) (die : Nat) (tile : Nat) :
    OGrows s0 (execMinSumDemapping die tile s) := by
  unfold execMinSumDemapping
  with_reducible repeat' first | assumption | apply grows_tileRow

theorem grows_execMemoryTileRead {s0 s : State} (g0 : Grows s0 s) (die : Nat) (tile : Nat) :
    OGrows s0 (execMemoryTileRead die tile s) := by
  unfold execMemoryTileRead
  with_reducible repeat' first | assumption | apply grows_tileRow

theorem grows_execMemoryTileWrite {s0 s : State} (g0 : Grows s0 s) (die : Nat) (tile : Nat) :
    OGrows s0 (execMemoryTileWrite die tile s) := by
  unfold execMemoryTileWrite
  with_reducible repeat' first | assumption | apply grows_tileRow

/-! ## Operands -/

theorem grows_writeMapped {s0 s : State} (g0 : Grows s0 s) (v : View) (a : Nat) (data : Nat) :
    Grows s0 (writeMapped s v a data) := by
  unfold writeMapped
  with_reducible repeat' first | assumption | extract_lets | apply Grows.ite | apply grows_setReg | split

theorem grows_releaseVec {s0 s : State} (g0 : Grows s0 s) {t : State} (f : Nat) (vec : Nat) (g_t : Grows s0 t) :
    Grows s0 (releaseVec s t f vec) := by
  unfold releaseVec
  with_reducible repeat' first
      | assumption | extract_lets | apply Grows.ite | apply grows_sendVec | apply grows_clrReg

/-! ## TileCore -/

theorem grows_setCore {s0 s : State} (g0 : Grows s0 s) (x : Site) (f : CoreCtx → CoreCtx) :
    Grows s0 (setCore s x f) := by
  unfold setCore
  with_reducible repeat' first | assumption | apply grows_setTile

theorem grows_corePop {s0 s : State} (g0 : Grows s0 s) (x : Site) (w : Nat) :
    Grows s0 (corePop s x w) := by
  unfold corePop
  with_reducible repeat' first
      | assumption | extract_lets | apply grows_popQueue | apply grows_setCore | split
      | refine Grows.ofPair (by assumption) ?_

theorem grows_coreLoad {s0 s : State} (g0 : Grows s0 s) (x : Site) (c : CoreCtx) (w : Nat) :
    Grows s0 (coreLoad s x c w) := by
  unfold coreLoad
  with_reducible repeat' first
      | assumption | extract_lets | apply Grows.ite | apply grows_slotFault | apply grows_setCore | split

theorem grows_coreStore {s0 s : State} (g0 : Grows s0 s) (x : Site) (c : CoreCtx) (w : Nat) :
    Grows s0 (coreStore s x c w) := by
  unfold coreStore
  with_reducible repeat' first
      | assumption | extract_lets | apply Grows.ite | apply grows_slotFault | apply grows_setCore
      | apply grows_windowWrite

theorem grows_corePush {s0 s : State} (g0 : Grows s0 s) (x : Site) (c : CoreCtx) (w : Nat) :
    Grows s0 (corePush s x c w) := by
  unfold corePush
  with_reducible repeat' first | assumption | extract_lets | apply grows_setCore | apply grows_pushOut

theorem grows_coreLdw {s0 s : State} (g0 : Grows s0 s) (x : Site) (c : CoreCtx) (w : Nat) :
    Grows s0 (coreLdw s x c w) := by
  unfold coreLdw
  with_reducible repeat' first
      | assumption | extract_lets | apply Grows.ite | apply grows_slotFault | apply grows_setCore | split

theorem grows_coreStw {s0 s : State} (g0 : Grows s0 s) (x : Site) (c : CoreCtx) (w : Nat) :
    Grows s0 (coreStw s x c w) := by
  unfold coreStw
  with_reducible repeat' first
      | assumption | extract_lets | apply Grows.ite | apply grows_slotFault | apply grows_setCore
      | apply grows_windowWrite

theorem grows_coreEffect {s0 s : State} (g0 : Grows s0 s) (x : Site) (k : CoreClass) (c : CoreCtx) (w : Nat) :
    Grows s0 (coreEffect s x k c w) := by
  unfold coreEffect
  with_reducible repeat' first
      | assumption | apply grows_setCore | apply grows_coreLoad | apply grows_coreStore | apply grows_corePop
      | apply grows_corePush | apply grows_coreLdw | apply grows_coreStw | apply grows_slotFault | split

theorem grows_endFiring {s0 s : State} (g0 : Grows s0 s) (x : Site) :
    Grows s0 (endFiring s x) := by
  unfold endFiring
  with_reducible repeat' first
      | assumption | (intro x) | extract_lets | apply grows_runAcs | apply grows_budgetAct | apply grows_finishEntry
      | apply grows_setCore

theorem grows_spendAc {s0 s : State} (g0 : Grows s0 s) (x : Site) :
    Grows s0 (spendAc s x) := by
  unfold spendAc
  with_reducible repeat' first
      | assumption | (intro x) | extract_lets | apply Grows.ite | apply grows_slotFault | apply grows_setCore

theorem grows_coreAc {s0 s : State} (g0 : Grows s0 s) (x : Site) (act : State → State) (g_act : ∀ y0, Grows s0 y0 →
    Grows s0 (act y0)) :
    Grows s0 (coreAc s x act) := by
  unfold coreAc
  with_reducible repeat' first
      | assumption | (intro x) | extract_lets | apply Grows.ite | apply grows_acStep | apply grows_countSteps
      | apply grows_endFiring | apply grows_spendAc | apply g_act

theorem grows_coreIdle {s0 a3 : State} (g0 : Grows s0 a3) (k : Nat) (go : State → Site → Bool) (a2 : Nat) :
    Grows s0 (coreIdle k go a2 a3) := by
  induction a2 generalizing a3 with
  | zero =>
    unfold coreIdle
    with_reducible repeat' first
        | apply ih | assumption

  | succ _ ih =>
    unfold coreIdle
    with_reducible repeat' first
        | apply ih | assumption | (intro x) | apply Grows.ite | apply grows_coreAc | split

theorem grows_coreTail {s0 s : State} (g0 : Grows s0 s) (k : Nat) :
    Grows s0 (coreTail s k) := by
  unfold coreTail
  with_reducible repeat' first | assumption | (intro x) | apply grows_coreIdle

theorem grows_coreInstr {s0 s : State} (g0 : Grows s0 s) (x : Site) (k : CoreClass) :
    Grows s0 (coreInstr s x k) := by
  unfold coreInstr
  with_reducible repeat' first
      | assumption | (intro x) | extract_lets | apply grows_setCore | apply grows_coreEffect | apply grows_coreAc
      | apply grows_coreTail

theorem grows_coreRow {s0 s : State} (g0 : Grows s0 s) (die : Nat) (tile : Nat) (k : CoreClass) :
    OGrows s0 (coreRow die tile k s) := by
  unfold coreRow
  with_reducible repeat' first
      | assumption | extract_lets | apply Grows.ite | apply OGrows.ite | apply OGrows.done | exact OGrows.fault
      | apply grows_coreInstr | apply grows_coreTail | split

theorem grows_execSPop {s0 s : State} (g0 : Grows s0 s) (die : Nat) (tile : Nat) :
    OGrows s0 (execSPop die tile s) := by
  unfold execSPop
  with_reducible repeat' first | assumption | apply grows_coreRow

theorem grows_execCoreJump {s0 s : State} (g0 : Grows s0 s) (die : Nat) (tile : Nat) :
    OGrows s0 (execCoreJump die tile s) := by
  unfold execCoreJump
  with_reducible repeat' first | assumption | apply grows_coreRow

theorem grows_execSCtr {s0 s : State} (g0 : Grows s0 s) (die : Nat) (tile : Nat) :
    OGrows s0 (execSCtr die tile s) := by
  unfold execSCtr
  with_reducible repeat' first | assumption | apply grows_coreRow

theorem grows_execSGet {s0 s : State} (g0 : Grows s0 s) (die : Nat) (tile : Nat) :
    OGrows s0 (execSGet die tile s) := by
  unfold execSGet
  with_reducible repeat' first | assumption | apply grows_coreRow

theorem grows_execCoreLoad {s0 s : State} (g0 : Grows s0 s) (die : Nat) (tile : Nat) :
    OGrows s0 (execCoreLoad die tile s) := by
  unfold execCoreLoad
  with_reducible repeat' first | assumption | apply grows_coreRow

theorem grows_execSPush {s0 s : State} (g0 : Grows s0 s) (die : Nat) (tile : Nat) :
    OGrows s0 (execSPush die tile s) := by
  unfold execSPush
  with_reducible repeat' first | assumption | apply grows_coreRow

theorem grows_execSSettag {s0 s : State} (g0 : Grows s0 s) (die : Nat) (tile : Nat) :
    OGrows s0 (execSSettag die tile s) := by
  unfold execSSettag
  with_reducible repeat' first | assumption | apply grows_coreRow

theorem grows_execCoreAlu {s0 s : State} (g0 : Grows s0 s) (die : Nat) (tile : Nat) :
    OGrows s0 (execCoreAlu die tile s) := by
  unfold execCoreAlu
  with_reducible repeat' first | assumption | apply grows_coreRow

theorem grows_execCoreBudgetExpiry {s0 s : State} (g0 : Grows s0 s) (die : Nat) (tile : Nat) :
    OGrows s0 (execCoreBudgetExpiry die tile s) := by
  unfold execCoreBudgetExpiry
  with_reducible repeat' first
      | assumption | extract_lets | apply Grows.ite | apply OGrows.ite | apply OGrows.done | exact OGrows.fault
      | apply grows_coreIdle | apply grows_coreTail | split

theorem grows_execCoreMul {s0 s : State} (g0 : Grows s0 s) (die : Nat) (tile : Nat) :
    OGrows s0 (execCoreMul die tile s) := by
  unfold execCoreMul
  with_reducible repeat' first | assumption | apply grows_coreRow

theorem grows_execCoreBranch {s0 s : State} (g0 : Grows s0 s) (die : Nat) (tile : Nat) :
    OGrows s0 (execCoreBranch die tile s) := by
  unfold execCoreBranch
  with_reducible repeat' first | assumption | apply grows_coreRow

theorem grows_execCoreStore {s0 s : State} (g0 : Grows s0 s) (die : Nat) (tile : Nat) :
    OGrows s0 (execCoreStore die tile s) := by
  unfold execCoreStore
  with_reducible repeat' first | assumption | apply grows_coreRow

theorem grows_execRdcycle {s0 s : State} (g0 : Grows s0 s) (die : Nat) (tile : Nat) :
    OGrows s0 (execRdcycle die tile s) := by
  unfold execRdcycle
  with_reducible repeat' first | assumption | apply grows_coreRow

theorem grows_execCoreIllegalInstruction {s0 s : State} (g0 : Grows s0 s) (die : Nat) (tile : Nat) :
    OGrows s0 (execCoreIllegalInstruction die tile s) := by
  unfold execCoreIllegalInstruction
  with_reducible repeat' first | assumption | apply grows_coreRow

theorem grows_execSPut {s0 s : State} (g0 : Grows s0 s) (die : Nat) (tile : Nat) :
    OGrows s0 (execSPut die tile s) := by
  unfold execSPut
  with_reducible repeat' first | assumption | apply grows_coreRow

theorem grows_execSLdw {s0 s : State} (g0 : Grows s0 s) (die : Nat) (tile : Nat) :
    OGrows s0 (execSLdw die tile s) := by
  unfold execSLdw
  with_reducible repeat' first | assumption | apply grows_coreRow

theorem grows_execSStw {s0 s : State} (g0 : Grows s0 s) (die : Nat) (tile : Nat) :
    OGrows s0 (execSStw die tile s) := by
  unfold execSStw
  with_reducible repeat' first | assumption | apply grows_coreRow

theorem grows_execSTag {s0 s : State} (g0 : Grows s0 s) (die : Nat) (tile : Nat) :
    OGrows s0 (execSTag die tile s) := by
  unfold execSTag
  with_reducible repeat' first | assumption | apply grows_coreRow

theorem grows_execSEnd {s0 s : State} (g0 : Grows s0 s) (die : Nat) (tile : Nat) :
    OGrows s0 (execSEnd die tile s) := by
  unfold execSEnd
  with_reducible repeat' first | assumption | apply grows_coreRow

end Sys2Proof.Machine
end

