-- ==== Sys2Proof/Laws/GrowsTimetables.lean ====
section
/-!
SUPPORT. What every command leaves standing (Laws/Grows), said once of each operation over
timetables, the tick generator, plans, admission, sidings, dumps, jobs and overruns.
-/

namespace Sys2Proof.Machine

/-! ## Timetables -/

theorem grows_noteFlags {s0 s : State} (g0 : Grows s0 s) (f : Nat) :
    Grows s0 (noteFlags s f) := by
  unfold noteFlags
  with_reducible repeat' first | assumption | extract_lets | apply Grows.ite | apply grows_incReg | apply grows_orReg

theorem grows_deliverRec {s0 s : State} (g0 : Grows s0 s) (c : Nat) (r : CloseRec) :
    Grows s0 (deliverRec s c r) := by
  unfold deliverRec
  with_reducible repeat' first
      | assumption | extract_lets | apply Grows.ite | apply grows_noteFlags | apply grows_writeRec
      | fail_if_no_progress refine Grows.lit ?_

theorem grows_endTrace {s0 s : State} (g0 : Grows s0 s) (p : Nat) :
    Grows s0 (endTrace s p) := by
  unfold endTrace
  with_reducible repeat' first
      | assumption | extract_lets | apply grows_orReg | apply grows_clrReg | fail_if_no_progress refine Grows.lit ?_

theorem grows_tickClose {s0 s : State} (g0 : Grows s0 s) (c : Nat) (off : Nat) :
    Grows s0 (tickClose s c off) := by
  unfold tickClose
  with_reducible repeat' first
      | assumption | extract_lets | apply Grows.ite | apply grows_deliverRec | apply grows_endTrace
      | apply grows_raiseFault | apply grows_orReg | apply grows_incReg | fail_if_no_progress refine Grows.lit ?_

theorem grows_execTickClose {s0 s : State} (g0 : Grows s0 s) (ctx : Nat) (off : Nat) :
    OGrows s0 (execTickClose ctx off s) := by
  unfold execTickClose
  with_reducible repeat' first
      | assumption | extract_lets | apply Grows.ite | apply OGrows.done | apply grows_tickClose

theorem grows_becomeReady {s0 s : State} (g0 : Grows s0 s) (q : Nat) (r : ReadyReq) :
    Grows s0 (becomeReady s q r) := by
  unfold becomeReady
  with_reducible repeat' first | assumption | extract_lets | fail_if_no_progress refine Grows.lit ?_

theorem grows_frameReady {s0 s : State} (g0 : Grows s0 s) (i : Nat) (q : Nat) (off : Nat) :
    Grows s0 (frameReady s i q off) := by
  unfold frameReady
  with_reducible repeat' first
      | assumption | extract_lets | apply grows_becomeReady | split | fail_if_no_progress refine Grows.lit ?_

theorem grows_takeEntries {s0 s : State} (g0 : Grows s0 s) (who : Named) (q : Nat) (a3 : Nat) :
    Grows s0 (takeEntries s who q a3).1 := by
  induction a3 generalizing s with
  | zero =>
    unfold takeEntries
    with_reducible repeat' first | assumption
  | succ _ ih =>
    unfold takeEntries
    with_reducible repeat' first
        | apply ih | assumption | extract_lets | apply grows_hostRead | fail_if_no_progress refine Grows.lit ?_

theorem grows_ringReady {s0 s : State} (g0 : Grows s0 s) (c : Nat) (q : Nat) (off : Nat) :
    Grows s0 (ringReady s c q off) := by
  unfold ringReady
  with_reducible repeat' first
      | assumption | extract_lets | apply Grows.ite | apply grows_takeEntries | apply grows_countDead
      | apply grows_becomeReady

theorem grows_requestReady {s0 s : State} (g0 : Grows s0 s) (q : Nat) (off : Nat) :
    Grows s0 (requestReady s q off) := by
  unfold requestReady
  with_reducible repeat' first
      | assumption | extract_lets | apply grows_frameReady | apply grows_ringReady | split
      | fail_if_no_progress refine Grows.lit ?_

theorem grows_ringResult {s0 s : State} (g0 : Grows s0 s) (c : Nat) (f : Flight) (w : TWord) :
    Grows s0 (ringResult s c f w) := by
  unfold ringResult
  with_reducible repeat' first
      | assumption | extract_lets | apply Grows.ite | apply grows_incReg | apply grows_exitEntry | split
      | fail_if_no_progress refine Grows.lit ?_

theorem grows_placeEntry {s0 s : State} (g0 : Grows s0 s) (c : Nat) (off : Nat) (a3 : List TWord) (a4 : Nat) :
    Grows s0 (placeEntry s c off a3 a4) := by
  induction a3 generalizing s a4 with
  | nil =>
    unfold placeEntry
    with_reducible repeat' first | apply ih | assumption
  | cons _ _ ih =>
    unfold placeEntry
    with_reducible repeat' first | apply ih | assumption | extract_lets | apply grows_hubEmit

theorem grows_replayEntry {s0 s : State} (g0 : Grows s0 s) (c : Nat) (off : Nat) :
    Grows s0 (replayEntry s c off) := by
  unfold replayEntry
  with_reducible repeat' first
      | assumption | extract_lets | apply grows_placeEntry | fail_if_no_progress refine Grows.lit ?_

theorem grows_lineMoved {s0 s : State} (g0 : Grows s0 s) (c : Nat) (i : Nat) (write : Bool) (moved : Bool) :
    Grows s0 (lineMoved s c i write moved) := by
  unfold lineMoved
  with_reducible repeat' first | assumption | split | fail_if_no_progress refine Grows.lit ?_

theorem grows_placeLine {s0 s : State} (g0 : Grows s0 s) (c : Nat) (d : HbmDesc) (n : Nat) (kind : BitVec 4) (bytes :
    List Byte) :
    Grows s0 (placeLine s c d n kind bytes) := by
  unfold placeLine
  with_reducible repeat' first | assumption | (intro x) | apply Grows.foldl | apply grows_hubEmit

theorem grows_slotRead {s0 s : State} (g0 : Grows s0 s) (c : Nat) (i : Nat) (d : HbmDesc) (n : Nat) :
    Grows s0 (slotRead s c i d n) := by
  unfold slotRead
  with_reducible repeat' first
      | assumption | extract_lets | apply Grows.ite | apply grows_lineMoved | apply grows_readLine
      | apply grows_placeLine | apply grows_memFault | fail_if_no_progress refine Grows.lit ?_

theorem grows_execHbmSlotRead {s0 s : State} (g0 : Grows s0 s) (ctx : Nat) (desc : Nat) :
    OGrows s0 (execHbmSlotRead ctx desc s) := by
  unfold execHbmSlotRead
  with_reducible repeat' first
      | assumption | extract_lets | apply Grows.ite | apply OGrows.done | apply grows_slotRead | split

theorem grows_execRequestReady {s0 s : State} (g0 : Grows s0 s) (q : Nat) (off : Nat) :
    OGrows s0 (execRequestReady q off s) := by
  unfold execRequestReady
  with_reducible repeat' first
      | assumption | extract_lets | apply Grows.ite | apply OGrows.done | apply grows_requestReady

theorem grows_execTtbTraceArm {s0 s : State} (g0 : Grows s0 s) (v : View) (p : Nat) (data : BitVec 32) :
    OGrows s0 (execTtbTraceArm v p data s) := by
  unfold execTtbTraceArm
  with_reducible repeat' first | assumption | extract_lets | apply Grows.ite | apply OGrows.done | apply grows_setReg

theorem grows_slotWrite {s0 s : State} (g0 : Grows s0 s) (c : Nat) (i : Nat) (d : HbmDesc) (n : Nat) :
    Grows s0 (slotWrite s c i d n) := by
  unfold slotWrite
  with_reducible repeat' first
      | assumption | (intro x) | extract_lets | apply Grows.ite | apply Grows.foldl | apply grows_writeLine
      | apply grows_memFault | apply grows_hubTake | apply grows_lineMoved | fail_if_no_progress refine Grows.lit ?_

theorem grows_execDlbEnWrite {s0 s : State} (g0 : Grows s0 s) (v : View) (ctx : Nat) (data : BitVec 32) :
    OGrows s0 (execDlbEnWrite v ctx data s) := by
  unfold execDlbEnWrite
  with_reducible repeat' first
      | assumption | extract_lets | apply Grows.ite | apply OGrows.done | fail_if_no_progress refine Grows.lit ?_

theorem grows_execHbmSlotWrite {s0 s : State} (g0 : Grows s0 s) (ctx : Nat) (desc : Nat) :
    OGrows s0 (execHbmSlotWrite ctx desc s) := by
  unfold execHbmSlotWrite
  with_reducible repeat' first
      | assumption | extract_lets | apply Grows.ite | apply OGrows.done | apply grows_slotWrite | split

theorem grows_entryOffset {s0 s : State} (g0 : Grows s0 s) (c : Nat) (off : Nat) :
    Grows s0 (entryOffset s c off) := by
  unfold entryOffset
  with_reducible repeat' first
      | assumption | extract_lets | apply grows_placeEntry | split | fail_if_no_progress refine Grows.lit ?_

theorem grows_execEntryOffset {s0 s : State} (g0 : Grows s0 s) (ctx : Nat) (off : Nat) :
    OGrows s0 (execEntryOffset ctx off s) := by
  unfold execEntryOffset
  with_reducible repeat' first
      | assumption | extract_lets | apply Grows.ite | apply OGrows.done | apply grows_replayEntry
      | apply grows_entryOffset

theorem grows_exitResult {s0 s : State} (g0 : Grows s0 s) (c : Nat) (word : TWord) (off : Nat) :
    Grows s0 (exitResult s c word off) := by
  unfold exitResult
  with_reducible repeat' first
      | assumption | (intro x) | extract_lets | apply Grows.ite | apply grows_hubTake | apply grows_ringResult | split
      | fail_if_no_progress refine Grows.lit ?_

theorem grows_execExitResult {s0 s : State} (g0 : Grows s0 s) (ctx : Nat) (word : TWord) (off : Nat) :
    OGrows s0 (execExitResult ctx word off s) := by
  unfold execExitResult
  with_reducible repeat' first
      | assumption | extract_lets | apply Grows.ite | apply OGrows.done | apply grows_exitResult

theorem grows_saveSlot {s0 s : State} (g0 : Grows s0 s) (p : Nat) (k : Nat) (t : Tile) (ix : Nat) :
    Grows s0 (saveSlot s p k t ix) := by
  unfold saveSlot
  with_reducible repeat' first | assumption | (intro x) | split | fail_if_no_progress refine Grows.lit ?_

theorem grows_saveTile {s0 s : State} (g0 : Grows s0 s) (p : Nat) (k : Nat) (t : Tile) :
    Grows s0 (saveTile s p k t) := by
  unfold saveTile
  with_reducible repeat' first | assumption | (intro x) | apply Grows.ite | apply Grows.foldl | apply grows_saveSlot

theorem grows_saveSlots {s0 s : State} (g0 : Grows s0 s) (own : Nat → Option Nat) :
    Grows s0 (saveSlots s own) := by
  unfold saveSlots
  with_reducible repeat' first
      | assumption | (intro x) | extract_lets | apply Grows.ite | apply Grows.foldl | apply Grows.pfoldl
      | apply grows_saveTile | split | fail_if_no_progress refine Grows.lit ?_

/-! ## Tick -/

theorem grows_timingLost {s0 s : State} (g0 : Grows s0 s) :
    Grows s0 (timingLost s) := by
  unfold timingLost
  with_reducible repeat' first
      | assumption | extract_lets | apply Grows.ite | apply grows_orReg | apply grows_dropLevel

theorem grows_enterState {s0 s : State} (g0 : Grows s0 s) (st : TickState) :
    Grows s0 (enterState s st) := by
  unfold enterState
  with_reducible repeat' first
      | assumption | extract_lets | apply Grows.ite | apply grows_orReg | apply grows_timingLost
      | fail_if_no_progress refine Grows.lit ?_

theorem grows_changeState {s0 s : State} (g0 : Grows s0 s) (st : TickState) :
    Grows s0 (changeState s st) := by
  unfold changeState
  with_reducible repeat' first | assumption | fail_if_no_progress refine Grows.lit ?_

theorem grows_referenceFound {s0 s : State} (g0 : Grows s0 s) :
    Grows s0 (referenceFound s) := by
  unfold referenceFound
  with_reducible repeat' first | assumption | apply grows_changeState | split

theorem grows_enterStepping {s0 s : State} (g0 : Grows s0 s) :
    Grows s0 (enterStepping s) := by
  unfold enterStepping
  with_reducible repeat' first | assumption | extract_lets | fail_if_no_progress refine Grows.lit ?_

theorem grows_nonePending {s0 s : State} (g0 : Grows s0 s) : Grows s0 (nonePending s) := by
  unfold nonePending
  with_reducible repeat' first | assumption | fail_if_no_progress refine Grows.lit ?_

theorem grows_takeTickState {s0 s : State} (g0 : Grows s0 s) :
    Grows s0 (takeTickState s) := by
  unfold takeTickState
  with_reducible repeat' first
      | assumption | extract_lets | apply Grows.ite | apply grows_enterStepping | apply grows_enterState | apply grows_nonePending
      | split

theorem grows_servoTake {s0 s : State} (g0 : Grows s0 s) (te : ℤ) :
    Grows s0 (servoTake s te) := by
  unfold servoTake
  with_reducible repeat' first
      | assumption | extract_lets | apply Grows.ite | apply grows_referenceFound | apply grows_enterStepping | split
      | fail_if_no_progress refine Grows.lit ?_

theorem grows_referenceLost {s0 s : State} (g0 : Grows s0 s) :
    Grows s0 (referenceLost s) := by
  unfold referenceLost
  with_reducible repeat' first | assumption | extract_lets | apply Grows.ite | apply grows_changeState

theorem grows_esmcMessage {s0 s : State} (g0 : Grows s0 s) (port : Nat) (sub : Nat) (ssm : BitVec 4) :
    Grows s0 (esmcMessage s port sub ssm) := by
  unfold esmcMessage
  with_reducible repeat' first | assumption | extract_lets | apply Grows.ite | fail_if_no_progress refine Grows.lit ?_

theorem grows_tckPhase {s0 s : State} (g0 : Grows s0 s) (ph : Nat) :
    Grows s0 (tckPhase s ph) := by
  unfold tckPhase
  with_reducible repeat' first
      | assumption | extract_lets | apply Grows.ite | apply grows_enterStepping | apply grows_setReg
      | apply grows_orReg

theorem grows_execTckPhaseWrite {s0 s : State} (g0 : Grows s0 s) (v : View) (data : BitVec 32) :
    OGrows s0 (execTckPhaseWrite v data s) := by
  unfold execTckPhaseWrite
  with_reducible repeat' first
      | assumption | extract_lets | apply Grows.ite | apply OGrows.done | apply grows_tckPhase

theorem grows_execSigPoll {s0 s : State} (g0 : Grows s0 s) (gapUs : Nat) :
    OGrows s0 (execSigPoll gapUs s) := by
  unfold execSigPoll
  with_reducible repeat' first
      | assumption | extract_lets | apply OGrows.done | apply grows_setReg | apply grows_incReg | apply grows_emit
      | fail_if_no_progress refine Grows.lit ?_

theorem grows_execSigClkLoss {s0 s : State} (g0 : Grows s0 s) :
    OGrows s0 (execSigClkLoss s) := by
  unfold execSigClkLoss
  with_reducible repeat' first
      | assumption | extract_lets | apply OGrows.done | fail_if_no_progress refine Grows.lit ?_

theorem grows_execSigPollGapRead {s0 s : State} (g0 : Grows s0 s) (v : View) :
    OGrows s0 (execSigPollGapRead v s) := by
  unfold execSigPollGapRead
  with_reducible repeat' first
      | assumption | extract_lets | apply Grows.ite | apply OGrows.done | apply grows_emit | apply grows_setReg

theorem grows_forgetMasters {s0 s : State} (g0 : Grows s0 s) :
    Grows s0 (forgetMasters s) := by
  unfold forgetMasters
  with_reducible repeat' first
      | assumption | extract_lets | apply Grows.ite | apply grows_referenceLost
      | fail_if_no_progress refine Grows.lit ?_

theorem grows_holdCheck {s0 s : State} (g0 : Grows s0 s) :
    Grows s0 (holdCheck s) := by
  unfold holdCheck
  with_reducible repeat' first | assumption | apply Grows.ite | apply grows_changeState

theorem grows_moveSynce {s0 s : State} (g0 : Grows s0 s) :
    Grows s0 (moveSynce s) := by
  unfold moveSynce
  with_reducible repeat' first | assumption | fail_if_no_progress refine Grows.lit ?_

theorem grows_ctrlTaken {s0 s : State} (g0 : Grows s0 s) (new : Nat) :
    Grows s0 (ctrlTaken s new) := by
  unfold ctrlTaken
  with_reducible repeat' first
      | assumption | extract_lets | apply Grows.ite | apply grows_setReg | apply grows_forgetMasters
      | apply grows_holdCheck | apply grows_moveSynce

theorem grows_tckCtrl {s0 s : State} (g0 : Grows s0 s) (data : Nat) :
    Grows s0 (tckCtrl s data) := by
  unfold tckCtrl
  with_reducible repeat' first
      | assumption | extract_lets | apply Grows.ite | apply grows_orReg | apply grows_setReg
      | apply grows_enterStepping | apply grows_ctrlTaken

theorem grows_execTckCtrlWrite {s0 s : State} (g0 : Grows s0 s) (v : View) (data : BitVec 32) :
    OGrows s0 (execTckCtrlWrite v data s) := by
  unfold execTckCtrlWrite
  with_reducible repeat' first | assumption | extract_lets | apply Grows.ite | apply OGrows.done | apply grows_tckCtrl

theorem grows_ptpAnnounce {s0 s : State} (g0 : Grows s0 s) (port : Nat) (sub : Nat) (a : Announce) :
    Grows s0 (ptpAnnounce s port sub a) := by
  unfold ptpAnnounce
  with_reducible repeat' first
      | assumption | extract_lets | apply Grows.ite | apply grows_referenceFound
      | fail_if_no_progress refine Grows.lit ?_

theorem grows_execPtpAnnounce {s0 s : State} (g0 : Grows s0 s) (port : Nat) (sub : Nat) (a : Announce) :
    OGrows s0 (execPtpAnnounce port sub a s) := by
  unfold execPtpAnnounce
  with_reducible repeat' first | assumption | extract_lets | apply OGrows.done | apply grows_ptpAnnounce

theorem grows_servoUpdate {s0 s : State} (g0 : Grows s0 s) (err : ℤ) :
    Grows s0 (servoUpdate s err) := by
  unfold servoUpdate
  with_reducible repeat' first | assumption | apply grows_servoTake

theorem grows_ptpSync {s0 s : State} (g0 : Grows s0 s) (port : Nat) (sub : Nat) (offsetPs : ℤ) :
    Grows s0 (ptpSync s port sub offsetPs) := by
  unfold ptpSync
  with_reducible repeat' first | assumption | extract_lets | apply Grows.ite | apply grows_servoUpdate

theorem grows_execPtpSync {s0 s : State} (g0 : Grows s0 s) (port : Nat) (sub : Nat) (offsetPs : ℤ) :
    OGrows s0 (execPtpSync port sub offsetPs s) := by
  unfold execPtpSync
  with_reducible repeat' first | assumption | extract_lets | apply OGrows.done | apply grows_ptpSync

theorem grows_ptpDelayReq {s0 s : State} (g0 : Grows s0 s) :
    Grows s0 (ptpDelayReq s) := by
  unfold ptpDelayReq
  with_reducible repeat' first | assumption | extract_lets | apply Grows.ite | fail_if_no_progress refine Grows.lit ?_

theorem grows_execPtpDelayReq {s0 s : State} (g0 : Grows s0 s) (off : Nat) :
    OGrows s0 (execPtpDelayReq off s) := by
  unfold execPtpDelayReq
  with_reducible repeat' first
      | assumption | extract_lets | apply OGrows.done | apply grows_ptpDelayReq
      | fail_if_no_progress refine Grows.lit ?_

theorem grows_execEsmcMessage {s0 s : State} (g0 : Grows s0 s) (port : Nat) (sub : Nat) (ssm : BitVec 4) :
    OGrows s0 (execEsmcMessage port sub ssm s) := by
  unfold execEsmcMessage
  with_reducible repeat' first | assumption | extract_lets | apply OGrows.done | apply grows_esmcMessage

theorem grows_synceStatus {s0 s : State} (g0 : Grows s0 s) (present : Bool) :
    Grows s0 (synceStatus s present) := by
  unfold synceStatus
  with_reducible repeat' first | assumption | apply grows_holdCheck | fail_if_no_progress refine Grows.lit ?_

theorem grows_execSynceStatusChange {s0 s : State} (g0 : Grows s0 s) (present : Bool) :
    OGrows s0 (execSynceStatusChange present s) := by
  unfold execSynceStatusChange
  with_reducible repeat' first | assumption | extract_lets | apply OGrows.done | apply grows_synceStatus

theorem grows_execLockTimerExpiry {s0 s : State} (g0 : Grows s0 s) :
    OGrows s0 (execLockTimerExpiry s) := by
  unfold execLockTimerExpiry
  with_reducible repeat' first
      | assumption | extract_lets | apply Grows.ite | apply OGrows.done | apply grows_changeState

theorem grows_execLostTimerExpiry {s0 s : State} (g0 : Grows s0 s) :
    OGrows s0 (execLostTimerExpiry s) := by
  unfold execLostTimerExpiry
  with_reducible repeat' first
      | assumption | extract_lets | apply Grows.ite | apply OGrows.done | apply grows_changeState

theorem grows_execAnnounceReceiptTimeout {s0 s : State} (g0 : Grows s0 s) :
    OGrows s0 (execAnnounceReceiptTimeout s) := by
  unfold execAnnounceReceiptTimeout
  with_reducible repeat' first | assumption | apply OGrows.done | exact OGrows.fault | apply grows_forgetMasters

theorem grows_execServoUpdateTimeout {s0 s : State} (g0 : Grows s0 s) :
    OGrows s0 (execServoUpdateTimeout s) := by
  unfold execServoUpdateTimeout
  with_reducible repeat' first | assumption | extract_lets | apply OGrows.done | apply grows_referenceLost

theorem grows_execHoldoverExpiry {s0 s : State} (g0 : Grows s0 s) :
    OGrows s0 (execHoldoverExpiry s) := by
  unfold execHoldoverExpiry
  with_reducible repeat' first | assumption | apply OGrows.done | exact OGrows.fault | apply grows_holdCheck

theorem grows_execRefreshBeat {s0 s : State} (g0 : Grows s0 s) (pc : Nat) (off : Nat) :
    OGrows s0 (execRefreshBeat pc off s) := by
  unfold execRefreshBeat
  with_reducible repeat' first
      | assumption | extract_lets | apply Grows.ite | apply OGrows.done | apply grows_emit
      | fail_if_no_progress refine Grows.lit ?_

theorem grows_execSigClkReturn {s0 s : State} (g0 : Grows s0 s) :
    OGrows s0 (execSigClkReturn s) := by
  unfold execSigClkReturn
  with_reducible repeat' first
      | assumption | extract_lets | apply OGrows.done | fail_if_no_progress refine Grows.lit ?_

theorem grows_sourcesFollow {s0 s : State} (g0 : Grows s0 s) :
    Grows s0 (sourcesFollow s) := by
  unfold sourcesFollow
  with_reducible repeat' first
      | assumption | extract_lets | apply Grows.ite | apply grows_forgetMasters | apply grows_holdCheck
      | fail_if_no_progress refine Grows.lit ?_

/-! ## Plan -/

theorem grows_planSwapBody {s0 s : State} (g0 : Grows s0 s) (hh : CmdHdr) (i : Nat) :
    Grows s0 (planSwapBody hh s i).state := by
  unfold planSwapBody
  with_reducible repeat' first
      | assumption | extract_lets | apply Grows.rite | apply grows_refuse | apply grows_acceptAt
      | apply grows_addEffect

theorem grows_execPlanSwap {s0 s : State} (g0 : Grows s0 s) (hh : CmdHdr) :
    OGrows s0 (execPlanSwap hh s) := by
  unfold execPlanSwap
  with_reducible repeat' first
      | assumption | (intro x) | extract_lets | apply OGrows.done | apply grows_takeCommand | apply grows_planSwapBody

theorem grows_radioReserveBody {s0 s : State} (g0 : Grows s0 s) (hh : CmdHdr) (p : Nat) (slices : BitVec 16)
    (boundary : Nat) (qmask : BitVec 160) (i : Nat) :
    Grows s0 (radioReserveBody hh p slices boundary qmask s i).state := by
  unfold radioReserveBody
  with_reducible repeat' first
      | assumption | extract_lets | apply Grows.rite | apply grows_refuse | apply grows_refuseAt
      | apply grows_acceptAt | apply grows_addEffect

theorem grows_execRadioReserve {s0 s : State} (g0 : Grows s0 s) (hh : CmdHdr) (part_ : Nat) (slices : BitVec 16)
    (boundary : Nat) (qmask : BitVec 160) :
    OGrows s0 (execRadioReserve hh part_ slices boundary qmask s) := by
  unfold execRadioReserve
  with_reducible repeat' first
      | assumption | (intro x) | extract_lets | apply OGrows.done | apply grows_takeCommand
      | apply grows_radioReserveBody

/-! ## Admission -/

theorem grows_setSiding {s0 s : State} (g0 : Grows s0 s) (p : Nat) (quad : Nat) (st : SidingState) :
    Grows s0 (setSiding s p quad st) := by
  unfold setSiding
  with_reducible repeat' first | assumption | fail_if_no_progress refine Grows.lit ?_

theorem grows_admitTt {s0 s : State} (g0 : Grows s0 s) (x : Candidate) (run : Nat) :
    Grows s0 (admitTt s x run) := by
  unfold admitTt
  with_reducible repeat' first | assumption | fail_if_no_progress refine Grows.lit ?_

theorem grows_fillMain {s0 s : State} (g0 : Grows s0 s) (p : Nat) (quad : Nat) (mask : BitVec 64) :
    Grows s0 (fillMain s p quad mask) := by
  unfold fillMain
  with_reducible repeat' first | assumption | fail_if_no_progress refine Grows.lit ?_

theorem grows_stageItems {s0 s : State} (g0 : Grows s0 s) (p : Nat) (image : List Byte) (a3 : List (TileUse × Nat)) :
    Grows s0 (stageItems s p image a3) := by
  induction a3 generalizing s with
  | nil =>
    unfold stageItems
    with_reducible repeat' first | assumption
  | cons _ _ ih =>
    unfold stageItems
    with_reducible repeat' first | apply ih | assumption | extract_lets | fail_if_no_progress refine Grows.lit ?_

theorem grows_armQuads {s0 s : State} (g0 : Grows s0 s) (p : Nat) (qs : List Nat) :
    Grows s0 (armQuads s p qs) := by
  unfold armQuads
  with_reducible repeat' first | assumption | (intro x) | extract_lets | apply Grows.foldl | apply grows_setSiding

/-! ## ScanImage -/

theorem grows_clearQuad {s0 s : State} (g0 : Grows s0 s) (p : Nat) (quad : Nat) :
    Grows s0 (clearQuad s p quad) := by
  unfold clearQuad
  with_reducible repeat' first | assumption | fail_if_no_progress refine Grows.lit ?_

/-! ## SwapOps -/

theorem grows_endTimetable {s0 s : State} (g0 : Grows s0 s) (c : Nat) :
    Grows s0 (endTimetable s c) := by
  unfold endTimetable
  with_reducible repeat' first
      | assumption | extract_lets | apply Grows.ite | apply grows_writeRec | apply grows_orReg
      | fail_if_no_progress refine Grows.lit ?_

theorem grows_suspendTt {s0 s : State} (g0 : Grows s0 s) (c : Nat) (cut : Bool) :
    Grows s0 (suspendTt s c cut) := by
  unfold suspendTt
  with_reducible repeat' first
      | assumption | (intro x) | extract_lets | apply grows_orReg | apply grows_dropReplies | apply grows_writeRec
      | fail_if_no_progress refine Grows.lit ?_

theorem grows_releaseExits {s0 s : State} (g0 : Grows s0 s) (c : Nat) (ok : Nat → Bool) :
    Grows s0 (releaseExits s c ok) := by
  unfold releaseExits
  with_reducible repeat' first
      | assumption | (intro x) | extract_lets | apply Grows.foldl | apply grows_exitEntry
      | fail_if_no_progress refine Grows.lit ?_

theorem grows_releaseRecs {s0 s : State} (g0 : Grows s0 s) (c : Nat) (ok : Nat → Bool) :
    Grows s0 (releaseRecs s c ok) := by
  unfold releaseRecs
  with_reducible repeat' first
      | assumption | (intro x) | extract_lets | apply Grows.foldl | apply grows_writeRec
      | fail_if_no_progress refine Grows.lit ?_

theorem grows_exchangeSets {s0 s : State} (g0 : Grows s0 s) (p : Nat) (qmask : BitVec 160) (ac : Nat) :
    Grows s0 (exchangeSets s p qmask ac) := by
  unfold exchangeSets
  with_reducible repeat' first
      | assumption | (intro x) | extract_lets | apply Grows.ite | apply Grows.foldl | apply Grows.pfoldl
      | apply grows_strayIdle | apply grows_saveSlots | fail_if_no_progress refine Grows.lit ?_

theorem grows_startFirst {s0 s : State} (g0 : Grows s0 s) (c : Nat) :
    Grows s0 (startFirst s c) := by
  unfold startFirst
  with_reducible repeat' first
      | assumption | extract_lets | apply grows_orReg | fail_if_no_progress refine Grows.lit ?_

theorem grows_adopt {s0 s : State} (g0 : Grows s0 s) (e : Nat) :
    Grows s0 (adopt s e) := by
  unfold adopt
  with_reducible repeat' first
      | assumption | extract_lets | apply Grows.ite | apply grows_startFirst | apply grows_admitTt | split

theorem grows_takeSwap {s0 s : State} (g0 : Grows s0 s) (p : Nat) (g : SwapGroup) (ac : Nat) :
    Grows s0 (takeSwap s p g ac) := by
  unfold takeSwap
  with_reducible repeat' first
      | assumption | (intro x) | extract_lets | apply Grows.foldl | apply grows_endTimetable
      | apply grows_exchangeSets | apply grows_adopt | apply grows_startFirst | apply grows_orReg | apply grows_incReg
      | fail_if_no_progress refine Grows.lit ?_

/-! ## Siding -/

theorem grows_setLibCount {s0 s : State} (g0 : Grows s0 s) :
    Grows s0 (setLibCount s) := by
  unfold setLibCount
  with_reducible repeat' first | assumption | apply grows_setReg

theorem grows_renewResidence {s0 s : State} (g0 : Grows s0 s) :
    Grows s0 (renewResidence s) := by
  unfold renewResidence
  with_reducible repeat' first | assumption | fail_if_no_progress refine Grows.lit ?_

theorem grows_fillFailed {s0 s : State} (g0 : Grows s0 s) (f : Fill) :
    Grows s0 (fillFailed s f) := by
  unfold fillFailed
  with_reducible repeat' first
      | assumption | extract_lets | apply grows_orReg | apply grows_incReg | apply grows_setSiding

theorem grows_dropFill {s0 s : State} (g0 : Grows s0 s) (f : Fill) :
    Grows s0 (dropFill s f) := by
  unfold dropFill
  with_reducible repeat' first | assumption | fail_if_no_progress refine Grows.lit ?_

theorem grows_markScan {s0 s : State} (g0 : Grows s0 s) (quad : Nat) (on : Bool) :
    Grows s0 (markScan s quad on) := by
  unfold markScan
  with_reducible repeat' first | assumption | (intro x) | extract_lets | apply Grows.foldl | apply grows_setTile

theorem grows_dropScan {s0 s : State} (g0 : Grows s0 s) (x : Scan) :
    Grows s0 (dropScan s x) := by
  unfold dropScan
  with_reducible repeat' first
      | assumption | extract_lets | apply grows_markScan | fail_if_no_progress refine Grows.lit ?_

theorem grows_writeBundle {s0 s : State} (g0 : Grows s0 s) (x : Scan) (incomplete : Bool) (plain : List Byte) :
    Grows s0 (writeBundle s x incomplete plain) := by
  unfold writeBundle
  with_reducible repeat' first | assumption | extract_lets | apply grows_hostWrite

theorem grows_scanStatus {s0 s : State} (g0 : Grows s0 s) (p : Nat) (quad : Nat) (isIn : Bool) (result : Nat) :
    Grows s0 (scanStatus s p quad isIn result) := by
  unfold scanStatus
  with_reducible repeat' first | assumption | apply grows_setReg

theorem grows_noteScanFail {s0 s : State} (g0 : Grows s0 s) :
    Grows s0 (noteScanFail s) := by
  unfold noteScanFail
  with_reducible repeat' first | assumption | apply grows_orReg

theorem grows_sidingAfter {s0 s : State} (g0 : Grows s0 s) (x : Scan) :
    Grows s0 (sidingAfter s x) := by
  unfold sidingAfter
  with_reducible repeat' first | assumption | apply Grows.ite | apply grows_setSiding

theorem grows_abortScan {s0 s : State} (g0 : Grows s0 s) (x : Scan) :
    Grows s0 (abortScan s x) := by
  unfold abortScan
  with_reducible repeat' first
      | assumption | extract_lets | apply Grows.ite | apply grows_dropScan | apply grows_writeBundle
      | apply grows_scanStatus | apply grows_noteScanFail | apply grows_sidingAfter

theorem grows_libRemoveBody {s0 s : State} (g0 : Grows s0 s) (e : Nat) (a2 : Nat) :
    Grows s0 (libRemoveBody e s a2).state := by
  unfold libRemoveBody
  with_reducible repeat' first
      | assumption | extract_lets | apply Grows.rite | apply grows_refuse | apply grows_accept
      | apply grows_setLibCount | fail_if_no_progress refine Grows.lit ?_

theorem grows_armGroup {s0 s : State} (g0 : Grows s0 s) (p : Nat) (g : SwapGroup) :
    Grows s0 (armGroup s p g) := by
  unfold armGroup
  with_reducible repeat' first | assumption | fail_if_no_progress refine Grows.lit ?_

theorem grows_noteDeferred {s0 s : State} (g0 : Grows s0 s) :
    Grows s0 (noteDeferred s) := by
  unfold noteDeferred
  with_reducible repeat' first | assumption | apply grows_orReg | apply grows_incReg

theorem grows_acceptSwap {s0 s : State} (g0 : Grows s0 s) (hh : CmdHdr) (p : Nat) (strict : Nat) (late : Bool) (qmask
    : BitVec 160) (i : Nat) (b : Nat × Nat × Nat) :
    Grows s0 (acceptSwap hh p strict late qmask s i b).state := by
  unfold acceptSwap
  with_reducible repeat' first
      | assumption | (intro x) | extract_lets | apply Grows.ite | apply Grows.rite | apply grows_refuse
      | apply grows_acceptAt | apply grows_addEffect | apply grows_armGroup | apply grows_noteDeferred

theorem grows_sdgSwapBody {s0 s : State} (g0 : Grows s0 s) (hh : CmdHdr) (p : Nat) (strict : Nat) (slice : Nat)
    (boundary : Nat) (qmask : BitVec 160) (i : Nat) :
    Grows s0 (sdgSwapBody hh p strict slice boundary qmask s i).state := by
  unfold sdgSwapBody
  with_reducible repeat' first
      | assumption | extract_lets | apply Grows.ite | apply Grows.rite | apply grows_refuse | apply grows_refuseAt
      | apply grows_acceptSwap | apply grows_boundary | split

theorem grows_execSdgSwap {s0 s : State} (g0 : Grows s0 s) (hh : CmdHdr) (part_ : Nat) (strict : Nat)
    (slice : Nat) (boundary : Nat) (qmask : BitVec 160) :
    OGrows s0 (execSdgSwap hh part_ strict slice boundary qmask s) := by
  unfold execSdgSwap
  with_reducible repeat' first
      | assumption | (intro x) | extract_lets | apply OGrows.done | apply grows_takeCommand | apply grows_sdgSwapBody

theorem grows_fillStart {s0 s : State} (g0 : Grows s0 s) (f : Fill) (off : Nat) :
    Grows s0 (fillStart s f off) := by
  unfold fillStart
  with_reducible repeat' first
      | assumption | extract_lets | apply grows_setSiding | fail_if_no_progress refine Grows.lit ?_

theorem grows_execFillStart {s0 s : State} (g0 : Grows s0 s) (part : Nat) (quad : Nat) (off : Nat) :
    OGrows s0 (execFillStart part quad off s) := by
  unfold execFillStart
  with_reducible repeat' first
      | assumption | apply Grows.ite | apply OGrows.ite | apply OGrows.done | exact OGrows.fault
      | apply grows_fillFailed | apply grows_dropFill | apply grows_fillStart | split
      | fail_if_no_progress refine Grows.lit ?_

theorem grows_libtileReleaseBody {s0 s : State} (g0 : Grows s0 s) (quad : Nat) (tiles : BitVec 16) (a3 : Nat) :
    Grows s0 (libtileReleaseBody quad tiles s a3).state := by
  unfold libtileReleaseBody
  with_reducible repeat' first
      | assumption | extract_lets | apply grows_accept | apply grows_setLibCount | apply grows_renewResidence
      | fail_if_no_progress refine Grows.lit ?_

theorem grows_shuntStopBody {s0 s : State} (g0 : Grows s0 s) (hh : CmdHdr) (p : Nat) (i : Nat) :
    Grows s0 (shuntStopBody hh p s i).state := by
  unfold shuntStopBody
  with_reducible repeat' first
      | assumption | extract_lets | apply Grows.rite | apply grows_acceptAt | apply grows_addEffect
      | apply grows_refuse

theorem grows_execShuntStop {s0 s : State} (g0 : Grows s0 s) (hh : CmdHdr) (part_ : Nat) :
    OGrows s0 (execShuntStop hh part_ s) := by
  unfold execShuntStop
  with_reducible repeat' first
      | assumption | (intro x) | extract_lets | apply OGrows.done | apply grows_takeCommand
      | apply grows_shuntStopBody

theorem grows_readHome {s0 s : State} (g0 : Grows s0 s) (who : Named) (a2 : List (Nat × Nat)) :
    Grows s0 (readHome s who a2).1 := by
  induction a2 generalizing s with
  | nil =>
    unfold readHome
    with_reducible repeat' first | assumption
  | cons _ _ ih =>
    unfold readHome
    with_reducible repeat' first | apply ih | assumption | extract_lets | apply grows_readLine

theorem grows_fillSource {s0 s : State} (g0 : Grows s0 s) (f : Fill) :
    Grows s0 (fillSource s f).1 := by
  unfold fillSource
  with_reducible repeat' first | assumption | extract_lets | apply Grows.pite | apply grows_readHome | split

theorem grows_fillBytes {s0 s : State} (g0 : Grows s0 s) (p : Nat) (mask : BitVec 64) (partMask : BitVec 64)
    (bytes : List Byte) (a5 : List Nat) :
    Grows s0 (fillBytes s p mask partMask bytes a5) := by
  induction a5 generalizing s bytes with
  | nil =>
    unfold fillBytes
    with_reducible repeat' first | assumption
  | cons _ _ ih =>
    unfold fillBytes
    with_reducible repeat' first | apply ih | assumption | extract_lets | apply Grows.ite | apply grows_setTile

theorem grows_sidingReady {s0 s : State} (g0 : Grows s0 s) (p : Nat) (quad : Nat) :
    Grows s0 (sidingReady s p quad) := by
  unfold sidingReady
  with_reducible repeat' first | assumption | extract_lets | apply grows_orReg | apply grows_setSiding

theorem grows_fillComplete {s0 s : State} (g0 : Grows s0 s) (f : Fill) :
    Grows s0 (fillComplete s f) := by
  unfold fillComplete
  with_reducible repeat' first
      | assumption | extract_lets | apply Grows.ite | apply grows_fillSource | apply grows_dropFill
      | apply grows_fillMain | apply grows_fillBytes | apply grows_sidingReady | apply grows_fillFailed
      | fail_if_no_progress refine Grows.lit ?_

theorem grows_execFillComplete {s0 s : State} (g0 : Grows s0 s) (part_ : Nat) (quad : Nat) :
    OGrows s0 (execFillComplete part_ quad s) := by
  unfold execFillComplete
  with_reducible repeat' first | assumption | extract_lets | apply OGrows.done | apply grows_fillComplete | split

theorem grows_restoreQuad {s0 s : State} (g0 : Grows s0 s) (p : Nat) (quad : Nat) (hole : Nat) (plain : List Byte) :
    Grows s0 (restoreQuad s p quad hole plain) := by
  unfold restoreQuad
  with_reducible repeat' first
      | assumption | (intro x) | apply Grows.ite | apply Grows.foldl | apply Grows.pfoldl | apply grows_setTile

theorem grows_scanDone {s0 s : State} (g0 : Grows s0 s) (x : Scan) :
    Grows s0 (scanDone s x) := by
  unfold scanDone
  with_reducible repeat' first
      | assumption | extract_lets | apply Grows.ite | apply grows_orReg | apply grows_clearQuad | apply grows_dropScan
      | apply grows_writeBundle | apply grows_scanStatus | apply grows_restoreQuad | apply grows_sidingAfter

theorem grows_execScanComplete {s0 s : State} (g0 : Grows s0 s) (part_ : Nat) (quad : Nat) :
    OGrows s0 (execScanComplete part_ quad s) := by
  unfold execScanComplete
  with_reducible repeat' first | assumption | extract_lets | apply OGrows.done | apply grows_scanDone | split

theorem grows_writeHome {s0 s : State} (g0 : Grows s0 s) (a1 : List (Nat × Nat)) (a2 : List Byte) :
    Grows s0 (writeHome s a1 a2) := by
  induction a1 generalizing s a2 with
  | nil =>
    unfold writeHome
    with_reducible repeat' first | assumption
  | cons _ _ ih =>
    unfold writeHome
    with_reducible repeat' first | apply ih | assumption | extract_lets | apply grows_writeLine

theorem grows_layParts {s0 s : State} (g0 : Grows s0 s) (e : Nat) (p : Nat) (parts : List (Nat × BitVec 64 × List
    Byte)) :
    Grows s0 (layParts s e p parts) := by
  unfold layParts
  with_reducible repeat' first | assumption | (intro x) | apply Grows.foldl | fail_if_no_progress refine Grows.lit ?_

theorem grows_takeResidence {s0 s : State} (g0 : Grows s0 s) (e : Nat) :
    Grows s0 (takeResidence s e) := by
  unfold takeResidence
  with_reducible repeat' first
      | assumption | (intro x) | extract_lets | apply Grows.ite | apply grows_layParts
      | fail_if_no_progress refine Grows.lit ?_

theorem grows_libDone {s0 s : State} (g0 : Grows s0 s) (e : Nat) (x : LibEntry) :
    Grows s0 (libDone s e x) := by
  unfold libDone
  with_reducible repeat' first
      | assumption | (intro x) | extract_lets | apply grows_writeStatus | apply grows_setLibCount
      | apply grows_writeHome | apply grows_takeResidence | fail_if_no_progress refine Grows.lit ?_

theorem grows_execLibInstallDone {s0 s : State} (g0 : Grows s0 s) (entry : Nat) :
    OGrows s0 (execLibInstallDone entry s) := by
  unfold execLibInstallDone
  with_reducible repeat' first | assumption | extract_lets | apply Grows.ite | apply OGrows.done | apply grows_libDone

theorem grows_sdgFillBody {s0 s : State} (g0 : Grows s0 s) (hh : CmdHdr) (p : Nat) (source : Nat) (quad : Nat)
    (entry : Nat) (mask : BitVec 64) (i : Nat) :
    Grows s0 (sdgFillBody hh p source quad entry mask s i).state := by
  unfold sdgFillBody
  with_reducible repeat' first
      | assumption | extract_lets | apply Grows.rite | apply grows_refuse | apply grows_refuseAt
      | apply grows_acceptAt | apply grows_addEffect | fail_if_no_progress refine Grows.lit ?_

theorem grows_execSdgFill {s0 s : State} (g0 : Grows s0 s) (hh : CmdHdr) (part_ : Nat) (source : Nat) (quad : Nat)
    (entry : Nat) (mask : BitVec 64) :
    OGrows s0 (execSdgFill hh part_ source quad entry mask s) := by
  unfold execSdgFill
  with_reducible repeat' first
      | assumption | (intro x) | extract_lets | apply OGrows.done | apply grows_takeCommand | apply grows_sdgFillBody

theorem grows_shuntStartBody {s0 s : State} (g0 : Grows s0 s) (hh : CmdHdr) (p : Nat) (mask : BitVec 16)
    (qmask : BitVec 160) (i : Nat) :
    Grows s0 (shuntStartBody hh p mask qmask s i).state := by
  unfold shuntStartBody
  with_reducible repeat' first
      | assumption | extract_lets | apply Grows.rite | apply grows_refuse | apply grows_refuseAt
      | apply grows_acceptAt | apply grows_addEffect

theorem grows_execShuntStart {s0 s : State} (g0 : Grows s0 s) (hh : CmdHdr) (part_ : Nat) (mask : BitVec 16)
    (qmask : BitVec 160) :
    OGrows s0 (execShuntStart hh part_ mask qmask s) := by
  unfold execShuntStart
  with_reducible repeat' first
      | assumption | (intro x) | extract_lets | apply OGrows.done | apply grows_takeCommand
      | apply grows_shuntStartBody

theorem grows_libInstallBody {s0 s : State} (g0 : Grows s0 s) (hh : CmdHdr) (p : Nat) (imageAddr : Nat)
    (reportAddr : Nat) (il : Nat) (rl : Nat) (i : Nat) :
    Grows s0 (libInstallBody hh p imageAddr reportAddr il rl s i).state := by
  unfold libInstallBody
  with_reducible repeat' first
      | assumption | extract_lets | apply Grows.rite | apply grows_hostRead | apply grows_refuse
      | apply grows_finishLater | split | fail_if_no_progress refine Grows.lit ?_

theorem grows_execLibInstall {s0 s : State} (g0 : Grows s0 s) (hh : CmdHdr) (part_ : Nat) (image : Nat)
    (report : Nat) (imageLen : Nat) (reportLen : Nat) :
    OGrows s0 (execLibInstall hh part_ image report imageLen reportLen s) := by
  unfold execLibInstall
  with_reducible repeat' first
      | assumption | (intro x) | extract_lets | apply OGrows.done | apply grows_takeCommand
      | apply grows_libInstallBody

theorem grows_execLibRemove {s0 s : State} (g0 : Grows s0 s) (hh : CmdHdr) (entry : Nat) :
    OGrows s0 (execLibRemove hh entry s) := by
  unfold execLibRemove
  with_reducible repeat' first
      | assumption | (intro x) | extract_lets | apply OGrows.done | apply grows_takeCommand
      | apply grows_libRemoveBody

theorem grows_libtileAssignBody {s0 s : State} (g0 : Grows s0 s) (p : Nat) (quad : Nat) (tiles : BitVec 16)
    (a4 : Nat) :
    Grows s0 (libtileAssignBody p quad tiles s a4).state := by
  unfold libtileAssignBody
  with_reducible repeat' first
      | assumption | extract_lets | apply Grows.rite | apply grows_refuse | apply grows_accept
      | apply grows_setLibCount | apply grows_renewResidence | fail_if_no_progress refine Grows.lit ?_

theorem grows_execLibtileAssign {s0 s : State} (g0 : Grows s0 s) (hh : CmdHdr) (part_ : Nat) (quad : Nat)
    (tiles : BitVec 16) :
    OGrows s0 (execLibtileAssign hh part_ quad tiles s) := by
  unfold execLibtileAssign
  with_reducible repeat' first
      | assumption | (intro x) | extract_lets | apply OGrows.done | apply grows_takeCommand
      | apply grows_libtileAssignBody

theorem grows_execLibtileRelease {s0 s : State} (g0 : Grows s0 s) (hh : CmdHdr) (quad : Nat) (tiles : BitVec 16) :
    OGrows s0 (execLibtileRelease hh quad tiles s) := by
  unfold execLibtileRelease
  with_reducible repeat' first
      | assumption | (intro x) | extract_lets | apply OGrows.done | apply grows_takeCommand
      | apply grows_libtileReleaseBody

theorem grows_startScanOut {s0 s : State} (g0 : Grows s0 s) (p : Nat) (quad : Nat) (kind : Nat) (dest : Nat) :
    Grows s0 (startScanOut s p quad kind dest) := by
  unfold startScanOut
  with_reducible repeat' first
      | assumption | (intro x) | extract_lets | apply Grows.ite | apply grows_setSiding | apply grows_scanStatus
      | fail_if_no_progress refine Grows.lit ?_

theorem grows_scanOutBody {s0 s : State} (g0 : Grows s0 s) (hh : CmdHdr) (p : Nat) (quad : Nat) (dest : Nat)
    (i : Nat) :
    Grows s0 (scanOutBody hh p quad dest s i).state := by
  unfold scanOutBody
  with_reducible repeat' first
      | assumption | extract_lets | apply Grows.rite | apply grows_refuse | apply grows_refuseAt
      | apply grows_acceptAt | apply grows_addEffect | apply grows_markScan | apply grows_startScanOut

theorem grows_scanReply {s0 : State} (r : Reply) (g_r : Grows s0 r.state) :
    Grows s0 (scanReply r).state := by
  unfold scanReply
  with_reducible repeat' first
      | assumption | apply Grows.ite | apply Grows.rite | apply grows_noteScanFail | split
      | fail_if_no_progress refine Grows.lit ?_

theorem grows_takeScan {s0 s : State} (g0 : Grows s0 s) (hh : CmdHdr) (row : OpRow) (params : Bool) (address : Bool)
    (body : State → Nat → Reply) (g_body : ∀ y0 y1, Grows s0 y0 → Grows s0 (body y0 y1).state) :
    Grows s0 (takeScan s hh row params address body) := by
  unfold takeScan
  with_reducible repeat' first
      | assumption | (intro x) | apply grows_judge | apply grows_takeWith | apply grows_scanReply | apply g_body

theorem grows_execScanOut {s0 s : State} (g0 : Grows s0 s) (hh : CmdHdr) (part : Nat) (quad : Nat) (dest : Nat) :
    OGrows s0 (execScanOut hh part quad dest s) := by
  unfold execScanOut
  with_reducible repeat' first
      | assumption | (intro x) | apply OGrows.done | exact OGrows.fault | apply grows_scanOutBody
      | apply grows_takeScan

theorem grows_scanDumpBody {s0 s : State} (g0 : Grows s0 s) (hh : CmdHdr) (p : Nat) (quad : Nat) (dest : Nat)
    (i : Nat) :
    Grows s0 (scanDumpBody hh p quad dest s i).state := by
  unfold scanDumpBody
  with_reducible repeat' first
      | assumption | extract_lets | apply Grows.rite | apply grows_acceptAt | apply grows_addEffect
      | apply grows_markScan | apply grows_startScanOut | apply grows_refuse

theorem grows_execScanDump {s0 s : State} (g0 : Grows s0 s) (hh : CmdHdr) (part : Nat) (quad : Nat) (dest : Nat) :
    OGrows s0 (execScanDump hh part quad dest s) := by
  unfold execScanDump
  with_reducible repeat' first
      | assumption | (intro x) | apply OGrows.done | exact OGrows.fault | apply grows_takeScan
      | apply grows_scanDumpBody

theorem grows_refuseScanIn {s0 s : State} (g0 : Grows s0 s) (p : Nat) (quad : Nat) (result : Nat) :
    Grows s0 (refuseScanIn s p quad result) := by
  unfold refuseScanIn
  with_reducible repeat' first
      | assumption | extract_lets | apply grows_orReg | apply grows_scanStatus | apply grows_setSiding
      | apply grows_clearQuad

theorem grows_scanInBody {s0 s : State} (g0 : Grows s0 s) (hh : CmdHdr) (p : Nat) (quad : Nat) (src : Nat)
    (len : Nat) (i : Nat) :
    Grows s0 (scanInBody hh p quad src len s i).state := by
  unfold scanInBody
  with_reducible repeat' first
      | assumption | extract_lets | apply Grows.rite | apply grows_refuse | apply grows_refuseAt
      | apply grows_hostRead | apply grows_refuseScanIn | apply grows_scanStatus | apply grows_setSiding
      | apply grows_markScan | apply grows_acceptAt | apply grows_addEffect | split
      | fail_if_no_progress refine Grows.lit ?_

theorem grows_execScanIn {s0 s : State} (g0 : Grows s0 s) (hh : CmdHdr) (part : Nat) (quad : Nat) (src : Nat) (len :
    Nat) :
    OGrows s0 (execScanIn hh part quad src len s) := by
  unfold execScanIn
  with_reducible repeat' first
      | assumption | (intro x) | apply OGrows.done | exact OGrows.fault | apply grows_takeScan | apply grows_scanInBody

/-! ## Dumps -/

theorem grows_gatherBundle {s0 s : State} (g0 : Grows s0 s) (g : Gathering) (p : Nat) (quad : Nat) (kind : Nat)
    (incomplete : Bool) (plain : List Byte) :
    Grows s0 (gatherBundle s g p quad kind incomplete plain).1 := by
  unfold gatherBundle
  with_reducible repeat' first
      | assumption | extract_lets | apply Grows.ite | apply grows_hostWrite | fail_if_no_progress refine Grows.lit ?_

theorem grows_gatherState {s0 s : State} (g0 : Grows s0 s) (g : Gathering) (p : Nat) (cs : List Nat)
    (withClear : Bool) :
    Grows s0 (gatherState s g p cs withClear).1 := by
  unfold gatherState
  with_reducible repeat' first | assumption | extract_lets | apply Grows.pite | apply grows_gatherBundle

theorem grows_storeDump {s0 s : State} (g0 : Grows s0 s) (g : Gathering) (cs : List Nat) :
    Grows s0 (storeDump s g cs) := by
  unfold storeDump
  with_reducible repeat' first
      | assumption | extract_lets | apply grows_notice | fail_if_no_progress refine Grows.lit ?_

theorem grows_gatherQuads {s0 s : State} (g0 : Grows s0 s) (g : Gathering) (p : Nat) (a3 : List Nat) :
    Grows s0 (gatherQuads s g p a3).1 := by
  induction a3 generalizing s g with
  | nil =>
    unfold gatherQuads
    with_reducible repeat' first | assumption
  | cons _ _ ih =>
    unfold gatherQuads
    with_reducible repeat' first | apply ih | assumption | extract_lets | apply Grows.pite | apply grows_gatherBundle

theorem grows_clearCtxTiles {s0 s : State} (g0 : Grows s0 s) (c : Nat) :
    Grows s0 (clearCtxTiles s c) := by
  unfold clearCtxTiles
  with_reducible repeat' first | assumption | fail_if_no_progress refine Grows.lit ?_

theorem grows_markDumpable {s0 s : State} (g0 : Grows s0 s) (c : Nat) :
    Grows s0 (markDumpable s c) := by
  unfold markDumpable
  with_reducible repeat' first | assumption | (intro x) | fail_if_no_progress refine Grows.lit ?_

/-! ## Jobs -/

theorem grows_setJob {s0 s : State} (g0 : Grows s0 s) (c : Nat) (f : Job → Job) :
    Grows s0 (setJob s c f) := by
  unfold setJob
  with_reducible repeat' first | assumption | fail_if_no_progress refine Grows.lit ?_

theorem grows_scheduleJob {s0 s : State} (g0 : Grows s0 s) (c : Nat) (tick : Nat) (ns : Nat) :
    Grows s0 (scheduleJob s c tick ns) := by
  unfold scheduleJob
  with_reducible repeat' first
      | assumption | extract_lets | apply grows_setJob | fail_if_no_progress refine Grows.lit ?_

theorem grows_sendGo {s0 s : State} (g0 : Grows s0 s) (c : Nat) :
    Grows s0 (sendGo s c) := by
  unfold sendGo
  with_reducible repeat' first
      | assumption | extract_lets | apply Grows.ite | apply grows_scheduleJob | apply grows_sendAlarms

theorem grows_sendReady {s0 s : State} (g0 : Grows s0 s) (c : Nat) :
    Grows s0 (sendReady s c) := by
  unfold sendReady
  with_reducible repeat' first
      | assumption | extract_lets | apply Grows.ite | apply grows_setJob | apply grows_sendAlarms
      | fail_if_no_progress refine Grows.lit ?_

theorem grows_noteLate {s0 s : State} (g0 : Grows s0 s) (c : Nat) (late : Bool) :
    Grows s0 (noteLate s c late) := by
  unfold noteLate
  with_reducible repeat' first
      | assumption | (intro x) | apply Grows.ite | apply grows_orReg | apply grows_setJob

theorem grows_firstBrake {s0 s : State} (g0 : Grows s0 s) (c : Nat) (port : Nat) (senderId : Nat) (pass : Nat) (cause
    : Nat) (originator : Nat) :
    Grows s0 (firstBrake s c port senderId pass cause originator) := by
  unfold firstBrake
  with_reducible repeat' first
      | assumption | extract_lets | apply grows_brakeHere | apply grows_sendAlarms | apply grows_raiseFault
      | apply grows_noteLate

theorem grows_brakeReceived {s0 s : State} (g0 : Grows s0 s) (port : Nat) (job : BitVec 64) (pass : Nat) (cause : Nat)
    (member : Nat) (off : Nat) :
    Grows s0 (brakeReceived s port job pass cause member off) := by
  unfold brakeReceived
  with_reducible repeat' first
      | assumption | (intro x) | extract_lets | apply Grows.ite | apply grows_orReg | apply grows_setJob
      | apply grows_firstBrake | apply grows_noteLate | split | fail_if_no_progress refine Grows.lit ?_

theorem grows_execBrakeReceived {s0 s : State} (g0 : Grows s0 s) (port : Nat) (job : BitVec 64) (pass : Nat)
    (cause : Nat) (member : Nat) (off : Nat) :
    OGrows s0 (execBrakeReceived port job pass cause member off s) := by
  unfold execBrakeReceived
  with_reducible repeat' first | assumption | extract_lets | apply OGrows.done | apply grows_brakeReceived

theorem grows_execBarrierTimeout {s0 s : State} (g0 : Grows s0 s) (ctx : Nat) :
    OGrows s0 (execBarrierTimeout ctx s) := by
  unfold execBarrierTimeout
  with_reducible repeat' first
      | assumption | extract_lets | apply Grows.ite | apply OGrows.done | apply grows_raiseBrake

theorem grows_readyReceived {s0 s : State} (g0 : Grows s0 s) (job : BitVec 64) (r : ReadyCell) :
    Grows s0 (readyReceived s job r) := by
  unfold readyReceived
  with_reducible repeat' first
      | assumption | extract_lets | apply Grows.ite | apply grows_setJob | apply grows_raiseBrake | split
      | fail_if_no_progress refine Grows.lit ?_

theorem grows_execReadyReceived {s0 s : State} (g0 : Grows s0 s) (job : BitVec 64) (member : Nat) (chips : Nat)
    (period : Nat) (phase : BitVec 32) (run : Nat) :
    OGrows s0 (execReadyReceived job member chips period phase run s) := by
  unfold execReadyReceived
  with_reducible repeat' first | assumption | extract_lets | apply OGrows.done | apply grows_readyReceived

theorem grows_goReceived {s0 s : State} (g0 : Grows s0 s) (job : BitVec 64) (ts : Nat) (off : Nat) :
    Grows s0 (goReceived s job ts off) := by
  unfold goReceived
  with_reducible repeat' first
      | assumption | extract_lets | apply Grows.ite | apply grows_raiseBrake | apply grows_scheduleJob | split
      | fail_if_no_progress refine Grows.lit ?_

theorem grows_execGoReceived {s0 s : State} (g0 : Grows s0 s) (job : BitVec 64) (ts : Nat) (off : Nat) :
    OGrows s0 (execGoReceived job ts off s) := by
  unfold execGoReceived
  with_reducible repeat' first | assumption | extract_lets | apply OGrows.done | apply grows_goReceived

/-! ## TtCommands -/

theorem grows_ttWithdrawBody {s0 s : State} (g0 : Grows s0 s) (hh : CmdHdr) (c : Nat) (i : Nat) :
    Grows s0 (ttWithdrawBody hh c s i).state := by
  unfold ttWithdrawBody
  with_reducible repeat' first
      | assumption | extract_lets | apply Grows.rite | apply grows_refuse | apply grows_raiseBrake
      | apply grows_acceptAt | apply grows_addEffect | fail_if_no_progress refine Grows.lit ?_

theorem grows_quotaForceBody {s0 s : State} (g0 : Grows s0 s) (hh : CmdHdr) (f : Nat) (q : Nat) (i : Nat) :
    Grows s0 (quotaForceBody hh f q s i).state := by
  unfold quotaForceBody
  with_reducible repeat' first
      | assumption | extract_lets | apply Grows.rite | apply grows_refuse | apply grows_notice | apply grows_acceptAt
      | apply grows_addEffect | fail_if_no_progress refine Grows.lit ?_

theorem grows_execQuotaForce {s0 s : State} (g0 : Grows s0 s) (hh : CmdHdr) (func : Nat) (qTick : Nat) :
    OGrows s0 (execQuotaForce hh func qTick s) := by
  unfold execQuotaForce
  with_reducible repeat' first
      | assumption | (intro x) | extract_lets | apply OGrows.done | apply grows_takeCommand
      | apply grows_quotaForceBody

theorem grows_fillMains {s0 s : State} (g0 : Grows s0 s) (p : Nat) (qs : List Nat) :
    Grows s0 (fillMains s p qs) := by
  unfold fillMains
  with_reducible repeat' first | assumption | (intro x) | extract_lets | apply Grows.foldl | apply grows_fillMain

theorem grows_stageGroup {s0 s : State} (g0 : Grows s0 s) (p : Nat) (b : Nat × Nat) (old : Option SwapGroup)
    (qs : List Nat) (c : Nat) :
    Grows s0 (stageGroup s p b old qs c) := by
  unfold stageGroup
  with_reducible repeat' first | assumption | split | fail_if_no_progress refine Grows.lit ?_

theorem grows_stageTimetable {s0 s : State} (g0 : Grows s0 s) (x : Candidate) (run : Nat) (b : Nat × Nat) :
    Grows s0 (stageTimetable s x run b) := by
  unfold stageTimetable
  with_reducible repeat' first
      | assumption | (intro x) | extract_lets | apply grows_orReg | apply grows_admitTt | apply grows_stageItems
      | apply grows_armQuads | apply grows_sendReady | apply grows_fillMains | apply grows_stageGroup
      | fail_if_no_progress refine Grows.lit ?_

theorem grows_badDigest {s0 s : State} (g0 : Grows s0 s) (x : Candidate) (b : Nat × Nat × Nat) :
    Grows s0 (badDigest s x b).state := by
  unfold badDigest
  with_reducible repeat' first
      | assumption | (intro x) | extract_lets | apply Grows.ite | apply Grows.rite | apply Grows.foldl
      | apply grows_withhold | apply grows_refuse | apply grows_stageItems | apply grows_fillFailed
      | apply grows_fillMains | fail_if_no_progress refine Grows.lit ?_

theorem grows_admitCandidate {s0 s : State} (g0 : Grows s0 s) (hh : CmdHdr) (i : Nat) (x : Candidate) (run : Nat) (b :
    Nat × Nat × Nat) :
    Grows s0 (admitCandidate hh s i x run b).state := by
  unfold admitCandidate
  with_reducible repeat' first
      | assumption | extract_lets | apply Grows.ite | apply Grows.rite | apply grows_refuse | apply grows_accept
      | apply grows_acceptAt | apply grows_addEffect | apply grows_stageTimetable | apply grows_badDigest | split
      | fail_if_no_progress refine Grows.lit ?_

theorem grows_ttAdmitBody {s0 s : State} (g0 : Grows s0 s) (hh : CmdHdr) (c : Nat) (group : Nat) (run : Nat)
    (image : Nat) (report : Nat) (imageLen : Nat) (reportLen : Nat) (i : Nat) :
    Grows s0 (ttAdmitBody hh c group run image report imageLen reportLen s i).state := by
  unfold ttAdmitBody
  with_reducible repeat' first
      | assumption | extract_lets | apply grows_hostRead | apply grows_refuse | apply grows_admitCandidate | split

theorem grows_execTtAdmit {s0 s : State} (g0 : Grows s0 s) (hh : CmdHdr) (ctx : Nat) (group : Nat) (run : Nat)
    (image : Nat) (report : Nat) (imageLen : Nat) (reportLen : Nat) :
    OGrows s0 (execTtAdmit hh ctx group run image report imageLen reportLen s) := by
  unfold execTtAdmit
  with_reducible repeat' first
      | assumption | (intro x) | extract_lets | apply OGrows.done | apply grows_takeCommand | apply grows_ttAdmitBody

theorem grows_execTtWithdraw {s0 s : State} (g0 : Grows s0 s) (hh : CmdHdr) (ctx : Nat) :
    OGrows s0 (execTtWithdraw hh ctx s) := by
  unfold execTtWithdraw
  with_reducible repeat' first
      | assumption | (intro x) | extract_lets | apply OGrows.done | apply grows_takeCommand
      | apply grows_ttWithdrawBody

theorem grows_ttResumeBody {s0 s : State} (g0 : Grows s0 s) (hh : CmdHdr) (c : Nat) (i : Nat) :
    Grows s0 (ttResumeBody hh c s i).state := by
  unfold ttResumeBody
  with_reducible repeat' first
      | assumption | extract_lets | apply Grows.rite | apply grows_refuse | apply grows_refuseAt
      | apply grows_acceptAt | apply grows_addEffect

theorem grows_execTtResume {s0 s : State} (g0 : Grows s0 s) (hh : CmdHdr) (ctx : Nat) :
    OGrows s0 (execTtResume hh ctx s) := by
  unfold execTtResume
  with_reducible repeat' first
      | assumption | (intro x) | extract_lets | apply OGrows.done | apply grows_takeCommand | apply grows_ttResumeBody

/-! ## Overrun -/

theorem grows_quarantineStop {s0 s : State} (g0 : Grows s0 s) (p : Nat) (q : Quarantine) :
    Grows s0 (quarantineStop s p q) := by
  unfold quarantineStop
  with_reducible repeat' first
      | assumption | (intro x) | extract_lets | apply Grows.foldl | apply grows_suspendTt
      | fail_if_no_progress refine Grows.lit ?_

theorem grows_withholdOverrun {s0 s : State} (g0 : Grows s0 s) (tick : Nat) (c : Nat) :
    Grows s0 (withholdOverrun s tick c) := by
  unfold withholdOverrun
  with_reducible repeat' first | assumption | apply grows_withhold

theorem grows_stopOverrun {s0 s : State} (g0 : Grows s0 s) (c : Nat) :
    Grows s0 (stopOverrun s c) := by
  unfold stopOverrun
  with_reducible repeat' first
      | assumption | (intro x) | extract_lets | apply Grows.ite | apply grows_dropReplies | apply grows_markDumpable
      | fail_if_no_progress refine Grows.lit ?_

theorem grows_overrun {s0 s : State} (g0 : Grows s0 s) (c : Nat) :
    Grows s0 (overrun s c) := by
  unfold overrun
  with_reducible repeat' first
      | assumption | extract_lets | apply Grows.ite | apply grows_orReg | apply grows_incReg | apply grows_raiseFault
      | apply grows_deliverRec | apply grows_stopOverrun

theorem grows_overrunCheck {s0 s : State} (g0 : Grows s0 s) :
    Grows s0 (overrunCheck s) := by
  unfold overrunCheck
  with_reducible repeat' first
      | assumption | (intro x) | extract_lets | apply Grows.foldl | apply grows_withholdOverrun | apply grows_overrun

theorem grows_quarantineStops {s0 s : State} (g0 : Grows s0 s) :
    Grows s0 (quarantineStops s) := by
  unfold quarantineStops
  with_reducible repeat' first
      | assumption | (intro x) | extract_lets | apply Grows.foldl | apply grows_quarantineStop

theorem grows_carryOver {s0 s : State} (g0 : Grows s0 s) :
    Grows s0 (carryOver s) := by
  unfold carryOver
  with_reducible repeat' first | assumption | (intro x) | fail_if_no_progress refine Grows.lit ?_

theorem grows_shuntStops {s0 s : State} (g0 : Grows s0 s) (p : Nat) :
    Grows s0 (shuntStops s p) := by
  unfold shuntStops
  with_reducible repeat' first | assumption | extract_lets | fail_if_no_progress refine Grows.lit ?_

theorem grows_endShunts {s0 s : State} (g0 : Grows s0 s) :
    Grows s0 (endShunts s) := by
  unfold endShunts
  with_reducible repeat' first
      | assumption | (intro x) | apply Grows.foldl | apply Grows.pfoldl | apply grows_shuntStops

theorem grows_writePlan {s0 s : State} (g0 : Grows s0 s) (starts : List Nat) :
    Grows s0 (writePlan s starts) := by
  unfold writePlan
  with_reducible repeat' first | assumption | extract_lets | fail_if_no_progress refine Grows.lit ?_

theorem grows_dropLost {s0 s : State} (g0 : Grows s0 s) :
    Grows s0 (dropLost s) := by
  unfold dropLost
  with_reducible repeat' first
      | assumption | (intro x) | extract_lets | apply Grows.foldl | apply grows_abortScan
      | fail_if_no_progress refine Grows.lit ?_

theorem grows_withholdUnfit {s0 s : State} (g0 : Grows s0 s) (p : Nat) :
    Grows s0 (withholdUnfit s p) := by
  unfold withholdUnfit
  with_reducible repeat' first | assumption | apply grows_withhold

theorem grows_takePlan {s0 s : State} (g0 : Grows s0 s) :
    Grows s0 (takePlan s) := by
  unfold takePlan
  with_reducible repeat' first
      | assumption | (intro x) | extract_lets | apply Grows.ite | apply Grows.foldl | apply grows_orReg
      | apply grows_endShunts | apply grows_writePlan | apply grows_dropLost | apply grows_withholdUnfit
      | fail_if_no_progress refine Grows.lit ?_

theorem grows_deferGroup {s0 s : State} (g0 : Grows s0 s) (p : Nat) (g : SwapGroup) :
    Grows s0 (deferGroup s p g) := by
  unfold deferGroup
  with_reducible repeat' first
      | assumption | (intro x) | extract_lets | apply Grows.ite | apply grows_noteDeferred
      | fail_if_no_progress refine Grows.lit ?_

theorem grows_swapAt {s0 s : State} (g0 : Grows s0 s) (p : Nat) (g : SwapGroup) :
    Grows s0 (swapAt s p g) := by
  unfold swapAt
  with_reducible repeat' first
      | assumption | extract_lets | apply Grows.ite | apply grows_withhold | apply grows_takeSwap
      | apply grows_deferGroup

theorem grows_takeSwaps {s0 s : State} (g0 : Grows s0 s) (slice : Nat) :
    Grows s0 (takeSwaps s slice) := by
  unfold takeSwaps
  with_reducible repeat' first | assumption | (intro x) | extract_lets | apply Grows.foldl | apply grows_swapAt

theorem grows_abortScansIn {s0 s : State} (g0 : Grows s0 s) (qs : List Nat) :
    Grows s0 (abortScansIn s qs) := by
  unfold abortScansIn
  with_reducible repeat' first | assumption | (intro x) | extract_lets | apply Grows.foldl | apply grows_abortScan

theorem grows_beginChangeover {s0 s : State} (g0 : Grows s0 s) (qs : List Nat) :
    Grows s0 (beginChangeover s qs) := by
  unfold beginChangeover
  with_reducible repeat' first
      | assumption | extract_lets | apply Grows.ite | apply grows_abortScansIn
      | fail_if_no_progress refine Grows.lit ?_

end Sys2Proof.Machine
end

