-- ==== Sys2Proof/Laws/GrowsHost.lean ====
section
/-!
SUPPORT. What every command leaves standing (Laws/Grows), said once of each operation over
HBM pages, resets, queue commands and tenancy.
-/

namespace Sys2Proof.Machine

/-! ## Memory -/

theorem grows_showScrub {s0 s : State} (g0 : Grows s0 s) :
    Grows s0 (showScrub s) := by
  unfold showScrub
  with_reducible repeat' first | assumption | extract_lets | apply grows_setReg | split

theorem grows_scrubCe {s0 s : State} (g0 : Grows s0 s) (pc : Nat) (line : Nat) :
    Grows s0 (scrubCe s pc line) := by
  unfold scrubCe
  with_reducible repeat' first
      | assumption | (intro x) | apply Grows.ite | apply grows_incReg | fail_if_no_progress refine Grows.lit ?_

theorem grows_scrubData {s0 s : State} (g0 : Grows s0 s) (pc : Nat) (line : Nat) :
    Grows s0 (scrubData s pc line) := by
  unfold scrubData
  with_reducible repeat' first
      | assumption | extract_lets | apply Grows.ite | apply grows_memFault | apply grows_poison | apply grows_countUe
      | apply grows_scrubCe | split

theorem grows_scrubMeta {s0 s : State} (g0 : Grows s0 s) (pc : Nat) (n : Nat) :
    Grows s0 (scrubMeta s pc n) := by
  unfold scrubMeta
  with_reducible repeat' first
      | assumption | (intro x) | extract_lets | apply Grows.ite | apply Grows.foldl | apply grows_scrubData
      | apply grows_scrubCe | fail_if_no_progress refine Grows.lit ?_

theorem grows_scrubLine {s0 s : State} (g0 : Grows s0 s) (pc : Nat) (line : Nat) :
    Grows s0 (scrubLine s pc line) := by
  unfold scrubLine
  with_reducible repeat' first | assumption | apply Grows.ite | apply grows_scrubData | apply grows_scrubMeta

theorem grows_scrubStep {s0 s : State} (g0 : Grows s0 s) (x : Scrub) :
    Grows s0 (scrubStep s x) := by
  unfold scrubStep
  with_reducible repeat' first
      | assumption | extract_lets | apply grows_showScrub | apply grows_scrubLine
      | fail_if_no_progress refine Grows.lit ?_

theorem grows_scrubTurn {s0 s : State} (g0 : Grows s0 s) (pc : Nat) :
    Grows s0 (scrubTurn s pc) := by
  unfold scrubTurn
  with_reducible repeat' first | assumption | extract_lets | apply Grows.ite | apply grows_scrubStep | split

theorem grows_beginScrub {s0 s : State} (g0 : Grows s0 s) (i : Nat) (mask : BitVec 256) (spread : Nat) (auto : Bool) :
    Grows s0 (beginScrub s i mask spread auto) := by
  unfold beginScrub
  with_reducible repeat' first
      | assumption | extract_lets | apply grows_showScrub | apply grows_startAct
      | fail_if_no_progress refine Grows.lit ?_

theorem grows_scrubPassBody {s0 s : State} (g0 : Grows s0 s) (hh : CmdHdr) (spread : Nat) (mask : BitVec 256)
    (a4 : Nat) :
    Grows s0 (scrubPassBody hh spread mask s a4).state := by
  unfold scrubPassBody
  with_reducible repeat' first
      | assumption | (intro x) | extract_lets | apply grows_withActivity | apply grows_startedNow
      | apply grows_beginScrub

theorem grows_stalledResume {s0 s : State} (g0 : Grows s0 s) (pc : Nat) :
    Grows s0 (stalledResume s pc) := by
  unfold stalledResume
  with_reducible repeat' first
      | assumption | extract_lets | apply Grows.ite | apply grows_hostWrite | split
      | fail_if_no_progress refine Grows.lit ?_

theorem grows_pageAssignBody {s0 s : State} (g0 : Grows s0 s) (hh : CmdHdr) (pc : Nat) (kind : Nat) (page : Nat)
    (owner : Nat) (frame : Nat) (i : Nat) :
    Grows s0 (pageAssignBody hh pc kind page owner frame s i).state := by
  unfold pageAssignBody
  with_reducible repeat' first
      | assumption | extract_lets | apply Grows.rite | apply grows_refuse | apply grows_refuseAt
      | apply grows_finishLater | apply grows_accept | fail_if_no_progress refine Grows.lit ?_

theorem grows_scrubDueStart {s0 s : State} (g0 : Grows s0 s) :
    Grows s0 (scrubDueStart s) := by
  unfold scrubDueStart
  with_reducible repeat' first
      | assumption | extract_lets | apply Grows.ite | apply grows_beginScrub | fail_if_no_progress refine Grows.lit ?_

theorem grows_pcAssignBody {s0 s : State} (g0 : Grows s0 s) (pc : Nat) (owner : Nat) (sealed : Nat) (a4 : Nat) :
    Grows s0 (pcAssignBody pc owner sealed s a4).state := by
  unfold pcAssignBody
  with_reducible repeat' first
      | assumption | extract_lets | apply Grows.rite | apply grows_refuse | apply grows_accept | split
      | fail_if_no_progress refine Grows.lit ?_

theorem grows_execPcAssign {s0 s : State} (g0 : Grows s0 s) (hh : CmdHdr) (pc : Nat) (owner : Nat) (sealed : Nat) :
    OGrows s0 (execPcAssign hh pc owner sealed s) := by
  unfold execPcAssign
  with_reducible repeat' first
      | assumption | (intro x) | extract_lets | apply OGrows.done | apply grows_takeCommand | apply grows_pcAssignBody

theorem grows_keyMoved {s0 s : State} (g0 : Grows s0 s) (dom : Nat) :
    Grows s0 (keyMoved s dom) := by
  unfold keyMoved
  with_reducible repeat' first
      | assumption | extract_lets | apply Grows.ite | apply grows_orReg | fail_if_no_progress refine Grows.lit ?_

theorem grows_freedPc {s0 s : State} (g0 : Grows s0 s) (pc : Nat) :
    Grows s0 (freedPc s pc) := by
  unfold freedPc
  with_reducible repeat' first | assumption | extract_lets | apply Grows.ite | fail_if_no_progress refine Grows.lit ?_

theorem grows_dropRekeyAct {s0 s : State} (g0 : Grows s0 s) (pc : Nat) (page : Nat) :
    Grows s0 (dropRekeyAct s pc page) := by
  unfold dropRekeyAct
  with_reducible repeat' first | assumption | extract_lets | apply Grows.ite | apply grows_endActOf

theorem grows_releasePage {s0 s : State} (g0 : Grows s0 s) (pc : Nat) (page : Nat) :
    Grows s0 (releasePage s pc page) := by
  unfold releasePage
  with_reducible repeat' first
      | assumption | extract_lets | apply grows_keyMoved | apply grows_dropRekeyAct
      | fail_if_no_progress refine Grows.lit ?_

theorem grows_freePages {s0 s : State} (g0 : Grows s0 s) (pc : Nat) :
    Grows s0 (freePages s pc) := by
  unfold freePages
  with_reducible repeat' first | assumption | (intro x) | extract_lets | apply Grows.foldl | apply grows_releasePage

theorem grows_pcFreeBody {s0 s : State} (g0 : Grows s0 s) (hh : CmdHdr) (pc : Nat) (a3 : Nat) :
    Grows s0 (pcFreeBody hh pc s a3).state := by
  unfold pcFreeBody
  with_reducible repeat' first
      | assumption | extract_lets | apply Grows.rite | apply grows_refuse | apply grows_startedNow
      | apply grows_freedPc | apply grows_freePages | fail_if_no_progress refine Grows.lit ?_

theorem grows_replaceKey {s0 s : State} (g0 : Grows s0 s) (dom : Nat) :
    Grows s0 (replaceKey s dom) := by
  unfold replaceKey
  with_reducible repeat' first | assumption | extract_lets | split | fail_if_no_progress refine Grows.lit ?_

theorem grows_grantDomain {s0 s : State} (g0 : Grows s0 s) (hub : Nat) (dom : Nat) :
    Grows s0 (grantDomain s hub dom) := by
  unfold grantDomain
  with_reducible repeat' first
      | assumption | extract_lets | apply Grows.ite | apply grows_replaceKey | fail_if_no_progress refine Grows.lit ?_

theorem grows_execEpochGrant {s0 s : State} (g0 : Grows s0 s) (hub : Nat) (dom : Nat) :
    OGrows s0 (execEpochGrant hub dom s) := by
  unfold execEpochGrant
  with_reducible repeat' first
      | assumption | extract_lets | apply Grows.ite | apply OGrows.done | apply grows_grantBlank
      | apply grows_grantDomain

theorem grows_execScrubPass {s0 s : State} (g0 : Grows s0 s) (hh : CmdHdr) (spread : Nat) (pcmask : BitVec 256) :
    OGrows s0 (execScrubPass hh spread pcmask s) := by
  unfold execScrubPass
  with_reducible repeat' first
      | assumption | (intro x) | extract_lets | apply OGrows.done | apply grows_takeCommand
      | apply grows_scrubPassBody

theorem grows_pageReleaseBody {s0 s : State} (g0 : Grows s0 s) (hh : CmdHdr) (pc : Nat) (page : Nat) (a4 : Nat) :
    Grows s0 (pageReleaseBody hh pc page s a4).state := by
  unfold pageReleaseBody
  with_reducible repeat' first
      | assumption | extract_lets | apply Grows.rite | apply grows_startedNow | apply grows_releasePage
      | apply grows_refuse

theorem grows_execPageRelease {s0 s : State} (g0 : Grows s0 s) (hh : CmdHdr) (pc : Nat) (page : Nat) :
    OGrows s0 (execPageRelease hh pc page s) := by
  unfold execPageRelease
  with_reducible repeat' first
      | assumption | (intro x) | extract_lets | apply OGrows.done | apply grows_takeCommand
      | apply grows_pageReleaseBody

theorem grows_scrubDone {s0 s : State} (g0 : Grows s0 s) (x : Scrub) :
    Grows s0 (scrubDone s x) := by
  unfold scrubDone
  with_reducible repeat' first
      | assumption | (intro x) | extract_lets | apply Grows.foldl | apply grows_scrubLine | apply grows_endAct
      | apply grows_setReg | apply grows_scrubDueStart | apply grows_orReg | fail_if_no_progress refine Grows.lit ?_

theorem grows_execScrubDone {s0 s : State} (g0 : Grows s0 s) :
    OGrows s0 (execScrubDone s) := by
  unfold execScrubDone
  with_reducible repeat' first | assumption | extract_lets | apply OGrows.done | apply grows_scrubDone | split

theorem grows_execStalledWriteResume {s0 s : State} (g0 : Grows s0 s) (pc : Nat) :
    OGrows s0 (execStalledWriteResume pc s) := by
  unfold execStalledWriteResume
  with_reducible repeat' first | assumption | extract_lets | apply OGrows.done | apply grows_stalledResume

theorem grows_reclear {s0 s : State} (g0 : Grows s0 s) (pc : Nat) (page : Nat) :
    Grows s0 (reclear s pc page) := by
  unfold reclear
  with_reducible repeat' first | assumption | extract_lets | apply Grows.ite | apply grows_releasePage

theorem grows_drawEpoch {s0 s t : State} {hub dom keep e : Nat} (h : Grows s0 s)
    (g : drawEpoch s hub dom keep = some (e, t)) : Grows s0 t := by
  unfold drawEpoch at g
  extract_lets b at g
  by_cases c : keep < blockLeft b
  · rw [if_pos c] at g
    cases g
    exact Grows.lit h
  · rw [if_neg c] at g
    cases g

theorem grows_clearStart {s0 s t : State} {pc page : Nat} (h : Grows s0 s)
    (g : clearStart s pc page = some t) : Grows s0 t := by
  unfold clearStart at g
  extract_lets pg at g
  by_cases c : pg.clearStarted = true
  · rw [if_pos c] at g
    cases g
    exact h
  · rw [if_neg c] at g
    by_cases d : (pcOf s pc).sealed = true
    · rw [if_pos d] at g
      cases e : drawEpoch s (pc / 32) (sealDom pg) 512 with
      | none => rw [e] at g; cases g
      | some r =>
        rw [e] at g
        cases g
        exact Grows.lit (grows_drawEpoch (e := r.1) (t := r.2) h e)
    · rw [if_neg d] at g
      cases g
      exact Grows.lit h

theorem grows_clearLines {s0 s : State} (g0 : Grows s0 s) (pc page lo hi : Nat) :
    Grows s0 (clearLines s pc page lo hi) :=
  g0.trans ⟨rfl, fun h => wf_filter h, List.suffix_refl _, rfl, forall2_le_refl _⟩

theorem grows_clearStep {s0 s : State} (g0 : Grows s0 s) (pc page : Nat) (pg : Page) :
    Grows s0 (clearStep s pc page pg) := by
  unfold clearStep
  split
  · exact g0
  · rename_i h
    exact Grows.lit (grows_clearLines (grows_clearStart g0 h) _ _ _ _)

theorem grows_execPageAssign {s0 s : State} (g0 : Grows s0 s) (hh : CmdHdr) (pc : Nat) (kind : Nat) (page : Nat)
    (owner : Nat) (frame : Nat) :
    OGrows s0 (execPageAssign hh pc kind page owner frame s) := by
  unfold execPageAssign
  with_reducible repeat' first
      | assumption | (intro x) | extract_lets | apply OGrows.done | apply grows_takeCommand
      | apply grows_pageAssignBody

theorem grows_setRekeyPtr {s0 s : State} (g0 : Grows s0 s) (pc : Nat) (page : Nat) (n : Nat) :
    Grows s0 (setRekeyPtr s pc page n) := by
  unfold setRekeyPtr
  with_reducible repeat' first | assumption | fail_if_no_progress refine Grows.lit ?_

theorem grows_rekeyLine {s0 s : State} (g0 : Grows s0 s) (pc : Nat) (line : Nat) :
    Grows s0 (rekeyLine s pc line) := by
  unfold rekeyLine
  with_reducible repeat' first
      | assumption | extract_lets | apply Grows.ite | apply grows_countUe | apply grows_memFault | apply grows_poison
      | split | fail_if_no_progress refine Grows.lit ?_

theorem grows_copyLine {s0 s : State} (g0 : Grows s0 s) (pc : Nat) (line : Nat) :
    Grows s0 (copyLine s pc line) := by
  unfold copyLine
  with_reducible repeat' first
      | assumption | extract_lets | apply Grows.ite | apply grows_memFault | apply grows_poison | apply grows_countUe

theorem grows_copyStep {s0 s : State} (g0 : Grows s0 s) (pc : Nat) (line : Nat) :
    Grows s0 (copyStep s pc line) := by
  unfold copyStep
  with_reducible repeat' first
      | assumption | extract_lets | apply grows_copyLine | fail_if_no_progress refine Grows.lit ?_

theorem grows_engineAccess {s0 s : State} (g0 : Grows s0 s) (pc : Nat) :
    Grows s0 (engineAccess s pc) := by
  unfold engineAccess
  with_reducible repeat' first
      | assumption | extract_lets | apply Grows.ite | apply grows_setRekeyPtr | apply grows_rekeyLine
      | apply grows_copyStep | apply grows_clearStep | apply grows_scrubTurn | split

theorem grows_execEngineAccess {s0 s : State} (g0 : Grows s0 s) (pc : Nat) :
    OGrows s0 (execEngineAccess pc s) := by
  unfold execEngineAccess
  with_reducible repeat' first
      | assumption | extract_lets | apply Grows.ite | apply OGrows.done | apply grows_engineAccess

theorem grows_beginRekey {s0 s : State} (g0 : Grows s0 s) (pc : Nat) (page : Nat) (e : Nat) :
    Grows s0 (beginRekey s pc page e) := by
  unfold beginRekey
  with_reducible repeat' first | assumption | fail_if_no_progress refine Grows.lit ?_

theorem grows_rekeyStart {s0 s : State} (g0 : Grows s0 s) (pc : Nat) : Grows s0 (rekeyStart s pc) := by
  unfold rekeyStart
  refine Grows.ite g0 ?_
  split
  · exact g0
  · split
    · rename_i h
      exact grows_beginRekey (grows_drawEpoch g0 h) _ _ _
    · exact g0

theorem grows_execRekeyStart {s0 s : State} (g0 : Grows s0 s) (pc : Nat) :
    OGrows s0 (execRekeyStart pc s) := by
  unfold execRekeyStart
  with_reducible repeat' first | assumption | extract_lets | apply OGrows.done | apply grows_rekeyStart

theorem grows_rekeyDone {s0 s : State} (g0 : Grows s0 s) (pc : Nat) (page : Nat) (pg : Page) :
    Grows s0 (rekeyDone s pc page pg) := by
  unfold rekeyDone
  with_reducible repeat' first
      | assumption | (intro x) | extract_lets | apply Grows.ite | apply Grows.foldl | apply grows_rekeyLine
      | apply grows_incReg | apply grows_endActOf | apply grows_keyMoved | fail_if_no_progress refine Grows.lit ?_

theorem grows_execRekeyDone {s0 s : State} (g0 : Grows s0 s) (pc : Nat) :
    OGrows s0 (execRekeyDone pc s) := by
  unfold execRekeyDone
  with_reducible repeat' first | assumption | extract_lets | apply OGrows.done | apply grows_rekeyDone | split

theorem grows_assignStatus {s0 s : State} (g0 : Grows s0 s) (w : Option (CmdSrc × BitVec 64 × BitVec 16)) :
    Grows s0 (assignStatus s w) := by
  unfold assignStatus
  with_reducible repeat' first | assumption | apply grows_writeStatus | split

theorem grows_clearDone {s0 s : State} (g0 : Grows s0 s) (pc : Nat) (page : Nat) :
    Grows s0 (clearDone s pc page) := by
  unfold clearDone
  with_reducible repeat' first
      | assumption | (intro x) | extract_lets | apply grows_orReg | apply grows_keyMoved | apply grows_freedPc
      | apply grows_reclear | apply grows_clearLines | apply grows_assignStatus
      | fail_if_no_progress refine Grows.lit ?_

theorem grows_execPageClearDone {s0 s : State} (g0 : Grows s0 s) (pc page : Nat) :
    OGrows s0 (execPageClearDone pc page s) := by
  unfold execPageClearDone
  refine OGrows.done (Grows.ite ?_ g0)
  split
  · rename_i h
    exact grows_clearDone (grows_clearStart g0 h) _ _
  · exact g0

theorem grows_hostPoolRead {s0 s : State} (g0 : Grows s0 s) (f : Nat) (ctx : Option Nat) (addr : Nat) (len : Nat) :
    Grows s0 (hostPoolRead s f ctx addr len) := by
  unfold hostPoolRead
  with_reducible repeat' first | assumption | extract_lets | apply grows_hostRead | apply grows_emit | split

theorem grows_execHostPoolRead {s0 s : State} (g0 : Grows s0 s) (func : Nat) (ctx : Option Nat) (addr : Nat)
    (len : Nat) :
    OGrows s0 (execHostPoolRead func ctx addr len s) := by
  unfold execHostPoolRead
  with_reducible repeat' first | assumption | extract_lets | apply OGrows.done | apply grows_hostPoolRead

theorem grows_execHostPoolWrite {s0 s : State} (g0 : Grows s0 s) (func : Nat) (ctx : Option Nat) (addr : Nat)
    (bytes : List Byte) :
    OGrows s0 (execHostPoolWrite func ctx addr bytes s) := by
  unfold execHostPoolWrite
  with_reducible repeat' first | assumption | extract_lets | apply OGrows.done | apply grows_hostWrite

theorem grows_execMemScrubDue {s0 s : State} (g0 : Grows s0 s) :
    OGrows s0 (execMemScrubDue s) := by
  unfold execMemScrubDue
  with_reducible repeat' first
      | assumption | extract_lets | apply Grows.ite | apply OGrows.done | apply grows_scrubDueStart
      | fail_if_no_progress refine Grows.lit ?_

theorem grows_execPcFree {s0 s : State} (g0 : Grows s0 s) (hh : CmdHdr) (pc : Nat) :
    OGrows s0 (execPcFree hh pc s) := by
  unfold execPcFree
  with_reducible repeat' first
      | assumption | (intro x) | extract_lets | apply OGrows.done | apply grows_takeCommand | apply grows_pcFreeBody

theorem grows_regionRekeyBody {s0 s : State} (g0 : Grows s0 s) (hh : CmdHdr) (pc : Nat) (page : Nat) (a4 : Nat) :
    Grows s0 (regionRekeyBody hh pc page s a4).state := by
  unfold regionRekeyBody
  with_reducible repeat' first
      | assumption | extract_lets | apply Grows.rite | apply grows_refuse | apply grows_refuseAt
      | apply grows_startAct | apply grows_startedNow | split | fail_if_no_progress refine Grows.lit ?_

theorem grows_execRegionRekey {s0 s : State} (g0 : Grows s0 s) (hh : CmdHdr) (pc : Nat) (page : Nat) :
    OGrows s0 (execRegionRekey hh pc page s) := by
  unfold execRegionRekey
  with_reducible repeat' first
      | assumption | (intro x) | extract_lets | apply OGrows.done | apply grows_takeCommand
      | apply grows_regionRekeyBody

/-! ## Resets -/

theorem grows_deviceCleared {s0 s : State} (g0 : Grows s0 s) (endBeacon : Bool) :
    Grows s0 (deviceCleared s endBeacon) := by
  unfold deviceCleared
  with_reducible repeat' first
      | assumption | extract_lets | refine Grows.litLife (rises_eq (minimums_keptLife _ _)) ?_

theorem grows_exitBarrier {s0 s : State} (g0 : Grows s0 s) (c : Nat) (t : Timetable) (queued : Nat) (cause : Nat) :
    Grows s0 (exitBarrier s c t queued cause) := by
  unfold exitBarrier
  with_reducible repeat' first | assumption | apply grows_writeBarrier | split

theorem grows_emptyEntryQ {s0 s : State} (g0 : Grows s0 s) (q : Option Nat) :
    Grows s0 (emptyEntryQ s q) := by
  unfold emptyEntryQ
  with_reducible repeat' first | assumption | split | fail_if_no_progress refine Grows.lit ?_

theorem grows_dropTxItems {s0 s : State} (g0 : Grows s0 s) (qs : List Nat) :
    Grows s0 (dropTxItems s qs) := by
  unfold dropTxItems
  with_reducible repeat' first | assumption | fail_if_no_progress refine Grows.lit ?_

theorem grows_spoil {s0 s : State} (g0 : Grows s0 s) (f : Nat) (addr : Nat) (len : Nat) :
    Grows s0 (spoil s f addr len) := by
  unfold spoil
  with_reducible repeat' first
      | assumption | apply Grows.ite | apply grows_hostWrite | fail_if_no_progress refine Grows.lit ?_

theorem grows_spoilAttest {s0 s : State} (g0 : Grows s0 s) (e : Pending) :
    Grows s0 (spoilAttest s e) := by
  unfold spoilAttest
  with_reducible repeat' first | assumption | apply grows_spoil | split

theorem grows_dropTaken {s0 s : State} (g0 : Grows s0 s) (qs : List Nat) :
    Grows s0 (dropTaken s qs) := by
  unfold dropTaken
  with_reducible repeat' first
      | assumption | (intro x) | extract_lets | apply Grows.foldl | apply grows_spoilAttest | split
      | fail_if_no_progress refine Grows.lit ?_

theorem grows_barCpl {s0 s : State} (g0 : Grows s0 s) (f : Nat) (q : Nat) :
    Grows s0 (barCpl s f q) := by
  unfold barCpl
  with_reducible repeat' first | assumption | extract_lets | apply Grows.ite | apply grows_writeProd

theorem grows_barTx {s0 s : State} (g0 : Grows s0 s) (q : Nat) (a2 : Nat) :
    Grows s0 (barTx s q a2) := by
  induction a2 generalizing s with
  | zero =>
    unfold barTx
    with_reducible repeat' first | assumption
  | succ _ ih =>
    unfold barTx
    with_reducible repeat' first | apply ih | assumption | extract_lets | apply grows_txEntryDone

theorem grows_spoilPosted {s0 s : State} (g0 : Grows s0 s) (x : Queue) (i : Nat) (a3 : Nat) :
    Grows s0 (spoilPosted s x i a3) := by
  induction a3 generalizing s x i with
  | zero =>
    unfold spoilPosted
    with_reducible repeat' first | apply ih | assumption
  | succ _ ih =>
    unfold spoilPosted
    with_reducible repeat' first | apply ih | assumption | extract_lets | apply Grows.ite | apply grows_spoil

theorem grows_spoilRing {s0 s : State} (g0 : Grows s0 s) (q : Nat) :
    Grows s0 (spoilRing s q) := by
  unfold spoilRing
  with_reducible repeat' first | assumption | extract_lets | apply Grows.ite | apply grows_spoilPosted

theorem grows_barQueue {s0 s : State} (g0 : Grows s0 s) (f : Nat) (q : Nat) :
    Grows s0 (barQueue s f q) := by
  unfold barQueue
  with_reducible repeat' first
      | assumption | (intro x) | extract_lets | apply Grows.ite | apply grows_barCpl | apply grows_barTx
      | apply grows_spoilRing | fail_if_no_progress refine Grows.lit ?_

theorem grows_resetCtxsOf {s0 s : State} (g0 : Grows s0 s) (f : Nat) :
    Grows s0 (resetCtxsOf s f) := by
  unfold resetCtxsOf
  with_reducible repeat' first
      | assumption | (intro x) | extract_lets | apply Grows.foldl | apply grows_acceptCtxReset
      | fail_if_no_progress refine Grows.lit ?_

theorem grows_clearMailbox {s0 s : State} (g0 : Grows s0 s) (f : Nat) :
    Grows s0 (clearMailbox s f) := by
  unfold clearMailbox
  with_reducible repeat' first
      | assumption | extract_lets | apply grows_clrReg | fail_if_no_progress refine Grows.lit ?_

theorem grows_functionReset {s0 s : State} (g0 : Grows s0 s) (f : Nat) :
    Grows s0 (functionReset s f) := by
  unfold functionReset
  with_reducible repeat' first
      | assumption | (intro x) | extract_lets | apply Grows.foldl | apply grows_dropTxItems | apply grows_dropTaken
      | apply grows_barQueue | apply grows_resetCtxsOf | apply grows_clearMailbox
      | fail_if_no_progress refine Grows.lit ?_

theorem grows_releaseBefore {s0 s : State} (g0 : Grows s0 s) (c : Nat) :
    Grows s0 (releaseBefore s c) := by
  unfold releaseBefore
  with_reducible repeat' first | assumption | extract_lets | apply grows_releaseExits | apply grows_releaseRecs

theorem grows_abandonMessages {s0 s : State} (g0 : Grows s0 s) (c : Nat) :
    Grows s0 (abandonMessages s c) := by
  unfold abandonMessages
  with_reducible repeat' first | assumption | fail_if_no_progress refine Grows.lit ?_

theorem grows_ctxBarrier {s0 s : State} (g0 : Grows s0 s) (c : Nat) (cause : Nat) :
    Grows s0 (ctxBarrier s c cause) := by
  unfold ctxBarrier
  with_reducible repeat' first
      | assumption | extract_lets | apply grows_releaseBefore | apply grows_endTimetable | apply grows_exitBarrier
      | apply grows_emptyEntryQ | apply grows_abandonMessages | apply grows_dropReplies
      | fail_if_no_progress refine Grows.lit ?_

theorem grows_toResetting {s0 s : State} (h : Grows s0 s) (cs : List Nat) :
    Grows s0 (cs.foldl (fun s c => { s with ctxs := upd s.ctxs c fun x => { x with state := .resetting } }) s) :=
  Grows.foldl (fun _ _ h => Grows.lit h) h

theorem grows_gathered {s0 : State} {r : State × Gathering} (h : Grows s0 r.1) (p : Nat) (qs : List Nat) :
    Grows s0 { r.1 with
      gathers := put r.1.gathers p r.2
      sdg := upd r.1.sdg p fun d => { d with dumpable := qs }
      parts := upd r.1.parts p fun x => { x with stage := 2 } } := Grows.lit h

theorem grows_partBarrier {s0 s : State} (g0 : Grows s0 s) (p : Nat) :
    Grows s0 (partBarrier s p) :=
  Grows.foldl (fun _ _ h => grows_ctxBarrier h _ _)
    (grows_toResetting (grows_gathered (grows_gatherState g0 _ _ _ _) _ _) _)

theorem grows_markIf {s0 s : State} (h : Grows s0 s) (c : Nat) {b : Prop} [Decidable b] :
    Grows s0 (if b then markDumpable s c else s) := Grows.ite (grows_markDumpable h c) h

theorem grows_ctxResetB1 {s0 s : State} (g0 : Grows s0 s) (c : Nat) :
    Grows s0 (ctxResetB1 s c) :=
  grows_ctxBarrier (grows_markIf (grows_storeDump (grows_gatherState g0 _ _ _ _) _ _) c) _ _

theorem grows_resetWindow {s0 s : State} (g0 : Grows s0 s) (p : Nat) :
    Grows s0 (resetWindow s p) := by
  unfold resetWindow
  with_reducible repeat' first | assumption | fail_if_no_progress refine Grows.lit ?_

theorem grows_clearPartTiles {s0 s : State} (g0 : Grows s0 s) (p : Nat) :
    Grows s0 (clearPartTiles s p) := by
  unfold clearPartTiles
  with_reducible repeat' first | assumption | fail_if_no_progress refine Grows.lit ?_

theorem grows_partClear {s0 s : State} (g0 : Grows s0 s) (p : Nat) :
    Grows s0 (partClear s p) := by
  unfold partClear
  with_reducible repeat' first
      | assumption | (intro x) | extract_lets | apply Grows.foldl | apply grows_abandonMessages
      | apply grows_resetWindow | apply grows_clearPartTiles | apply grows_setLibCount
      | fail_if_no_progress refine Grows.lit ?_

theorem grows_partRetrain {s0 s : State} (g0 : Grows s0 s) (p : Nat) :
    Grows s0 (partRetrain s p) := by
  unfold partRetrain
  with_reducible repeat' first | assumption | fail_if_no_progress refine Grows.lit ?_

theorem grows_setQuarantine {s0 s : State} (g0 : Grows s0 s) (p : Nat) (q : Quarantine) :
    Grows s0 (setQuarantine s p q) := by
  unfold setQuarantine
  with_reducible repeat' first | assumption | fail_if_no_progress refine Grows.lit ?_

theorem grows_hostTimeout {s0 s : State} (g0 : Grows s0 s) (f : Nat) (addr : Nat) (len : Nat) :
    Grows s0 (hostTimeout s f addr len) := by
  unfold hostTimeout
  with_reducible repeat' first
      | assumption | apply grows_raiseFault | apply grows_spoil

theorem grows_configRequest {s0 s : State} (g0 : Grows s0 s) (effect : State → State) (g_effect : ∀ y0, Grows s0 y0 →
    Grows s0 (effect y0)) :
    Grows s0 (configRequest s effect) := by
  unfold configRequest
  with_reducible repeat' first | assumption | (intro x) | apply Grows.ite | apply grows_emit | apply g_effect

theorem grows_execVfEnableSet {s0 s : State} (g0 : Grows s0 s) (numVfs : Nat) :
    OGrows s0 (execVfEnableSet numVfs s) := by
  unfold execVfEnableSet
  with_reducible repeat' first
      | assumption | (intro x) | apply Grows.ite | apply OGrows.ite | apply OGrows.done | exact OGrows.fault
      | apply grows_configRequest | refine Grows.litLife (rises_eq rfl) ?_

theorem grows_ctxResetBody {s0 s : State} (g0 : Grows s0 s) (hh : CmdHdr) (c : Nat) (i : Nat) :
    Grows s0 (ctxResetBody hh c s i).state := by
  unfold ctxResetBody
  with_reducible repeat' first
      | assumption | extract_lets | apply Grows.rite | apply grows_refuse | apply grows_addEffect
      | apply grows_acceptCtxReset | apply grows_acceptAt | fail_if_no_progress refine Grows.lit ?_

theorem grows_execCtxReset {s0 s : State} (g0 : Grows s0 s) (hh : CmdHdr) (ctx : Nat) :
    OGrows s0 (execCtxReset hh ctx s) := by
  unfold execCtxReset
  with_reducible repeat' first
      | assumption | (intro x) | extract_lets | apply OGrows.done | apply grows_takeCommand | apply grows_ctxResetBody

theorem grows_fltEsc {s0 s : State} (g0 : Grows s0 s) (which : Nat) (data : Nat) :
    Grows s0 (fltEsc s which data) := by
  unfold fltEsc
  with_reducible repeat' first | assumption | extract_lets | apply Grows.ite | apply grows_setReg | apply grows_orReg

theorem grows_execFltEscWrite {s0 s : State} (g0 : Grows s0 s) (v : View) (which : Nat) (data : BitVec 32) :
    OGrows s0 (execFltEscWrite v which data s) := by
  unfold execFltEscWrite
  with_reducible repeat' first | assumption | extract_lets | apply Grows.ite | apply OGrows.done | apply grows_fltEsc

theorem grows_quarantineFails {s0 s : State} (g0 : Grows s0 s) (p : Nat) (q : Quarantine) :
    Grows s0 (quarantineFails s p q) := by
  unfold quarantineFails
  with_reducible repeat' first
      | assumption | (intro x) | extract_lets | apply Grows.foldl | apply grows_acceptCtxReset | apply grows_orReg
      | fail_if_no_progress refine Grows.lit ?_

theorem grows_execScHeartbeat {s0 s : State} (g0 : Grows s0 s) :
    OGrows s0 (execScHeartbeat s) := by
  unfold execScHeartbeat
  with_reducible repeat' first
      | assumption | extract_lets | apply OGrows.done | fail_if_no_progress refine Grows.litLife (rises_eq rfl) ?_

theorem grows_dropEffect {s0 s : State} (g0 : Grows s0 s) (e : Effect) :
    Grows s0 (dropEffect s e) := by
  unfold dropEffect
  with_reducible repeat' first | assumption | fail_if_no_progress refine Grows.lit ?_

theorem grows_isolate {s0 s : State} (g0 : Grows s0 s) (p : Nat) :
    Grows s0 (isolate s p) := by
  unfold isolate
  with_reducible repeat' first
      | assumption | extract_lets | apply grows_cancelEffects | apply grows_setPartState | apply grows_dropEffect
      | fail_if_no_progress refine Grows.lit ?_

theorem grows_partIsolateBody {s0 s : State} (g0 : Grows s0 s) (p : Nat) (a2 : Nat) :
    Grows s0 (partIsolateBody p s a2).state := by
  unfold partIsolateBody
  with_reducible repeat' first
      | assumption | extract_lets | apply Grows.rite | apply grows_refuse | apply grows_accept | apply grows_isolate

theorem grows_execPartIsolate {s0 s : State} (g0 : Grows s0 s) (hh : CmdHdr) (part_ : Nat) :
    OGrows s0 (execPartIsolate hh part_ s) := by
  unfold execPartIsolate
  with_reducible repeat' first
      | assumption | (intro x) | extract_lets | apply OGrows.done | apply grows_takeCommand
      | apply grows_partIsolateBody

theorem grows_deviceFault {s0 s : State} (g0 : Grows s0 s) (code : Nat) :
    Grows s0 (deviceFault s code) := by
  unfold deviceFault
  with_reducible repeat' first | assumption | apply grows_raiseFault

theorem grows_deviceDump {s0 s : State} (g0 : Grows s0 s) : Grows s0 (deviceDump s) :=
  grows_storeDump (Grows.pfoldl (fun _ _ h => grows_gatherQuads (grows_gatherState h _ _ _ _) _ _ _) g0) _ _

theorem grows_trainPcie {s0 s : State} (g0 : Grows s0 s) :
    Grows s0 (trainPcie s) := by
  unfold trainPcie
  with_reducible repeat' first | assumption | apply Grows.ite | apply grows_emit

theorem grows_startDeviceReset {s0 s : State} (g0 : Grows s0 s) (cause : Nat) (counted : Bool) :
    Grows s0 (startDeviceReset s cause counted) := by
  unfold startDeviceReset
  with_reducible repeat' first
      | assumption | (intro x) | extract_lets | apply Grows.ite | apply Grows.foldl | apply Grows.pfoldl
      | apply grows_orReg | apply grows_incReg | apply grows_setReg | apply grows_goQuiet | apply grows_deviceCleared
      | apply grows_spoilAttest | apply grows_spoilRing | apply grows_deviceDump | apply grows_trainPcie
      | refine Grows.litWire (List.suffix_append _ _) ?_

theorem grows_watchdog {s0 s : State} (g0 : Grows s0 s) (code : Nat) (cause : Nat) :
    Grows s0 (watchdog s code cause) := by
  unfold watchdog
  with_reducible repeat' first
      | assumption | extract_lets | apply Grows.ite | apply grows_deviceFault | apply grows_dropLevel
      | apply grows_startDeviceReset

theorem grows_levelDropBody {s0 s : State} (g0 : Grows s0 s) (hh : CmdHdr) (lv : Nat) (i : Nat) :
    Grows s0 (levelDropBody hh lv s i).state := by
  unfold levelDropBody
  with_reducible repeat' first
      | assumption | extract_lets | apply Grows.rite | apply grows_refuse | apply grows_finishLater
      | apply grows_addEffect | apply grows_accept | apply grows_dropLevel | fail_if_no_progress refine Grows.lit ?_

theorem grows_execLevelDrop {s0 s : State} (g0 : Grows s0 s) (hh : CmdHdr) (level : Nat) :
    OGrows s0 (execLevelDrop hh level s) := by
  unfold execLevelDrop
  with_reducible repeat' first
      | assumption | (intro x) | extract_lets | apply OGrows.done | apply grows_takeCommand
      | apply grows_levelDropBody

theorem grows_ctxResetEnd {s0 s : State} (g0 : Grows s0 s) (c : Nat) :
    Grows s0 (ctxResetEnd s c) := by
  unfold ctxResetEnd
  with_reducible repeat' first
      | assumption | extract_lets | apply grows_clearCtxTiles | apply grows_dropEffect | apply grows_notice
      | apply grows_orReg | fail_if_no_progress refine Grows.lit ?_

theorem grows_execCtxResetDone {s0 s : State} (g0 : Grows s0 s) (ctx : Nat) :
    OGrows s0 (execCtxResetDone ctx s) := by
  unfold execCtxResetDone
  with_reducible repeat' first
      | assumption | extract_lets | apply Grows.ite | apply OGrows.done | apply grows_ctxResetEnd

theorem grows_partResetBody {s0 s : State} (g0 : Grows s0 s) (hh : CmdHdr) (p : Nat) (i : Nat) :
    Grows s0 (partResetBody hh p s i).state := by
  unfold partResetBody
  with_reducible repeat' first
      | assumption | extract_lets | apply Grows.rite | apply grows_refuse | apply grows_addEffect
      | apply grows_acceptPartReset | apply grows_acceptAt | fail_if_no_progress refine Grows.lit ?_

theorem grows_execPartReset {s0 s : State} (g0 : Grows s0 s) (hh : CmdHdr) (part_ : Nat) :
    OGrows s0 (execPartReset hh part_ s) := by
  unfold execPartReset
  with_reducible repeat' first
      | assumption | (intro x) | extract_lets | apply OGrows.done | apply grows_takeCommand
      | apply grows_partResetBody

theorem grows_collectEnd {s0 s : State} (g0 : Grows s0 s) (p : Nat) :
    Grows s0 (collectEnd s p) := by
  unfold collectEnd
  with_reducible repeat' first
      | assumption | extract_lets | apply grows_gatherQuads | apply grows_storeDump
      | fail_if_no_progress refine Grows.lit ?_

theorem grows_execPartResetCollectEnd {s0 s : State} (g0 : Grows s0 s) (part_ : Nat) :
    OGrows s0 (execPartResetCollectEnd part_ s) := by
  unfold execPartResetCollectEnd
  with_reducible repeat' first
      | assumption | extract_lets | apply Grows.ite | apply OGrows.done | apply grows_collectEnd

theorem grows_partResetEnd {s0 s : State} (g0 : Grows s0 s) (p : Nat) (st : PartState) :
    Grows s0 (partResetEnd s p st) := by
  unfold partResetEnd
  with_reducible repeat' first
      | assumption | extract_lets | apply grows_dropEffect | apply grows_setPartState
      | fail_if_no_progress refine Grows.lit ?_

theorem grows_outNotice {s0 s : State} (g0 : Grows s0 s) (p : Nat) (escalated : Bool) :
    Grows s0 (outNotice s p escalated) := by
  unfold outNotice
  with_reducible repeat' first | assumption | apply grows_notice

theorem grows_partResetDone {s0 s : State} (g0 : Grows s0 s) (p : Nat) :
    Grows s0 (partResetDone s p) := by
  unfold partResetDone
  with_reducible repeat' first
      | assumption | extract_lets | apply Grows.ite | apply grows_orReg | apply grows_partResetEnd
      | apply grows_notice | apply grows_outNotice

theorem grows_execPartResetDone {s0 s : State} (g0 : Grows s0 s) (part_ : Nat) :
    OGrows s0 (execPartResetDone part_ s) := by
  unfold execPartResetDone
  with_reducible repeat' first
      | assumption | extract_lets | apply Grows.ite | apply OGrows.done | apply grows_partResetDone

theorem grows_resetOvertime {s0 s : State} (g0 : Grows s0 s) (p : Nat) :
    Grows s0 (resetOvertime s p) := by
  unfold resetOvertime
  with_reducible repeat' first
      | assumption | extract_lets | apply grows_raiseFault | apply grows_outNotice | apply grows_partResetEnd

theorem grows_execResetOvertime {s0 s : State} (g0 : Grows s0 s) (part_ : Nat) :
    OGrows s0 (execResetOvertime part_ s) := by
  unfold execResetOvertime
  with_reducible repeat' first
      | assumption | extract_lets | apply Grows.ite | apply OGrows.done | apply grows_resetOvertime

theorem grows_deviceResetBody {s0 s : State} (g0 : Grows s0 s) (a0 : CmdHdr) (a2 : Nat) :
    Grows s0 (deviceResetBody a0 s a2).state := by
  unfold deviceResetBody
  with_reducible repeat' first
      | assumption | extract_lets | apply grows_accept | apply grows_acceptAt | fail_if_no_progress refine Grows.litLife (rises_eq rfl) ?_

theorem grows_execDeviceReset {s0 s : State} (g0 : Grows s0 s) (hh : CmdHdr) :
    OGrows s0 (execDeviceReset hh s) := by
  unfold execDeviceReset
  with_reducible repeat' first
      | assumption | (intro x) | extract_lets | apply Grows.ite | apply OGrows.done | apply grows_takeCommand
      | apply grows_deviceResetBody | apply grows_startDeviceReset

theorem grows_execHeartbeatWatchdog {s0 s : State} (g0 : Grows s0 s) :
    OGrows s0 (execHeartbeatWatchdog s) := by
  unfold execHeartbeatWatchdog
  with_reducible repeat' first
      | assumption | extract_lets | apply Grows.ite | apply OGrows.done | apply grows_deviceFault
      | fail_if_no_progress refine Grows.litLife (rises_eq rfl) ?_

theorem grows_execMgmtWatchdog {s0 s : State} (g0 : Grows s0 s) :
    OGrows s0 (execMgmtWatchdog s) := by
  unfold execMgmtWatchdog
  with_reducible repeat' first
      | assumption | extract_lets | apply Grows.ite | apply OGrows.done | apply grows_watchdog

theorem grows_execScWatchdog {s0 s : State} (g0 : Grows s0 s) :
    OGrows s0 (execScWatchdog s) := by
  unfold execScWatchdog
  with_reducible repeat' first
      | assumption | extract_lets | apply Grows.ite | apply OGrows.done | apply grows_watchdog

theorem grows_execHostTimeout {s0 s : State} (g0 : Grows s0 s) (func : Nat) (addr : Nat) (len : Nat) :
    OGrows s0 (execHostTimeout func addr len s) := by
  unfold execHostTimeout
  with_reducible repeat' first
      | assumption | extract_lets | apply Grows.ite | apply OGrows.done | apply grows_hostTimeout

theorem grows_quarantineCollect {s0 s : State} (g0 : Grows s0 s) (p : Nat) (q : Quarantine) :
    Grows s0 (quarantineCollect s p q).1 :=
  grows_storeDump (grows_gatherQuads (grows_gatherState g0 _ _ _ _) _ _ _) _ _

theorem grows_replayTiles {s0 s : State} (g0 : Grows s0 s) (p : Nat) (quad : Nat) (hole : Nat) (plain : List Byte) :
    Grows s0 (replayTiles s p quad hole plain) := by
  unfold replayTiles
  with_reducible repeat' first
      | assumption | (intro x) | extract_lets | apply Grows.ite | apply Grows.foldl | apply Grows.pfoldl
      | apply grows_setTile

theorem grows_quarantineScanIn {s0 s : State} (g0 : Grows s0 s) (p : Nat) (q : Quarantine) :
    Grows s0 (quarantineScanIn s p q).1 := by
  unfold quarantineScanIn
  with_reducible repeat' first
      | assumption | (intro x) | extract_lets | apply grows_hostRead | apply grows_replayTiles | split

theorem grows_quarantineArm {s0 s : State} (g0 : Grows s0 s) (p : Nat) (q : Quarantine) :
    Grows s0 (quarantineArm s p q) := by
  unfold quarantineArm
  with_reducible repeat' first
      | assumption | extract_lets | apply Grows.ite | apply Grows.pite | apply grows_setQuarantine
      | apply grows_quarantineFails | apply grows_quarantineScanIn

theorem grows_quarantineStep {s0 s : State} (g0 : Grows s0 s) (p : Nat) (q : Quarantine) :
    Grows s0 (quarantineStep s p q) := by
  unfold quarantineStep
  with_reducible repeat' first
      | assumption | extract_lets | apply Grows.ite | apply Grows.pite | apply grows_quarantineFails
      | apply grows_quarantineCollect | apply grows_quarantineArm | split

theorem grows_execQuarantineReplay {s0 s : State} (g0 : Grows s0 s) :
    OGrows s0 (execQuarantineReplay s) := by
  unfold execQuarantineReplay
  with_reducible repeat' first | assumption | extract_lets | apply OGrows.done | apply grows_quarantineStep | split

theorem grows_vfsOff {s0 s : State} (h : Grows s0 s) :
    Grows s0 { s with life := { s.life with vfEnable := false, numVfs := 0 } } := Grows.litLife (rises_eq rfl) h

theorem grows_clearVfEnable {s0 s : State} (g0 : Grows s0 s) :
    Grows s0 (clearVfEnable s) :=
  grows_vfsOff (Grows.foldl (fun _ _ h => grows_functionReset h _) g0)

theorem grows_execFunctionLevelReset {s0 s : State} (g0 : Grows s0 s) (func : Nat) :
    OGrows s0 (execFunctionLevelReset func s) := by
  unfold execFunctionLevelReset
  with_reducible repeat' first
      | assumption | (intro x) | apply Grows.ite | apply OGrows.ite | apply OGrows.done | exact OGrows.fault
      | apply grows_functionReset | apply grows_clearVfEnable | apply grows_configRequest

theorem grows_execVfEnableClear {s0 s : State} (g0 : Grows s0 s) :
    OGrows s0 (execVfEnableClear s) := by
  unfold execVfEnableClear
  with_reducible repeat' first
      | assumption | (intro x) | apply Grows.ite | apply OGrows.ite | apply OGrows.done | exact OGrows.fault
      | apply grows_clearVfEnable | apply grows_configRequest

theorem grows_execPerstNAssert {s0 s : State} (g0 : Grows s0 s) :
    OGrows s0 (execPerstNAssert s) := by
  unfold execPerstNAssert
  with_reducible repeat' first
      | assumption | apply OGrows.done | exact OGrows.fault | apply grows_clearVfEnable | apply grows_trainPcie

theorem grows_execEscalationWindowExpiry {s0 s : State} (g0 : Grows s0 s) (kind : Nat) (part_ : Nat) :
    OGrows s0 (execEscalationWindowExpiry kind part_ s) := by
  unfold execEscalationWindowExpiry
  with_reducible repeat' first | assumption | extract_lets | apply Grows.ite | apply OGrows.done | apply grows_setReg

/-! ## Queues -/

theorem grows_doorbellError {s0 s : State} (g0 : Grows s0 s) (q : Nat) (x : Queue) :
    Grows s0 (doorbellError s q x) := by
  unfold doorbellError
  with_reducible repeat' first
      | assumption | extract_lets | apply grows_raiseFault | apply grows_orReg
      | fail_if_no_progress refine Grows.lit ?_

theorem grows_doorbell {s0 s : State} (g0 : Grows s0 s) (q : Nat) (i : Nat) :
    Grows s0 (doorbell s q i) := by
  unfold doorbell
  with_reducible repeat' first
      | assumption | extract_lets | apply Grows.ite | apply grows_doorbellError | apply grows_ringVector
      | fail_if_no_progress refine Grows.lit ?_

theorem grows_writeLateBarrier {s0 s : State} (g0 : Grows s0 s) (q : Nat) (b : List Byte) :
    Grows s0 (writeLateBarrier s q b) := by
  unfold writeLateBarrier
  with_reducible repeat' first
      | assumption | extract_lets | apply grows_writeProd | fail_if_no_progress refine Grows.lit ?_

theorem grows_queReleaseBody {s0 s : State} (g0 : Grows s0 s) (q : Nat) (a2 : Nat) :
    Grows s0 (queReleaseBody q s a2).state := by
  unfold queReleaseBody
  with_reducible repeat' first
      | assumption | extract_lets | apply Grows.rite | apply grows_refuse | apply grows_accept
      | fail_if_no_progress refine Grows.lit ?_

theorem grows_queDisableBody {s0 s : State} (g0 : Grows s0 s) (q : Nat) (a2 : Nat) :
    Grows s0 (queDisableBody q s a2).state := by
  unfold queDisableBody
  with_reducible repeat' first
      | assumption | extract_lets | apply grows_accept | fail_if_no_progress refine Grows.lit ?_

theorem grows_execQueDisable {s0 s : State} (g0 : Grows s0 s) (hh : CmdHdr) (q : Nat) :
    OGrows s0 (execQueDisable hh q s) := by
  unfold execQueDisable
  with_reducible repeat' first
      | assumption | (intro x) | extract_lets | apply OGrows.done | apply grows_takeCommand
      | apply grows_queDisableBody

theorem grows_queAssignBody {s0 s : State} (g0 : Grows s0 s) (q : Nat) (f : Nat) (kind : Nat) (log2 : Nat)
    (vec : Nat) (dbslot : Nat) (peer : Nat) (base : Nat) (a9 : Nat) :
    Grows s0 (queAssignBody q f kind log2 vec dbslot peer base s a9).state := by
  unfold queAssignBody
  with_reducible repeat' first
      | assumption | extract_lets | apply Grows.rite | apply grows_refuse | apply grows_refuseAt | apply grows_accept
      | fail_if_no_progress refine Grows.lit ?_

theorem grows_execQueueDoorbell {s0 s : State} (g0 : Grows s0 s) (func : Nat) (slot : Nat) (index : BitVec 32) :
    OGrows s0 (execQueueDoorbell func slot index s) := by
  unfold execQueueDoorbell
  with_reducible repeat' first | assumption | extract_lets | apply OGrows.done | apply grows_doorbell | split

theorem grows_execCmdRingResume {s0 s : State} (g0 : Grows s0 s) (q : Nat) :
    OGrows s0 (execCmdRingResume q s) := by
  unfold execCmdRingResume
  with_reducible repeat' first
      | assumption | extract_lets | apply Grows.ite | apply OGrows.done | fail_if_no_progress refine Grows.lit ?_

theorem grows_writeDeferred {s0 s : State} (g0 : Grows s0 s) (q : Nat) (b : List Byte) :
    Grows s0 (writeDeferred s q b) := by
  unfold writeDeferred
  with_reducible repeat' first
      | assumption | extract_lets | apply grows_writeProd | fail_if_no_progress refine Grows.lit ?_

theorem grows_execDeferredCommandStatus {s0 s : State} (g0 : Grows s0 s) (q : Nat) :
    OGrows s0 (execDeferredCommandStatus q s) := by
  unfold execDeferredCommandStatus
  with_reducible repeat' first
      | assumption | extract_lets | apply Grows.ite | apply OGrows.done | apply grows_writeDeferred | split

theorem grows_execBarrierEntryDeferred {s0 s : State} (g0 : Grows s0 s) (q : Nat) :
    OGrows s0 (execBarrierEntryDeferred q s) := by
  unfold execBarrierEntryDeferred
  with_reducible repeat' first
      | assumption | extract_lets | apply Grows.ite | apply OGrows.done | apply grows_writeLateBarrier | split

theorem grows_execNop {s0 s : State} (g0 : Grows s0 s) (hh : CmdHdr) :
    OGrows s0 (execNop hh s) := by
  unfold execNop
  with_reducible repeat' first
      | assumption | (intro x) | extract_lets | apply OGrows.done | apply grows_takeCommand | apply grows_accept

theorem grows_execQueAssign {s0 s : State} (g0 : Grows s0 s) (hh : CmdHdr) (q : Nat) (func : Nat) (kind : Nat)
    (log2 : Nat) (vec : Nat) (dbslot : Nat) (peer : Nat) (base : Nat) :
    OGrows s0 (execQueAssign hh q func kind log2 vec dbslot peer base s) := by
  unfold execQueAssign
  with_reducible repeat' first
      | assumption | (intro x) | extract_lets | apply OGrows.done | apply grows_takeCommand
      | apply grows_queAssignBody

theorem grows_execQueRelease {s0 s : State} (g0 : Grows s0 s) (hh : CmdHdr) (q : Nat) :
    OGrows s0 (execQueRelease hh q s) := by
  unfold execQueRelease
  with_reducible repeat' first
      | assumption | (intro x) | extract_lets | apply OGrows.done | apply grows_takeCommand
      | apply grows_queReleaseBody

theorem grows_queEnableBody {s0 s : State} (g0 : Grows s0 s) (q : Nat) (a2 : Nat) :
    Grows s0 (queEnableBody q s a2).state := by
  unfold queEnableBody
  with_reducible repeat' first
      | assumption | extract_lets | apply Grows.rite | apply grows_refuse | apply grows_accept
      | fail_if_no_progress refine Grows.lit ?_

theorem grows_execQueEnable {s0 s : State} (g0 : Grows s0 s) (hh : CmdHdr) (q : Nat) :
    OGrows s0 (execQueEnable hh q s) := by
  unfold execQueEnable
  with_reducible repeat' first
      | assumption | (intro x) | extract_lets | apply OGrows.done | apply grows_takeCommand
      | apply grows_queEnableBody

/-! ## Tenancy -/

theorem grows_partReturnBody {s0 s : State} (g0 : Grows s0 s) (p : Nat) (a2 : Nat) :
    Grows s0 (partReturnBody p s a2).state := by
  unfold partReturnBody
  with_reducible repeat' first
      | assumption | extract_lets | apply Grows.rite | apply grows_accept | apply grows_setPartState
      | apply grows_refuse

theorem grows_execPartReturn {s0 s : State} (g0 : Grows s0 s) (hh : CmdHdr) (part_ : Nat) :
    OGrows s0 (execPartReturn hh part_ s) := by
  unfold execPartReturn
  with_reducible repeat' first
      | assumption | (intro x) | extract_lets | apply OGrows.done | apply grows_takeCommand
      | apply grows_partReturnBody

theorem grows_execMbxTNtailWrite {s0 s : State} (g0 : Grows s0 s) (func : Nat) (data : BitVec 32) :
    OGrows s0 (execMbxTNtailWrite func data s) := by
  unfold execMbxTNtailWrite
  with_reducible repeat' first
      | assumption | extract_lets | apply Grows.ite | apply OGrows.done | fail_if_no_progress refine Grows.lit ?_

theorem grows_dropBlocks {s0 s : State} (g0 : Grows s0 s) (f : Nat) :
    Grows s0 (dropBlocks s f) := by
  unfold dropBlocks
  with_reducible repeat' first | assumption | fail_if_no_progress refine Grows.lit ?_

theorem grows_vfReleaseBody {s0 s : State} (g0 : Grows s0 s) (f : Nat) (a2 : Nat) :
    Grows s0 (vfReleaseBody f s a2).state := by
  unfold vfReleaseBody
  with_reducible repeat' first
      | assumption | extract_lets | apply Grows.rite | apply grows_refuse | apply grows_dropBlocks
      | apply grows_functionReset | apply grows_accept | fail_if_no_progress refine Grows.lit ?_

theorem grows_advanceMarks {s0 s : State} (g0 : Grows s0 s) (f : Nat) :
    Grows s0 (advanceMarks s f) := by
  unfold advanceMarks
  with_reducible repeat' first | assumption | fail_if_no_progress refine Grows.lit ?_

theorem grows_vfAssignBody {s0 s : State} (g0 : Grows s0 s) (f : Nat) (tenant : Nat) (a3 : Nat) :
    Grows s0 (vfAssignBody f tenant s a3).state := by
  unfold vfAssignBody
  with_reducible repeat' first
      | assumption | extract_lets | apply Grows.rite | apply grows_refuse | apply grows_advanceMarks
      | apply grows_dropBlocks | apply grows_accept | fail_if_no_progress refine Grows.lit ?_

theorem grows_execVfAssign {s0 s : State} (g0 : Grows s0 s) (hh : CmdHdr) (func : Nat) (tenant : Nat) :
    OGrows s0 (execVfAssign hh func tenant s) := by
  unfold execVfAssign
  with_reducible repeat' first
      | assumption | (intro x) | extract_lets | apply OGrows.done | apply grows_takeCommand | apply grows_vfAssignBody

theorem grows_installKey {s0 s : State} (g0 : Grows s0 s) (f : Nat) (slot : Nat) (k : List Byte) :
    Grows s0 (installKey s f slot k) := by
  unfold installKey
  with_reducible repeat' first
      | assumption | extract_lets | apply grows_notice | fail_if_no_progress refine Grows.lit ?_

theorem grows_takeReport {s0 s : State} (g0 : Grows s0 s) (e : Pending) (p : Nat) (dest : Nat) (nonce : BitVec 256) :
    Grows s0 (takeReport s e p dest nonce) := by
  unfold takeReport
  with_reducible repeat' first | assumption | extract_lets | apply grows_hostWrite | apply grows_writeStatus

theorem grows_partReject {s0 s : State} (g0 : Grows s0 s) :
    Grows s0 (partReject s) := by
  unfold partReject
  with_reducible repeat' first | assumption | apply grows_orReg

theorem grows_quotaWrite {s0 s : State} (g0 : Grows s0 s) (f : Nat) (kind : Nat) (data : Nat) :
    Grows s0 (quotaWrite s f kind data) := by
  unfold quotaWrite
  with_reducible repeat' first
      | assumption | extract_lets | apply Grows.ite | apply grows_partReject | apply grows_notice
      | fail_if_no_progress refine Grows.lit ?_

theorem grows_attestBodyCmd {s0 s : State} (g0 : Grows s0 s) (hh : CmdHdr) (p : Nat) (dest : Nat)
    (nonce : BitVec 256) (i : Nat) :
    Grows s0 (attestBodyCmd hh p dest nonce s i).state := by
  unfold attestBodyCmd
  with_reducible repeat' first
      | assumption | extract_lets | apply Grows.rite | apply grows_refuse | apply grows_finishLater
      | apply grows_addEffect

theorem grows_execAttest {s0 s : State} (g0 : Grows s0 s) (hh : CmdHdr) (part_ : Nat) (dest : Nat)
    (nonce : BitVec 256) :
    OGrows s0 (execAttest hh part_ dest nonce s) := by
  unfold execAttest
  with_reducible repeat' first
      | assumption | (intro x) | extract_lets | apply OGrows.done | apply grows_takeCommand
      | apply grows_attestBodyCmd

theorem grows_execPartHartRsvWrite {s0 s : State} (g0 : Grows s0 s) (v : View) (word : Nat) (data : BitVec 32) :
    OGrows s0 (execPartHartRsvWrite v word data s) := by
  unfold execPartHartRsvWrite
  with_reducible repeat' first
      | assumption | extract_lets | apply Grows.ite | apply OGrows.done | apply grows_partReject
      | fail_if_no_progress refine Grows.lit ?_

theorem grows_seedCtx {s0 s : State} (g0 : Grows s0 s) (c : Nat) (seed : BitVec 64) :
    Grows s0 (seedCtx s c seed) := by
  unfold seedCtx
  with_reducible repeat' first | assumption | fail_if_no_progress refine Grows.lit ?_

theorem grows_ctxSeedBody {s0 s : State} (g0 : Grows s0 s) (c : Nat) (seed : BitVec 64) (a3 : Nat) :
    Grows s0 (ctxSeedBody c seed s a3).state := by
  unfold ctxSeedBody
  with_reducible repeat' first
      | assumption | extract_lets | apply Grows.rite | apply grows_accept | apply grows_seedCtx | apply grows_refuse

theorem grows_clrPendingBit {s0 s : State} (g0 : Grows s0 s) (f : Nat) :
    Grows s0 (clrPendingBit s f) := by
  unfold clrPendingBit
  with_reducible repeat' first | assumption | apply grows_clrReg

theorem grows_mbxSet {s0 s : State} (g0 : Grows s0 s) (f : Nat) (g : Mailbox → Mailbox) :
    Grows s0 (mbxSet s f g) := by
  unfold mbxSet
  with_reducible repeat' first
      | assumption | extract_lets | apply Grows.ite | apply grows_sendVec | fail_if_no_progress refine Grows.lit ?_

theorem grows_execMbxOutAck {s0 s : State} (g0 : Grows s0 s) (v : View) (data : BitVec 32) :
    OGrows s0 (execMbxOutAck v data s) := by
  unfold execMbxOutAck
  with_reducible repeat' first
      | assumption | extract_lets | apply Grows.ite | apply OGrows.done | apply grows_clrPendingBit
      | apply grows_mbxSet

theorem grows_execCtxSeed {s0 s : State} (g0 : Grows s0 s) (hh : CmdHdr) (ctx : Nat) (seed : BitVec 64) :
    OGrows s0 (execCtxSeed hh ctx seed s) := by
  unfold execCtxSeed
  with_reducible repeat' first
      | assumption | (intro x) | extract_lets | apply OGrows.done | apply grows_takeCommand | apply grows_ctxSeedBody

theorem grows_execGuestExit {s0 s : State} (g0 : Grows s0 s) (hart : Nat) (save : Nat) (regs : List Byte) :
    OGrows s0 (execGuestExit hart save regs s) := by
  unfold execGuestExit
  with_reducible repeat' first
      | assumption | extract_lets | apply Grows.ite | apply OGrows.done | apply grows_hostWrite
      | fail_if_no_progress refine Grows.lit ?_

theorem grows_execMbxTInAck {s0 s : State} (g0 : Grows s0 s) (func : Nat) (data : BitVec 32) :
    OGrows s0 (execMbxTInAck func data s) := by
  unfold execMbxTInAck
  with_reducible repeat' first
      | assumption | extract_lets | apply Grows.ite | apply OGrows.done | apply grows_orReg | apply grows_mbxSet

theorem grows_setPendingBit {s0 s : State} (g0 : Grows s0 s) (f : Nat) :
    Grows s0 (setPendingBit s f) := by
  unfold setPendingBit
  with_reducible repeat' first | assumption | apply grows_orReg

theorem grows_execAriSeedSelWrite {s0 s : State} (g0 : Grows s0 s) (v : View) (data : BitVec 32) :
    OGrows s0 (execAriSeedSelWrite v data s) := by
  unfold execAriSeedSelWrite
  with_reducible repeat' first
      | assumption | extract_lets | apply Grows.ite | apply OGrows.done | apply grows_setReg
      | fail_if_no_progress refine Grows.lit ?_

theorem grows_execVfQuotaWrite {s0 s : State} (g0 : Grows s0 s) (v : View) (func : Nat) (quota : Nat)
    (data : BitVec 32) :
    OGrows s0 (execVfQuotaWrite v func quota data s) := by
  unfold execVfQuotaWrite
  with_reducible repeat' first
      | assumption | extract_lets | apply Grows.ite | apply OGrows.done | apply grows_quotaWrite

theorem grows_ctxRemoveBody {s0 s : State} (g0 : Grows s0 s) (hh : CmdHdr) (c : Nat) (a3 : Nat) :
    Grows s0 (ctxRemoveBody hh c s a3).state := by
  unfold ctxRemoveBody
  with_reducible repeat' first
      | assumption | extract_lets | apply Grows.rite | apply grows_refuse | apply grows_accept
      | fail_if_no_progress refine Grows.lit ?_

theorem grows_execPartCellSWrite {s0 s : State} (g0 : Grows s0 s) (v : View) (byteOff : Nat) (data : Byte) :
    OGrows s0 (execPartCellSWrite v byteOff data s) := by
  unfold execPartCellSWrite
  with_reducible repeat' first
      | assumption | extract_lets | apply Grows.ite | apply OGrows.done | apply grows_partReject
      | fail_if_no_progress refine Grows.lit ?_

theorem grows_execGuestEntry {s0 s : State} (g0 : Grows s0 s) (hart : Nat) (func : Nat) :
    OGrows s0 (execGuestEntry hart func s) := by
  unfold execGuestEntry
  with_reducible repeat' first
      | assumption | extract_lets | apply Grows.ite | apply OGrows.done | fail_if_no_progress refine Grows.lit ?_

theorem grows_monitorSwitch {s0 s : State} (g0 : Grows s0 s) (hart : Nat) :
    Grows s0 (monitorSwitch s hart) := by
  unfold monitorSwitch
  with_reducible repeat' first
      | assumption | extract_lets | apply Grows.ite | split
      | fail_if_no_progress refine Grows.litLife (rises_eq rfl) ?_

theorem grows_execMonitorHartSwitch {s0 s : State} (g0 : Grows s0 s) (hart : Nat) :
    OGrows s0 (execMonitorHartSwitch hart s) := by
  unfold execMonitorHartSwitch
  with_reducible repeat' first
      | assumption | extract_lets | apply Grows.ite | apply OGrows.done | apply grows_monitorSwitch

theorem grows_execVfTctrlWrite {s0 s : State} (g0 : Grows s0 s) (v : View) (func : Nat) (data : BitVec 32) :
    OGrows s0 (execVfTctrlWrite v func data s) := by
  unfold execVfTctrlWrite
  with_reducible repeat' first
      | assumption | extract_lets | apply Grows.ite | apply OGrows.done | fail_if_no_progress refine Grows.lit ?_

theorem grows_mbxSend {s0 s : State} (g0 : Grows s0 s) (f : Nat) (len : Nat) :
    Grows s0 (mbxSend s f len) := by
  unfold mbxSend
  with_reducible repeat' first
      | assumption | extract_lets | apply Grows.ite | apply grows_mbxSet | apply grows_orReg
      | apply grows_setPendingBit

theorem grows_execMbxTSend {s0 s : State} (g0 : Grows s0 s) (func : Nat) (data : BitVec 32) :
    OGrows s0 (execMbxTSend func data s) := by
  unfold execMbxTSend
  with_reducible repeat' first | assumption | extract_lets | apply Grows.ite | apply OGrows.done | apply grows_mbxSend

theorem grows_mbxPost {s0 s : State} (g0 : Grows s0 s) (f : Nat) (len : Nat) :
    Grows s0 (mbxPost s f len) := by
  unfold mbxPost
  with_reducible repeat' first | assumption | extract_lets | apply Grows.ite | apply grows_orReg | apply grows_mbxSet

theorem grows_execMbxInPost {s0 s : State} (g0 : Grows s0 s) (v : View) (data : BitVec 32) :
    OGrows s0 (execMbxInPost v data s) := by
  unfold execMbxInPost
  with_reducible repeat' first | assumption | extract_lets | apply Grows.ite | apply OGrows.done | apply grows_mbxPost

theorem grows_mbxWithdraw {s0 s : State} (g0 : Grows s0 s) (f : Nat) (outbound : Bool) :
    Grows s0 (mbxWithdraw s f outbound) := by
  unfold mbxWithdraw
  with_reducible repeat' first
      | assumption | extract_lets | apply Grows.ite | apply grows_clrPendingBit | apply grows_mbxSet
      | apply grows_incReg | apply grows_orReg

theorem grows_execMbxTimeoutExpiry {s0 s : State} (g0 : Grows s0 s) (func : Nat) (outbound : Bool) :
    OGrows s0 (execMbxTimeoutExpiry func outbound s) := by
  unfold execMbxTimeoutExpiry
  with_reducible repeat' first
      | assumption | extract_lets | apply Grows.ite | apply OGrows.done | apply grows_mbxWithdraw

theorem grows_partOpenBody {s0 s : State} (g0 : Grows s0 s) (p : Nat) (radio : Nat) (f : Nat) (a4 : Nat) :
    Grows s0 (partOpenBody p radio f s a4).state := by
  unfold partOpenBody
  with_reducible repeat' first
      | assumption | extract_lets | apply Grows.rite | apply grows_refuse | apply grows_accept
      | apply grows_setPartState | fail_if_no_progress refine Grows.lit ?_

theorem grows_execPartOpen {s0 s : State} (g0 : Grows s0 s) (hh : CmdHdr) (part_ : Nat) (radio : Nat) (func : Nat) :
    OGrows s0 (execPartOpen hh part_ radio func s) := by
  unfold execPartOpen
  with_reducible repeat' first
      | assumption | (intro x) | extract_lets | apply OGrows.done | apply grows_takeCommand | apply grows_partOpenBody

theorem grows_partCloseBody {s0 s : State} (g0 : Grows s0 s) (p : Nat) (a2 : Nat) :
    Grows s0 (partCloseBody p s a2).state := by
  unfold partCloseBody
  with_reducible repeat' first
      | assumption | extract_lets | apply Grows.rite | apply grows_refuse | apply grows_setPartState
      | apply grows_accept | fail_if_no_progress refine Grows.lit ?_

theorem grows_execPartClose {s0 s : State} (g0 : Grows s0 s) (hh : CmdHdr) (part_ : Nat) :
    OGrows s0 (execPartClose hh part_ s) := by
  unfold execPartClose
  with_reducible repeat' first
      | assumption | (intro x) | extract_lets | apply OGrows.done | apply grows_takeCommand
      | apply grows_partCloseBody

theorem grows_ctxCreateBody {s0 s : State} (g0 : Grows s0 s) (hh : CmdHdr) (p : Nat) (slot : Nat)
    (seed : BitVec 64) (a5 : Nat) :
    Grows s0 (ctxCreateBody hh p slot seed s a5).state := by
  unfold ctxCreateBody
  with_reducible repeat' first
      | assumption | extract_lets | apply Grows.rite | apply grows_refuse | apply grows_accept
      | fail_if_no_progress refine Grows.lit ?_

theorem grows_execCtxCreate {s0 s : State} (g0 : Grows s0 s) (hh : CmdHdr) (part_ : Nat) (slot : Nat)
    (seed : BitVec 64) :
    OGrows s0 (execCtxCreate hh part_ slot seed s) := by
  unfold execCtxCreate
  with_reducible repeat' first
      | assumption | (intro x) | extract_lets | apply OGrows.done | apply grows_takeCommand
      | apply grows_ctxCreateBody

theorem grows_execCtxRemove {s0 s : State} (g0 : Grows s0 s) (hh : CmdHdr) (ctx : Nat) :
    OGrows s0 (execCtxRemove hh ctx s) := by
  unfold execCtxRemove
  with_reducible repeat' first
      | assumption | (intro x) | extract_lets | apply OGrows.done | apply grows_takeCommand
      | apply grows_ctxRemoveBody

theorem grows_ariSeed {s0 s : State} (g0 : Grows s0 s) (seed : BitVec 64) :
    Grows s0 (ariSeed s seed) := by
  unfold ariSeed
  with_reducible repeat' first | assumption | extract_lets | apply Grows.ite | apply grows_seedCtx | apply grows_orReg

theorem grows_execAriSeedWrite {s0 s : State} (g0 : Grows s0 s) (v : View) (data : BitVec 64) :
    OGrows s0 (execAriSeedWrite v data s) := by
  unfold execAriSeedWrite
  with_reducible repeat' first | assumption | extract_lets | apply Grows.ite | apply OGrows.done | apply grows_ariSeed

theorem grows_execAriSeedLowWrite {s0 s : State} (g0 : Grows s0 s) (v : View) (data : BitVec 32) :
    OGrows s0 (execAriSeedLowWrite v data s) := by
  unfold execAriSeedLowWrite
  with_reducible repeat' first
      | assumption | extract_lets | apply Grows.ite | apply OGrows.done | split
      | fail_if_no_progress refine Grows.lit ?_

theorem grows_execAriSeedHighWrite {s0 s : State} (g0 : Grows s0 s) (v : View) (data : BitVec 32) :
    OGrows s0 (execAriSeedHighWrite v data s) := by
  unfold execAriSeedHighWrite
  with_reducible repeat' first
      | assumption | extract_lets | apply Grows.ite | apply OGrows.done | apply grows_ariSeed | split
      | fail_if_no_progress refine Grows.lit ?_

theorem grows_execVfRelease {s0 s : State} (g0 : Grows s0 s) (hh : CmdHdr) (func : Nat) :
    OGrows s0 (execVfRelease hh func s) := by
  unfold execVfRelease
  with_reducible repeat' first
      | assumption | (intro x) | extract_lets | apply OGrows.done | apply grows_takeCommand
      | apply grows_vfReleaseBody

theorem grows_keyInstallBody {s0 s : State} (g0 : Grows s0 s) (hh : CmdHdr) (slot : Nat) (addr : Nat) (i : Nat) :
    Grows s0 (keyInstallBody hh slot addr s i).state := by
  unfold keyInstallBody
  with_reducible repeat' first
      | assumption | extract_lets | apply Grows.rite | apply grows_refuse | apply grows_hostRead
      | apply grows_acceptAt | apply grows_addEffect | split

theorem grows_execKeyInstall {s0 s : State} (g0 : Grows s0 s) (hh : CmdHdr) (slot : Nat) (addr : Nat) :
    OGrows s0 (execKeyInstall hh slot addr s) := by
  unfold execKeyInstall
  with_reducible repeat' first
      | assumption | (intro x) | extract_lets | apply OGrows.done | apply grows_takeCommand
      | apply grows_keyInstallBody

theorem grows_certGetBody {s0 s : State} (g0 : Grows s0 s) (hh : CmdHdr) (which : Nat) (dest : Nat) (a4 : Nat) :
    Grows s0 (certGetBody hh which dest s a4).state := by
  unfold certGetBody
  with_reducible repeat' first | assumption | extract_lets | apply grows_acceptAt | apply grows_hostWrite

theorem grows_execCertGet {s0 s : State} (g0 : Grows s0 s) (hh : CmdHdr) (which : Nat) (dest : Nat) :
    OGrows s0 (execCertGet hh which dest s) := by
  unfold execCertGet
  with_reducible repeat' first
      | assumption | (intro x) | extract_lets | apply OGrows.done | apply grows_takeCommand | apply grows_certGetBody

end Sys2Proof.Machine
end

