-- ==== Sys2Proof/Laws/GrowsPorts.lean ====
section
/-!
SUPPORT. What every command leaves standing (Laws/Grows), said once of each operation over
trunk ports, Ethernet ports, cut-through, engines, radio, registers and the station bus.
-/

namespace Sys2Proof.Machine

/-! ## Parse -/

theorem grows_secTaken {s0 s : State} (g0 : Grows s0 s) (port : Nat) (sub : Nat) (b : List Byte) :
    Grows s0 (secTaken s port sub b) := by
  unfold secTaken
  with_reducible repeat' first | assumption | split | fail_if_no_progress refine Grows.lit ?_

/-! ## Trunk -/

theorem grows_updPort {s0 s : State} (g0 : Grows s0 s) (p : Nat) (f : TrunkPort → TrunkPort) :
    Grows s0 (updPort s p f) := by
  unfold updPort
  with_reducible repeat' first | assumption | fail_if_no_progress refine Grows.lit ?_

theorem grows_portTo {s0 s : State} (g0 : Grows s0 s) (p : Nat) (st : PortState) (cause : Nat) :
    Grows s0 (portTo s p st cause) := by
  unfold portTo
  with_reducible repeat' first
      | assumption | (intro x) | extract_lets | apply Grows.ite | apply Grows.foldl | apply grows_updPort
      | apply grows_orReg | apply grows_bump | apply grows_raiseBrake | apply grows_referenceLost

theorem grows_agreeKeys {s0 s : State} (g0 : Grows s0 s) (p : Nat) (peer : Nat × Nat) :
    Grows s0 (agreeKeys s p peer) := by
  unfold agreeKeys
  with_reducible repeat' first
      | assumption | extract_lets | apply grows_portTo | apply grows_updPort | fail_if_no_progress refine Grows.lit ?_

theorem grows_agree {s0 s : State} (g0 : Grows s0 s) (p : Nat) (peer : Nat × Nat) (genuine : Bool) :
    Grows s0 (agree s p peer genuine) := by
  unfold agree
  with_reducible repeat' first
      | assumption | extract_lets | apply Grows.ite | apply grows_portTo | apply grows_agreeKeys

theorem grows_execTrunkAgree {s0 s : State} (g0 : Grows s0 s) (port : Nat) (peerEphemeral : Nat × Nat)
    (peerGenuine : Bool) :
    OGrows s0 (execTrunkAgree port peerEphemeral peerGenuine s) := by
  unfold execTrunkAgree
  with_reducible repeat' first | assumption | extract_lets | apply Grows.ite | apply OGrows.done | apply grows_agree

theorem grows_markSkew {s0 s : State} (g0 : Grows s0 s) (p : Nat) (arrival : Nat) :
    Grows s0 (markSkew s p arrival) := by
  unfold markSkew
  with_reducible repeat' first
      | assumption | extract_lets | apply Grows.ite | apply grows_updPort | apply grows_orReg | apply grows_servoTake

theorem grows_execTrkPortSkewRead {s0 s : State} (g0 : Grows s0 s) (v : View) (port : Nat) :
    OGrows s0 (execTrkPortSkewRead v port s) := by
  unfold execTrkPortSkewRead
  with_reducible repeat' first
      | assumption | extract_lets | apply Grows.ite | apply OGrows.done | apply grows_emit | apply grows_updPort

theorem grows_identify {s0 s : State} (g0 : Grows s0 s) (p : Nat) (peerId : Nat) (peerPort : Nat) (peerLatFix : Nat) :
    Grows s0 (identify s p peerId peerPort peerLatFix) := by
  unfold identify
  with_reducible repeat' first
      | assumption | extract_lets | apply Grows.ite | apply grows_updPort | apply grows_portTo

theorem grows_cellOut {s0 s : State} (g0 : Grows s0 s) (p : Nat) (slot : Nat) (hh : CellHdr) (payload : List Byte) :
    Grows s0 (cellOut s p slot hh payload) := by
  unfold cellOut
  with_reducible repeat' first
      | assumption | extract_lets | apply Grows.ite | apply grows_updPort | apply grows_bump | apply grows_emit

theorem grows_takeRouteSwap {s0 s : State} (g0 : Grows s0 s) :
    Grows s0 (takeRouteSwap s) := by
  unfold takeRouteSwap
  with_reducible repeat' first
      | assumption | extract_lets | apply grows_orReg | fail_if_no_progress refine Grows.lit ?_

theorem grows_wordLost {s0 s : State} (g0 : Grows s0 s) (c : Nat) (p : Nat) :
    Grows s0 (wordLost s c p) := by
  unfold wordLost
  with_reducible repeat' first
      | assumption | extract_lets | apply Grows.ite | apply grows_recordFault | apply grows_raiseBrake
      | apply grows_respond

theorem grows_deliverWord {s0 s : State} (g0 : Grows s0 s) (c : Nat) (p : Nat) (slot : Nat) (held : List (Nat ×
    TWord)) (j : Nat) :
    Grows s0 (deliverWord s c p slot held j) := by
  unfold deliverWord
  with_reducible repeat' first
      | assumption | (intro x) | apply grows_bump | apply grows_hubPlace | apply grows_wordLost | split

theorem grows_vc0Deliver {s0 s : State} (g0 : Grows s0 s) (p : Nat) (slot : Nat) :
    Grows s0 (vc0Deliver s p slot) := by
  unfold vc0Deliver
  with_reducible repeat' first
      | assumption | (intro x) | extract_lets | apply Grows.ite | apply Grows.foldl | apply grows_updPort
      | apply grows_deliverWord | apply grows_orReg | apply grows_bump | split
      | fail_if_no_progress refine Grows.lit ?_

theorem grows_execVc0Delivery {s0 s : State} (g0 : Grows s0 s) (port : Nat) (slot : Nat) :
    OGrows s0 (execVc0Delivery port slot s) := by
  unfold execVc0Delivery
  with_reducible repeat' first
      | assumption | extract_lets | apply Grows.ite | apply OGrows.done | apply grows_vc0Deliver

theorem grows_portRetrain {s0 s : State} (g0 : Grows s0 s) (p : Nat) :
    Grows s0 (portRetrain s p) := by
  unfold portRetrain
  with_reducible repeat' first | assumption | apply grows_portTo

theorem grows_fabricIdBody {s0 s : State} (g0 : Grows s0 s) (id : Nat) (a2 : Nat) :
    Grows s0 (fabricIdBody id s a2).state := by
  unfold fabricIdBody
  with_reducible repeat' first
      | assumption | (intro x) | extract_lets | apply Grows.foldl | apply Grows.rite | apply grows_refuse
      | apply grows_accept | apply grows_portRetrain | fail_if_no_progress refine Grows.lit ?_

theorem grows_execFabricIdSet {s0 s : State} (g0 : Grows s0 s) (hh : CmdHdr) (id : Nat) :
    OGrows s0 (execFabricIdSet hh id s) := by
  unfold execFabricIdSet
  with_reducible repeat' first
      | assumption | (intro x) | extract_lets | apply OGrows.done | apply grows_takeCommand | apply grows_fabricIdBody

theorem grows_takeWords {s0 s : State} (g0 : Grows s0 s) (p : Nat) (slot : Nat) (l : List (Nat × TWord)) :
    Grows s0 (takeWords s p slot l) := by
  unfold takeWords
  with_reducible repeat' first | assumption | (intro x) | extract_lets | apply Grows.foldl | apply grows_hubTake

theorem grows_cellSend {s0 s : State} (g0 : Grows s0 s) (p : Nat) (slot : Nat) :
    Grows s0 (cellSend s p slot) := by
  unfold cellSend
  with_reducible repeat' first
      | assumption | extract_lets | apply grows_cellOut | apply grows_takeWords | apply grows_updPort | split
      | fail_if_no_progress refine Grows.lit ?_

theorem grows_measure {s0 s : State} (g0 : Grows s0 s) (p : Nat) (roundTrip : Nat) :
    Grows s0 (measure s p roundTrip) := by
  unfold measure
  with_reducible repeat' first
      | assumption | extract_lets | apply Grows.ite | apply grows_portTo | apply grows_updPort | apply grows_orReg
      | apply grows_referenceFound

theorem grows_execKeyRatchet {s0 s : State} (g0 : Grows s0 s) (port : Nat) (rx : Bool) :
    OGrows s0 (execKeyRatchet port rx s) := by
  unfold execKeyRatchet
  with_reducible repeat' first | assumption | extract_lets | apply Grows.ite | apply OGrows.done | apply grows_updPort

theorem grows_trkPortCtrl {s0 s : State} (g0 : Grows s0 s) (p : Nat) (data : Nat) :
    Grows s0 (trkPortCtrl s p data) := by
  unfold trkPortCtrl
  with_reducible repeat' first
      | assumption | extract_lets | apply Grows.ite | apply grows_portRetrain | apply grows_setReg

theorem grows_execTrkPortCtrlWrite {s0 s : State} (g0 : Grows s0 s) (v : View) (port : Nat) (data : BitVec 32) :
    OGrows s0 (execTrkPortCtrlWrite v port data s) := by
  unfold execTrkPortCtrlWrite
  with_reducible repeat' first
      | assumption | extract_lets | apply Grows.ite | apply OGrows.done | apply grows_trkPortCtrl

theorem grows_messageForward {s0 s : State} (g0 : Grows s0 s) (p : Nat) :
    Grows s0 (messageForward s p) := by
  unfold messageForward
  with_reducible repeat' first | assumption | extract_lets | apply grows_updPort | apply grows_forward | split

theorem grows_execTrunkIdentify {s0 s : State} (g0 : Grows s0 s) (port : Nat) (peerId : Nat) (peerPort : Nat)
    (peerLatFix : Nat) :
    OGrows s0 (execTrunkIdentify port peerId peerPort peerLatFix s) := by
  unfold execTrunkIdentify
  with_reducible repeat' first
      | assumption | extract_lets | apply Grows.ite | apply OGrows.done | apply grows_identify

theorem grows_routeSwapBody {s0 s : State} (g0 : Grows s0 s) (hh : CmdHdr) (i : Nat) :
    Grows s0 (routeSwapBody hh s i).state := by
  unfold routeSwapBody
  with_reducible repeat' first
      | assumption | extract_lets | apply Grows.rite | apply grows_refuse | apply grows_refuseAt
      | apply grows_acceptAt | apply grows_addEffect

theorem grows_execRouteSwap {s0 s : State} (g0 : Grows s0 s) (hh : CmdHdr) :
    OGrows s0 (execRouteSwap hh s) := by
  unfold execRouteSwap
  with_reducible repeat' first
      | assumption | (intro x) | extract_lets | apply OGrows.done | apply grows_takeCommand
      | apply grows_routeSwapBody

theorem grows_trainingDone {s0 s : State} (g0 : Grows s0 s) (p : Nat) (cause : Nat) :
    Grows s0 (trainingDone s p cause) := by
  unfold trainingDone
  with_reducible repeat' first | assumption | extract_lets | apply Grows.ite | apply grows_portTo

theorem grows_execTrunkTrainingDone {s0 s : State} (g0 : Grows s0 s) (port : Nat) (cause : Nat) :
    OGrows s0 (execTrunkTrainingDone port cause s) := by
  unfold execTrunkTrainingDone
  with_reducible repeat' first
      | assumption | extract_lets | apply Grows.ite | apply OGrows.done | apply grows_trainingDone

theorem grows_execTrunkMeasure {s0 s : State} (g0 : Grows s0 s) (port : Nat) (roundTrip : Nat) :
    OGrows s0 (execTrunkMeasure port roundTrip s) := by
  unfold execTrunkMeasure
  with_reducible repeat' first | assumption | extract_lets | apply Grows.ite | apply OGrows.done | apply grows_measure

theorem grows_execTrunkRetry {s0 s : State} (g0 : Grows s0 s) (port : Nat) :
    OGrows s0 (execTrunkRetry port s) := by
  unfold execTrunkRetry
  with_reducible repeat' first | assumption | extract_lets | apply Grows.ite | apply OGrows.done | apply grows_portTo

theorem grows_execTrunkLinkDown {s0 s : State} (g0 : Grows s0 s) (port : Nat) (cause : Nat) :
    OGrows s0 (execTrunkLinkDown port cause s) := by
  unfold execTrunkLinkDown
  with_reducible repeat' first | assumption | extract_lets | apply Grows.ite | apply OGrows.done | apply grows_portTo

theorem grows_execTrunkCellSend {s0 s : State} (g0 : Grows s0 s) (port : Nat) (slot : Nat) :
    OGrows s0 (execTrunkCellSend port slot s) := by
  unfold execTrunkCellSend
  with_reducible repeat' first
      | assumption | extract_lets | apply Grows.ite | apply OGrows.done | apply grows_cellSend

theorem grows_holdCell {s0 s : State} (g0 : Grows s0 s) (p : Nat) (arrival : Nat) (wv : Nat) (payload : List Byte) :
    Grows s0 (holdCell s p arrival wv payload) := by
  unfold holdCell
  with_reducible repeat' first | assumption | extract_lets | apply Grows.ite | apply grows_updPort

theorem grows_msgCell {s0 s : State} (g0 : Grows s0 s) (p : Nat) (hh : CellHdr) (payload : List Byte) :
    Grows s0 (msgCell s p hh payload) := by
  unfold msgCell
  with_reducible repeat' first | assumption | extract_lets | apply Grows.ite | apply grows_updPort

theorem grows_takeCell {s0 s : State} (g0 : Grows s0 s) (p : Nat) (arrival : Nat) (hh : CellHdr)
    (payload : List Byte) :
    Grows s0 (takeCell s p arrival hh payload) := by
  unfold takeCell
  with_reducible repeat' first
      | assumption | extract_lets | apply Grows.ite | apply grows_markSkew | apply grows_updPort | apply grows_bump
      | apply grows_holdCell | apply grows_msgCell

theorem grows_cellReceive {s0 s : State} (g0 : Grows s0 s) (p : Nat) (c : BitVec 800) (arrival : Nat)
    (uncorrectable : Bool) :
    Grows s0 (cellReceive s p c arrival uncorrectable) := by
  unfold cellReceive
  with_reducible repeat' first
      | assumption | extract_lets | apply Grows.ite | apply grows_updPort | apply grows_bump | apply grows_takeCell
      | split | fail_if_no_progress refine Grows.lit ?_

theorem grows_execTrunkCellReceive {s0 s : State} (g0 : Grows s0 s) (port : Nat) (cell : BitVec 800)
    (arrival : Nat) (uncorrectable : Bool) :
    OGrows s0 (execTrunkCellReceive port cell arrival uncorrectable s) := by
  unfold execTrunkCellReceive
  with_reducible repeat' first
      | assumption | extract_lets | apply Grows.ite | apply OGrows.done | apply grows_cellReceive

theorem grows_execMessageForward {s0 s : State} (g0 : Grows s0 s) (port : Nat) :
    OGrows s0 (execMessageForward port s) := by
  unfold execMessageForward
  with_reducible repeat' first | assumption | extract_lets | apply OGrows.done | apply grows_messageForward

theorem grows_execRouteDrainEnd {s0 s : State} (g0 : Grows s0 s) :
    OGrows s0 (execRouteDrainEnd s) := by
  unfold execRouteDrainEnd
  with_reducible repeat' first
      | assumption | extract_lets | apply Grows.ite | apply OGrows.done | fail_if_no_progress refine Grows.lit ?_

/-! ## RxRing -/

theorem grows_writeDescs {s0 s : State} (g0 : Grows s0 s) (x : Queue) (m : RxInfo) (l : List (RxBuf × List Byte)) :
    Grows s0 (writeDescs s x m l) := by
  unfold writeDescs
  with_reducible repeat' first
      | assumption | (intro x) | extract_lets | apply Grows.foldl | apply grows_hostWrite | split
      | fail_if_no_progress refine Grows.lit ?_

theorem grows_writeData {s0 s : State} (g0 : Grows s0 s) (f : Nat) (l : List (RxBuf × List Byte)) :
    Grows s0 (writeData s f l) := by
  unfold writeData
  with_reducible repeat' first | assumption | (intro x) | extract_lets | apply Grows.foldl | apply grows_hostWrite

theorem grows_deliver {s0 s : State} (g0 : Grows s0 s) (q : Nat) (m : RxInfo) (bytes : List Byte) :
    Grows s0 (deliver s q m bytes).1 := by
  unfold deliver
  with_reducible repeat' first
      | assumption | extract_lets | apply Grows.pite | apply grows_writeDescs | apply grows_writeData
      | apply grows_ringVector | apply grows_countDead | split | fail_if_no_progress refine Grows.lit ?_

/-! ## Egress -/

theorem grows_sendDone {s0 s : State} (g0 : Grows s0 s) (q : Nat) (n : Nat) (st : Nat) (stamp : Option Nat) :
    Grows s0 (sendDone s q n st stamp) := by
  unfold sendDone
  with_reducible repeat' first
      | assumption | (intro x) | extract_lets | apply Grows.foldl | apply grows_txEntryDone | split

theorem grows_cnt {s0 s : State} (g0 : Grows s0 s) (port : Nat) (sub : Nat) (o : Nat) (n : Nat) :
    Grows s0 (cnt s port sub o n) := by
  unfold cnt
  with_reducible repeat' first | assumption | apply grows_bump

theorem grows_malformedSend {s0 s : State} (g0 : Grows s0 s) (q : Nat) (es : List (List Byte)) :
    Grows s0 (malformedSend s q es) := by
  unfold malformedSend
  with_reducible repeat' first
      | assumption | extract_lets | apply Grows.ite | apply grows_cnt | apply grows_sendDone | apply grows_orReg

theorem grows_readSend {s0 s : State} (g0 : Grows s0 s) (f : Nat) (a2 : List (List Byte)) :
    Grows s0 (readSend s f a2).1 := by
  induction a2 generalizing s with
  | nil =>
    unfold readSend
    with_reducible repeat' first | assumption
  | cons _ _ ih =>
    unfold readSend
    with_reducible repeat' first | apply ih | assumption | extract_lets | apply grows_hostRead | split

theorem grows_enqueue {s0 s : State} (g0 : Grows s0 s) (q : Nat) (it : TxItem) :
    Grows s0 (enqueue s q it) := by
  unfold enqueue
  with_reducible repeat' first | assumption | extract_lets | fail_if_no_progress refine Grows.lit ?_

theorem grows_queueSend {s0 s : State} (g0 : Grows s0 s) (q : Nat) (es : List (List Byte)) (data : List Byte) :
    Grows s0 (queueSend s q es data) := by
  unfold queueSend
  with_reducible repeat' first
      | assumption | (intro x) | extract_lets | apply Grows.ite | apply Grows.foldl | apply grows_cnt
      | apply grows_sendDone | apply grows_enqueue | fail_if_no_progress refine Grows.lit ?_

theorem grows_txFrame {s0 s : State} (g0 : Grows s0 s) (q : Nat) :
    Grows s0 (txFrame s q) := by
  unfold txFrame
  with_reducible repeat' first
      | assumption | extract_lets | apply Grows.ite | apply grows_sendDone | apply grows_cnt
      | apply grows_malformedSend | apply grows_readSend | apply grows_queueSend | split

theorem grows_dropPartial {s0 s : State} (g0 : Grows s0 s) (k : Nat) :
    Grows s0 (dropPartial s k) := by
  unfold dropPartial
  with_reducible repeat' first | assumption | extract_lets | fail_if_no_progress refine Grows.lit ?_

theorem grows_linkChange {s0 s : State} (g0 : Grows s0 s) (port : Nat) (sub : Nat) (up : Bool) :
    Grows s0 (linkChange s port sub up) := by
  unfold linkChange
  with_reducible repeat' first
      | assumption | extract_lets | apply Grows.ite | apply grows_orReg | apply grows_dropPartial | apply grows_clrReg

theorem grows_execMacLinkChange {s0 s : State} (g0 : Grows s0 s) (port : Nat) (sub : Nat) (up : Bool) :
    OGrows s0 (execMacLinkChange port sub up s) := by
  unfold execMacLinkChange
  with_reducible repeat' first
      | assumption | extract_lets | apply Grows.ite | apply OGrows.done | apply grows_linkChange

theorem grows_countFrame {s0 s : State} (g0 : Grows s0 s) (port : Nat) (sub : Nat) (base : Nat) (b : List Byte)
    (octets : Nat) (band : Nat) :
    Grows s0 (countFrame s port sub base b octets band) := by
  unfold countFrame
  with_reducible repeat' first | assumption | extract_lets | apply grows_cnt

theorem grows_freeHold {s0 s : State} (g0 : Grows s0 s) (i : Nat) (n : Nat) :
    Grows s0 (freeHold s i n) := by
  unfold freeHold
  with_reducible repeat' first | assumption | fail_if_no_progress refine Grows.lit ?_

theorem grows_updHold {s0 s : State} (g0 : Grows s0 s) (i : Nat) (n : Nat) (f : Hold → Hold) :
    Grows s0 (updHold s i n f) := by
  unfold updHold
  with_reducible repeat' first | assumption | fail_if_no_progress refine Grows.lit ?_

theorem grows_egsWrite {s0 s : State} (g0 : Grows s0 s) (q : Nat) (w : Nat) :
    Grows s0 (egsWrite s q w) := by
  unfold egsWrite
  with_reducible repeat' first | assumption | extract_lets | apply Grows.ite | apply grows_orReg | apply grows_setReg

theorem grows_settle {s0 s : State} (g0 : Grows s0 s) (i : Nat) (n : Nat) :
    Grows s0 (settle s i n) := by
  unfold settle
  with_reducible repeat' first | assumption | extract_lets | apply Grows.ite | apply grows_freeHold

theorem grows_protectTx {s0 s : State} (g0 : Grows s0 s) (port : Nat) (sub : Nat) (b : List Byte) :
    Grows s0 (protectTx s port sub b).1 := by
  unfold protectTx
  with_reducible repeat' first | assumption | split | fail_if_no_progress refine Grows.lit ?_

theorem grows_replyStarted {s0 s : State} (g0 : Grows s0 s) (port : Nat) (it : TxItem) (off : Nat) (len : Nat) :
    Grows s0 (replyStarted s port it off len) := by
  unfold replyStarted
  with_reducible repeat' first | assumption | extract_lets | apply Grows.ite | apply grows_updHold | split

theorem grows_startItem {s0 s : State} (g0 : Grows s0 s) (port : Nat) (sub : Nat) (off : Nat) (it : TxItem) :
    Grows s0 (startItem s port sub off it) := by
  unfold startItem
  with_reducible repeat' first
      | assumption | extract_lets | apply grows_protectTx | apply grows_replyStarted
      | fail_if_no_progress refine Grows.lit ?_

theorem grows_execTxFrame {s0 s : State} (g0 : Grows s0 s) (q : Nat) :
    OGrows s0 (execTxFrame q s) := by
  unfold execTxFrame
  with_reducible repeat' first | assumption | extract_lets | apply Grows.ite | apply OGrows.done | apply grows_txFrame

theorem grows_dropItems {s0 s : State} (g0 : Grows s0 s) (q : Nat) (gone : TxItem → Bool) :
    Grows s0 (dropItems s q gone) := by
  unfold dropItems
  with_reducible repeat' first | assumption | fail_if_no_progress refine Grows.lit ?_

theorem grows_itemStatus {s0 s : State} (g0 : Grows s0 s) (it : TxItem) (stamp : Nat) :
    Grows s0 (itemStatus s it stamp) := by
  unfold itemStatus
  with_reducible repeat' first
      | assumption | extract_lets | apply Grows.ite | apply grows_sendDone | fail_if_no_progress refine Grows.lit ?_

theorem grows_replySent {s0 s : State} (g0 : Grows s0 s) (i : Nat) (n : Nat) :
    Grows s0 (replySent s i n) := by
  unfold replySent
  with_reducible repeat' first
      | assumption | extract_lets | apply grows_bump | apply grows_settle | apply grows_updHold

theorem grows_finishFrame {s0 s : State} (g0 : Grows s0 s) (port : Nat) (sub : Nat) :
    Grows s0 (finishFrame s port sub) := by
  unfold finishFrame
  with_reducible repeat' first
      | assumption | extract_lets | apply Grows.ite | apply grows_emit | apply grows_countFrame
      | apply grows_itemStatus | apply grows_replySent | split | fail_if_no_progress refine Grows.lit ?_

theorem grows_dropBarred {s0 s : State} (g0 : Grows s0 s) (q : Nat) :
    Grows s0 (dropBarred s q) := by
  unfold dropBarred
  with_reducible repeat' first
      | assumption | (intro x) | extract_lets | apply Grows.ite | apply Grows.foldl | apply grows_dropItems
      | apply grows_incReg | apply grows_settle | apply grows_updHold | split

theorem grows_popRing {s0 s : State} (g0 : Grows s0 s) (q : Nat) :
    Grows s0 (popRing s q) := by
  unfold popRing
  with_reducible repeat' first | assumption | extract_lets | fail_if_no_progress refine Grows.lit ?_

theorem grows_sendRing {s0 s : State} (g0 : Grows s0 s) (port : Nat) (sub : Nat) (off : Nat) (q0 : Nat) :
    Grows s0 (sendRing s port sub off q0) := by
  unfold sendRing
  with_reducible repeat' first
      | assumption | extract_lets | apply grows_startItem | apply grows_popRing | split
      | fail_if_no_progress refine Grows.lit ?_

theorem grows_choose {s0 s : State} (g0 : Grows s0 s) (port : Nat) (sub : Nat) (off : Nat) :
    Grows s0 (choose s port sub off) := by
  unfold choose
  with_reducible repeat' first
      | assumption | extract_lets | apply Grows.ite | apply grows_startItem | apply grows_sendRing | split
      | fail_if_no_progress refine Grows.lit ?_

theorem grows_egressChoice {s0 s : State} (g0 : Grows s0 s) (port : Nat) (sub : Nat) (off : Nat) :
    Grows s0 (egressChoice s port sub off) := by
  unfold egressChoice
  with_reducible repeat' first
      | assumption | (intro x) | extract_lets | apply Grows.ite | apply Grows.foldl | apply grows_finishFrame
      | apply grows_dropBarred | apply grows_choose | fail_if_no_progress refine Grows.lit ?_

theorem grows_execEgressChoice {s0 s : State} (g0 : Grows s0 s) (port : Nat) (sub : Nat) (off : Nat) :
    OGrows s0 (execEgressChoice port sub off s) := by
  unfold execEgressChoice
  with_reducible repeat' first
      | assumption | extract_lets | apply Grows.ite | apply OGrows.done | apply grows_egressChoice

theorem grows_portDown {s0 s : State} (g0 : Grows s0 s) (port : Nat) :
    Grows s0 (portDown s port) := by
  unfold portDown
  with_reducible repeat' first | assumption | (intro x) | apply Grows.ite | apply Grows.foldl | apply grows_linkChange

theorem grows_newSplit {s0 s : State} (g0 : Grows s0 s) (port : Nat) (data : Nat) :
    Grows s0 (newSplit s port data) := by
  unfold newSplit
  with_reducible repeat' first
      | assumption | extract_lets | apply grows_setReg | apply grows_sourcesFollow | apply grows_portDown

theorem grows_macSplit {s0 s : State} (g0 : Grows s0 s) (port : Nat) (data : Nat) :
    Grows s0 (macSplit s port data) := by
  unfold macSplit
  with_reducible repeat' first
      | assumption | extract_lets | apply Grows.ite | apply grows_orReg | apply grows_setReg | apply grows_newSplit
      | apply grows_portDown

theorem grows_execMacSplitWrite {s0 s : State} (g0 : Grows s0 s) (v : View) (port : Nat) (data : BitVec 32) :
    OGrows s0 (execMacSplitWrite v port data s) := by
  unfold execMacSplitWrite
  with_reducible repeat' first
      | assumption | extract_lets | apply Grows.ite | apply OGrows.done | apply grows_macSplit

theorem grows_execEgsRingWrite {s0 s : State} (g0 : Grows s0 s) (v : View) (q : Nat) (data : BitVec 64) :
    OGrows s0 (execEgsRingWrite v q data s) := by
  unfold execEgsRingWrite
  with_reducible repeat' first
      | assumption | extract_lets | apply Grows.ite | apply OGrows.done | apply grows_egsWrite

/-! ## CutThrough -/

theorem grows_unbindBody {s0 s : State} (g0 : Grows s0 s) (hh : CmdHdr) (entryQ : Nat) (i : Nat) :
    Grows s0 (unbindBody hh entryQ s i).state := by
  unfold unbindBody
  with_reducible repeat' first
      | assumption | extract_lets | apply Grows.rite | apply grows_refuse | apply grows_acceptAt
      | apply grows_addEffect | split | fail_if_no_progress refine Grows.lit ?_

theorem grows_takeUnbind {s0 s : State} (g0 : Grows s0 s) (i : Nat) :
    Grows s0 (takeUnbind s i) := by
  unfold takeUnbind
  with_reducible repeat' first | assumption | fail_if_no_progress refine Grows.lit ?_

theorem grows_execReplySeqGrant {s0 s : State} (g0 : Grows s0 s) (die : Nat) (dom : Nat) :
    OGrows s0 (execReplySeqGrant die dom s) := by
  unfold execReplySeqGrant
  with_reducible repeat' first
      | assumption | extract_lets | apply Grows.ite | apply OGrows.done | fail_if_no_progress refine Grows.lit ?_

theorem grows_cutBit {s0 s : State} (g0 : Grows s0 s) (m : Nat) :
    Grows s0 (cutBit s m) := by
  unfold cutBit
  with_reducible repeat' first | assumption | apply grows_orReg

theorem grows_cutCount {s0 s : State} (g0 : Grows s0 s) (o : Nat) :
    Grows s0 (cutCount s o) := by
  unfold cutCount
  with_reducible repeat' first | assumption | apply grows_bump

theorem grows_cutBad {s0 s : State} (g0 : Grows s0 s) (o : Nat) :
    Grows s0 (cutBad s o) := by
  unfold cutBad
  with_reducible repeat' first | assumption | extract_lets | apply grows_cutBit | apply grows_cutCount

theorem grows_abandonRequest {s0 s : State} (g0 : Grows s0 s) (i : Nat) (n : Nat) :
    Grows s0 (abandonRequest s i n) := by
  unfold abandonRequest
  with_reducible repeat' first | assumption | extract_lets | apply grows_freeHold | apply grows_cutBad

theorem grows_descriptors {s0 s : State} (g0 : Grows s0 s) (i : Nat) (n : Nat) (ct : List Byte) :
    Grows s0 (descriptors s i n ct) := by
  unfold descriptors
  with_reducible repeat' first
      | assumption | extract_lets | apply Grows.ite | apply grows_abandonRequest | apply grows_updHold

theorem grows_execRequestDescriptorsArrived {s0 s : State} (g0 : Grows s0 s) (port : Nat) (sub : Nat)
    (body : List Byte) (off : Nat) :
    OGrows s0 (execRequestDescriptorsArrived port sub body off s) := by
  unfold execRequestDescriptorsArrived
  with_reducible repeat' first
      | assumption | extract_lets | apply Grows.ite | apply OGrows.done | apply grows_descriptors | split
      | fail_if_no_progress refine Grows.lit ?_

theorem grows_decideRequest {s0 s : State} (g0 : Grows s0 s) (port : Nat) (sub : Nat) (fr : RxFrame) (q : Nat)
    (o : Nat) (clear : List Byte) (raw : List Byte) :
    Grows s0 (decideRequest s port sub fr q o clear raw).1 := by
  unfold decideRequest
  with_reducible repeat' first
      | assumption | extract_lets | apply Grows.pite | apply grows_cutCount | apply grows_cutBad
      | apply grows_countDead | apply grows_cutBit | split | fail_if_no_progress refine Grows.lit ?_

theorem grows_passRequest {s0 s : State} (g0 : Grows s0 s) (i : Nat) (n : Nat) (bytes : List Byte) :
    Grows s0 (passRequest s i n bytes) := by
  unfold passRequest
  with_reducible repeat' first
      | assumption | extract_lets | apply Grows.ite | apply grows_deliver | apply grows_settle
      | fail_if_no_progress refine Grows.lit ?_

theorem grows_unsent {s0 s : State} (g0 : Grows s0 s) (i : Nat) (n : Nat) :
    Grows s0 (unsent s i n) := by
  unfold unsent
  with_reducible repeat' first
      | assumption | extract_lets | apply grows_settle | apply grows_updHold | apply grows_cutCount

theorem grows_writeRecall {s0 s : State} (g0 : Grows s0 s) (b : Binding) (hh : Hold) (kind : Nat) (code : Nat)
    (wire : Nat) :
    Grows s0 (writeRecall s b hh kind code wire) := by
  unfold writeRecall
  with_reducible repeat' first
      | assumption | extract_lets | apply grows_deliver | fail_if_no_progress refine Grows.lit ?_

theorem grows_stompReply {s0 s : State} (g0 : Grows s0 s) (i : Nat) (n : Nat) :
    Grows s0 (stompReply s i n) := by
  unfold stompReply
  with_reducible repeat' first | assumption | fail_if_no_progress refine Grows.lit ?_

theorem grows_drawSeq {s0 s t : State} {die dom e : Nat} (h : Grows s0 s)
    (g : drawSeq s die dom = some (e, t)) : Grows s0 t := by
  unfold drawSeq at g
  extract_lets b at g
  by_cases c : b.left = 0
  · rw [if_pos c] at g
    cases g
  · rw [if_neg c] at g
    cases g
    exact Grows.lit h

theorem grows_handRecall {s0 s : State} (g0 : Grows s0 s) (i n : Nat) : Grows s0 (handRecall s i n) := by
  unfold handRecall
  extract_lets b
  split
  · exact g0
  · rename_i h
    exact grows_settle (grows_cutCount (grows_enqueue (grows_updHold (grows_drawSeq g0 h) _ _ _) _ _) _) _ _

theorem grows_recallReply {s0 s : State} (g0 : Grows s0 s) (i : Nat) (n : Nat) (code : Nat) (wire : Nat) :
    Grows s0 (recallReply s i n code wire) := by
  unfold recallReply
  with_reducible repeat' first
      | assumption | extract_lets | apply Grows.ite | apply grows_writeRecall | apply grows_cutBit
      | apply grows_updHold | apply grows_handRecall

theorem grows_failReply {s0 s : State} (g0 : Grows s0 s) (i : Nat) (n : Nat) (code : Nat) (now : Nat) (wire : Nat) :
    Grows s0 (failReply s i n code now wire) := by
  unfold failReply
  with_reducible repeat' first
      | assumption | extract_lets | apply Grows.ite | apply grows_settle | apply grows_updHold | apply grows_unsent
      | apply grows_dropItems | apply grows_writeRecall | apply grows_stompReply | apply grows_cutBit
      | apply grows_cutCount | apply grows_recallReply | split

theorem grows_takeVerdict {s0 s : State} (g0 : Grows s0 s) (i : Nat) (n : Nat) (bytes : List Byte) (ended : Bool)
    (now : Nat) :
    Grows s0 (takeVerdict s i n bytes ended now) := by
  unfold takeVerdict
  with_reducible repeat' first
      | assumption | extract_lets | apply Grows.ite | apply grows_updHold | apply grows_passRequest
      | apply grows_failReply | apply grows_cutCount

theorem grows_execVerdict {s0 s : State} (g0 : Grows s0 s) (port : Nat) (sub : Nat) (bytes : List Byte)
    (ended : Bool) (off : Nat) :
    OGrows s0 (execVerdict port sub bytes ended off s) := by
  unfold execVerdict
  with_reducible repeat' first
      | assumption | extract_lets | apply OGrows.done | apply grows_takeVerdict | split
      | fail_if_no_progress refine Grows.lit ?_

theorem grows_handReply {s0 s : State} (g0 : Grows s0 s) (i n : Nat) (early : Bool) :
    Grows s0 (handReply s i n early) := by
  unfold handReply
  extract_lets b
  split
  · exact g0
  · rename_i h
    exact grows_enqueue (grows_updHold (grows_drawSeq g0 h) _ _ _) _ _

theorem grows_handover {s0 s : State} (g0 : Grows s0 s) (i : Nat) (n : Nat) (now : Nat) :
    Grows s0 (handover s i n now) := by
  unfold handover
  with_reducible repeat' first
      | assumption | extract_lets | apply Grows.ite | apply grows_settle | apply grows_updHold | apply grows_incReg
      | apply grows_handReply | apply grows_unsent | split

theorem grows_execReplyHandover {s0 s : State} (g0 : Grows s0 s) (binding : Nat) (hold : Nat) (off : Nat) :
    OGrows s0 (execReplyHandover binding hold off s) := by
  unfold execReplyHandover
  with_reducible repeat' first
      | assumption | extract_lets | apply Grows.ite | apply OGrows.done | apply grows_handRecall
      | apply grows_handover | fail_if_no_progress refine Grows.lit ?_

theorem grows_bindBody {s0 s : State} (g0 : Grows s0 s) (hh : CmdHdr) (entryQ : Nat) (replyRing : Nat) (bulkQ : Nat)
    (recallQ : Nat) (tenant : Nat) (model : Nat) (fOut : Nat) (bulkEn : Nat) (descN : Nat) (descAddr : Nat) (a11 : Nat) :
    Grows s0 (bindBody hh entryQ replyRing bulkQ recallQ tenant model fOut bulkEn descN descAddr s a11).state := by
  unfold bindBody
  with_reducible repeat' first
      | assumption | extract_lets | apply Grows.rite | apply grows_refuse | apply grows_hostRead
      | apply grows_acceptAt | split | fail_if_no_progress refine Grows.lit ?_

theorem grows_execBind {s0 s : State} (g0 : Grows s0 s) (hh : CmdHdr) (entryQ : Nat) (replyRing : Nat)
    (bulkQ : Nat) (recallQ : Nat) (tenant : Nat) (model : Nat) (fOut : Nat) (bulkEn : Nat) (descN : Nat) (descAddr : Nat) :
    OGrows s0 (execBind hh entryQ replyRing bulkQ recallQ tenant model fOut bulkEn descN descAddr s) := by
  unfold execBind
  with_reducible repeat' first
      | assumption | (intro x) | extract_lets | apply OGrows.done | apply grows_takeCommand | apply grows_bindBody

theorem grows_execUnbind {s0 s : State} (g0 : Grows s0 s) (hh : CmdHdr) (entryQ : Nat) :
    OGrows s0 (execUnbind hh entryQ s) := by
  unfold execUnbind
  with_reducible repeat' first
      | assumption | (intro x) | extract_lets | apply OGrows.done | apply grows_takeCommand | apply grows_unbindBody

/-! ## Frames -/

theorem grows_takeSrtSwap {s0 s : State} (g0 : Grows s0 s) :
    Grows s0 (takeSrtSwap s) := by
  unfold takeSrtSwap
  with_reducible repeat' first
      | assumption | extract_lets | apply grows_orReg | fail_if_no_progress refine Grows.lit ?_

theorem grows_removeRx {s0 s : State} (g0 : Grows s0 s) (port : Nat) (sub : Nat) (fr : RxFrame) :
    Grows s0 (removeRx s port sub fr) := by
  unfold removeRx
  with_reducible repeat' first | assumption | fail_if_no_progress refine Grows.lit ?_

theorem grows_countKept {s0 s : State} (g0 : Grows s0 s) (port : Nat) (sub : Nat) (b : List Byte) :
    Grows s0 (countKept s port sub b) := by
  unfold countKept
  with_reducible repeat' first | assumption | extract_lets | apply Grows.ite | apply grows_cnt

theorem grows_countRx {s0 s : State} (g0 : Grows s0 s) (port : Nat) (sub : Nat) (b : List Byte) :
    Grows s0 (countRx s port sub b) := by
  unfold countRx
  with_reducible repeat' first | assumption | apply grows_countFrame

theorem grows_complete {s0 s : State} (g0 : Grows s0 s) (port : Nat) (sub : Nat) (fr : RxFrame) (b : List Byte) :
    Grows s0 (complete s port sub fr b) := by
  unfold complete
  with_reducible repeat' first
      | assumption | extract_lets | apply Grows.ite | apply grows_cnt | apply grows_countRx | apply grows_deliver
      | fail_if_no_progress refine Grows.lit ?_

theorem grows_replaceRx {s0 s : State} (g0 : Grows s0 s) (port : Nat) (sub : Nat) (fr : RxFrame) (fr' : RxFrame) :
    Grows s0 (replaceRx s port sub fr fr') := by
  unfold replaceRx
  with_reducible repeat' first | assumption | fail_if_no_progress refine Grows.lit ?_

theorem grows_keepPart {s0 s : State} (g0 : Grows s0 s) (port : Nat) (sub : Nat) (fr : RxFrame) (b : List Byte) :
    Grows s0 (keepPart s port sub fr b) := by
  unfold keepPart
  with_reducible repeat' first
      | assumption | extract_lets | apply grows_replaceRx | fail_if_no_progress refine Grows.lit ?_

theorem grows_frameEnd {s0 s : State} (g0 : Grows s0 s) (port : Nat) (sub : Nat) (fr : RxFrame) (b : List Byte) :
    Grows s0 (frameEnd s port sub fr b) := by
  unfold frameEnd
  with_reducible repeat' first
      | assumption | extract_lets | apply Grows.ite | apply grows_secTaken | apply grows_cnt | apply grows_removeRx
      | apply grows_countKept | apply grows_complete | apply grows_keepPart | split

theorem grows_countLine {s0 s : State} (g0 : Grows s0 s) (port : Nat) (sub : Nat) :
    Grows s0 (countLine s port sub) := by
  unfold countLine
  with_reducible repeat' first
      | assumption | extract_lets | apply Grows.ite | apply grows_orReg | apply grows_cnt
      | fail_if_no_progress refine Grows.lit ?_

theorem grows_execFrameEnd {s0 s : State} (g0 : Grows s0 s) (port : Nat) (sub : Nat) (bytes : List Byte) (off : Nat) :
    OGrows s0 (execFrameEnd port sub bytes off s) := by
  unfold execFrameEnd
  with_reducible repeat' first
      | assumption | extract_lets | apply OGrows.done | exact OGrows.fault | apply grows_frameEnd
      | apply grows_countLine | split | fail_if_no_progress refine Grows.lit ?_

theorem grows_installSak {s0 s : State} (g0 : Grows s0 s) (port : Nat) (sub : Nat) (chan : Nat) (an : Nat)
    (suite : Nat) (key : List Byte) :
    Grows s0 (installSak s port sub chan an suite key) := by
  unfold installSak
  with_reducible repeat' first | assumption | extract_lets | fail_if_no_progress refine Grows.lit ?_

theorem grows_macsecBody {s0 s : State} (g0 : Grows s0 s) (port : Nat) (sub : Nat) (chan : Nat) (an : Nat)
    (suite : Nat) (src : Nat) (a7 : Nat) :
    Grows s0 (macsecBody port sub chan an suite src s a7).state := by
  unfold macsecBody
  with_reducible repeat' first
      | assumption | extract_lets | apply grows_hostRead | apply grows_accept | apply grows_installSak
      | apply grows_refuse | split

theorem grows_shadowWrite {s0 s : State} (g0 : Grows s0 s) (byteOff : Nat) (size : Nat) (data : Nat) :
    Grows s0 (shadowWrite s byteOff size data) := by
  unfold shadowWrite
  with_reducible repeat' first
      | assumption | extract_lets | apply Grows.ite | apply grows_orReg | fail_if_no_progress refine Grows.lit ?_

theorem grows_execSrtShadowRuleWrite {s0 s : State} (g0 : Grows s0 s) (v : View) (byteOff : Nat) (size : Nat)
    (data : BitVec 64) :
    OGrows s0 (execSrtShadowRuleWrite v byteOff size data s) := by
  unfold execSrtShadowRuleWrite
  with_reducible repeat' first
      | assumption | extract_lets | apply Grows.ite | apply OGrows.done | apply grows_shadowWrite

theorem grows_frameSfd {s0 s : State} (g0 : Grows s0 s) (port : Nat) (sub : Nat) (off : Nat) :
    Grows s0 (frameSfd s port sub off) := by
  unfold frameSfd
  with_reducible repeat' first
      | assumption | extract_lets | apply Grows.ite | apply grows_orReg | apply grows_cnt
      | fail_if_no_progress refine Grows.lit ?_

theorem grows_execFrameSfd {s0 s : State} (g0 : Grows s0 s) (port : Nat) (sub : Nat) (off : Nat) :
    OGrows s0 (execFrameSfd port sub off s) := by
  unfold execFrameSfd
  with_reducible repeat' first
      | assumption | extract_lets | apply Grows.ite | apply OGrows.done | apply grows_frameSfd
      | fail_if_no_progress refine Grows.lit ?_

theorem grows_execSrtCopyDone {s0 s : State} (g0 : Grows s0 s) :
    OGrows s0 (execSrtCopyDone s) := by
  unfold execSrtCopyDone
  with_reducible repeat' first
      | assumption | extract_lets | apply Grows.ite | apply OGrows.done | apply grows_orReg
      | fail_if_no_progress refine Grows.lit ?_

theorem grows_srtSwapBody {s0 s : State} (g0 : Grows s0 s) (hh : CmdHdr) (i : Nat) :
    Grows s0 (srtSwapBody hh s i).state := by
  unfold srtSwapBody
  with_reducible repeat' first
      | assumption | extract_lets | apply Grows.rite | apply grows_refuse | apply grows_refuseAt
      | apply grows_acceptAt | apply grows_addEffect | split | fail_if_no_progress refine Grows.lit ?_

theorem grows_countHit {s0 s : State} (g0 : Grows s0 s) (fr : RxFrame) :
    Grows s0 (countHit s fr) := by
  unfold countHit
  with_reducible repeat' first | assumption | apply grows_bump | split

theorem grows_decideFrame {s0 s : State} (g0 : Grows s0 s) (port : Nat) (sub : Nat) (fr : RxFrame) (raw : List Byte) :
    Grows s0 (decideFrame s port sub fr raw).1 := by
  unfold decideFrame
  with_reducible repeat' first
      | assumption | extract_lets | apply Grows.pite | apply grows_countHit | apply grows_decideRequest | split

theorem grows_headerDecision {s0 s : State} (g0 : Grows s0 s) (port : Nat) (sub : Nat) (fr : RxFrame)
    (hdr : List Byte) :
    Grows s0 (headerDecision s port sub fr hdr) := by
  unfold headerDecision
  with_reducible repeat' first
      | assumption | extract_lets | apply grows_decideFrame | apply grows_complete | apply grows_removeRx
      | apply grows_replaceRx | split

theorem grows_execFrameHeaderDecision {s0 s : State} (g0 : Grows s0 s) (port : Nat) (sub : Nat) (hdr : List Byte)
    (off : Nat) :
    OGrows s0 (execFrameHeaderDecision port sub hdr off s) := by
  unfold execFrameHeaderDecision
  with_reducible repeat' first
      | assumption | extract_lets | apply OGrows.done | apply grows_headerDecision | split
      | fail_if_no_progress refine Grows.lit ?_

theorem grows_execSrtSwap {s0 s : State} (g0 : Grows s0 s) (hh : CmdHdr) :
    OGrows s0 (execSrtSwap hh s) := by
  unfold execSrtSwap
  with_reducible repeat' first
      | assumption | (intro x) | extract_lets | apply OGrows.done | apply grows_takeCommand | apply grows_srtSwapBody

theorem grows_execMacsecSak {s0 s : State} (g0 : Grows s0 s) (hh : CmdHdr) (port : Nat) (sub : Nat) (chan : Nat)
    (an : Nat) (suite : Nat) (src : Nat) :
    OGrows s0 (execMacsecSak hh port sub chan an suite src s) := by
  unfold execMacsecSak
  with_reducible repeat' first
      | assumption | (intro x) | extract_lets | apply OGrows.done | apply grows_takeCommand | apply grows_macsecBody

/-! ## Radio -/

theorem grows_takeCarrier {s0 s : State} (g0 : Grows s0 s) (c : Nat) (x : Carrier) :
    Grows s0 (takeCarrier s c x) := by
  unfold takeCarrier
  with_reducible repeat' first | assumption | fail_if_no_progress refine Grows.lit ?_

theorem grows_takeCarrierRemove {s0 s : State} (g0 : Grows s0 s) (c : Nat) :
    Grows s0 (takeCarrierRemove s c) := by
  unfold takeCarrierRemove
  with_reducible repeat' first | assumption | fail_if_no_progress refine Grows.lit ?_

theorem grows_radBit {s0 s : State} (g0 : Grows s0 s) (m : Nat) :
    Grows s0 (radBit s m) := by
  unfold radBit
  with_reducible repeat' first | assumption | apply grows_orReg

theorem grows_carrierCfgBody {s0 s : State} (g0 : Grows s0 s) (hh : CmdHdr) (c : Nat) (addr : Nat)
    (boundary : Nat) (i : Nat) :
    Grows s0 (carrierCfgBody hh c addr boundary s i).state := by
  unfold carrierCfgBody
  with_reducible repeat' first
      | assumption | extract_lets | apply Grows.rite | apply grows_hostRead | apply grows_refuse
      | apply grows_refuseAt | apply grows_acceptAt | apply grows_addEffect | split

theorem grows_radCount {s0 s : State} (g0 : Grows s0 s) (c : Nat) (o : Nat) (n : Nat) :
    Grows s0 (radCount s c o n) := by
  unfold radCount
  with_reducible repeat' first | assumption | apply grows_bump

theorem grows_uplaneReceive {s0 s : State} (g0 : Grows s0 s) (port : Nat) (sub : Nat) (c : Nat) (symbol : Nat)
    (prb : Nat) (iq : List (ℤ × ℤ)) (exp : Nat) (timeNs : Nat) (airNs : Nat) (bad : Bool) :
    Grows s0 (uplaneReceive s port sub c symbol prb iq exp timeNs airNs bad) := by
  unfold uplaneReceive
  with_reducible repeat' first
      | assumption | extract_lets | apply Grows.ite | apply grows_radBit | apply grows_radCount
      | fail_if_no_progress refine Grows.lit ?_

theorem grows_execUplaneReceive {s0 s : State} (g0 : Grows s0 s) (port : Nat) (sub : Nat) (carrier : Nat)
    (symbol : Nat) (prb : Nat) (iq : List (ℤ × ℤ)) (exp : Nat) (timeNs : Nat) (airNs : Nat) (bad : Bool) :
    OGrows s0 (execUplaneReceive port sub carrier symbol prb iq exp timeNs airNs bad s) := by
  unfold execUplaneReceive
  with_reducible repeat' first
      | assumption | extract_lets | apply Grows.ite | apply OGrows.done | apply grows_uplaneReceive

theorem grows_fhSend {s0 s : State} (g0 : Grows s0 s) (c : Nat) (q : Nat) (type : Nat) (stream : Nat)
    (body : List Byte) :
    Grows s0 (fhSend s c q type stream body) := by
  unfold fhSend
  with_reducible repeat' first
      | assumption | extract_lets | apply grows_enqueue | apply grows_radCount
      | fail_if_no_progress refine Grows.lit ?_

theorem grows_txMiss {s0 s : State} (g0 : Grows s0 s) (c : Nat) :
    Grows s0 (txMiss s c) := by
  unfold txMiss
  with_reducible repeat' first | assumption | extract_lets | apply grows_radBit | apply grows_radCount

theorem grows_sendStream {s0 s : State} (g0 : Grows s0 s) (c : Nat) (q : Nat) (symbol : Nat) (stream : Nat)
    (prbs : List (List Byte)) :
    Grows s0 (sendStream s c q symbol stream prbs) := by
  unfold sendStream
  with_reducible repeat' first | assumption | (intro x) | extract_lets | apply Grows.foldl | apply grows_fhSend

theorem grows_uplaneSend {s0 s : State} (g0 : Grows s0 s) (c : Nat) (symbol : Nat) (ws : List TWord) :
    Grows s0 (uplaneSend s c symbol ws) := by
  unfold uplaneSend
  with_reducible repeat' first
      | assumption | (intro x) | extract_lets | apply Grows.foldl | apply grows_txMiss | apply grows_sendStream
      | split | fail_if_no_progress refine Grows.lit ?_

theorem grows_takeSymbol {s0 s : State} (g0 : Grows s0 s) (c : Nat) (symbol : Nat) (ws : List TWord) :
    Grows s0 (takeSymbol s c symbol ws) := by
  unfold takeSymbol
  with_reducible repeat' first | assumption | (intro x) | fail_if_no_progress refine Grows.lit ?_

theorem grows_cplaneSend {s0 s : State} (g0 : Grows s0 s) (c : Nat) (symbol : Nat) (off : Nat) :
    Grows s0 (cplaneSend s c symbol off) := by
  unfold cplaneSend
  with_reducible repeat' first
      | assumption | (intro x) | extract_lets | apply grows_fhSend | apply grows_txMiss | apply grows_takeSymbol
      | split

theorem grows_execCplaneSend {s0 s : State} (g0 : Grows s0 s) (carrier : Nat) (symbol : AirSymbol) :
    OGrows s0 (execCplaneSend carrier symbol s) := by
  unfold execCplaneSend
  with_reducible repeat' first
      | assumption | extract_lets | apply Grows.ite | apply OGrows.ite | apply OGrows.done | exact OGrows.fault
      | apply grows_cplaneSend | split | fail_if_no_progress refine Grows.lit ?_

theorem grows_execUplaneSend {s0 s : State} (g0 : Grows s0 s) (carrier : Nat) (symbol : AirSymbol) :
    OGrows s0 (execUplaneSend carrier symbol s) := by
  unfold execUplaneSend
  with_reducible repeat' first
      | assumption | (intro x) | extract_lets | apply Grows.ite | apply OGrows.ite | apply OGrows.done
      | exact OGrows.fault | apply grows_uplaneSend | split | fail_if_no_progress refine Grows.lit ?_

theorem grows_uplinkDelivery {s0 s : State} (g0 : Grows s0 s) (c : Nat) (symbol : Nat) (airNs : Nat) (off : Nat) (t :
    Timetable) :
    Grows s0 (uplinkDelivery s c symbol airNs off t) := by
  unfold uplinkDelivery
  with_reducible repeat' first
      | assumption | (intro x) | extract_lets | apply Grows.ite | apply Grows.foldl | apply Grows.pfoldl
      | apply grows_hubPlace | apply grows_radBit | apply grows_radCount | fail_if_no_progress refine Grows.lit ?_

theorem grows_execUplinkDelivery {s0 s : State} (g0 : Grows s0 s) (carrier : Nat) (symbol : AirSymbol) :
    OGrows s0 (execUplinkDelivery carrier symbol s) := by
  unfold execUplinkDelivery
  with_reducible repeat' first
      | assumption | extract_lets | apply Grows.ite | apply OGrows.ite | apply OGrows.done | exact OGrows.fault
      | apply grows_uplinkDelivery | split | fail_if_no_progress refine Grows.lit ?_

theorem grows_ecpriBad {s0 s : State} (g0 : Grows s0 s) (port sub : Nat) : Grows s0 (ecpriBad s port sub) := by
  unfold ecpriBad
  refine grows_radBit ?_ _
  split
  · exact grows_radCount g0 _ _ _
  · exact g0

theorem grows_delayMeasurement {s0 s : State} (g0 : Grows s0 s) (port : Nat) (sub : Nat) (msg : List Byte)
    (off : Nat) :
    Grows s0 (delayMeasurement s port sub msg off) := by
  unfold delayMeasurement
  with_reducible repeat' first
      | assumption | extract_lets | apply Grows.ite | apply grows_ecpriBad | apply grows_enqueue | split
      | fail_if_no_progress refine Grows.lit ?_

theorem grows_execEcpriDelayMeasurement {s0 s : State} (g0 : Grows s0 s) (port : Nat) (sub : Nat)
    (msg : List Byte) (off : Nat) :
    OGrows s0 (execEcpriDelayMeasurement port sub msg off s) := by
  unfold execEcpriDelayMeasurement
  with_reducible repeat' first
      | assumption | extract_lets | apply Grows.ite | apply OGrows.done | apply grows_delayMeasurement
      | fail_if_no_progress refine Grows.lit ?_

theorem grows_execCarrierCfg {s0 s : State} (g0 : Grows s0 s) (hh : CmdHdr) (carrier : Nat) (addr : Nat)
    (boundary : Nat) :
    OGrows s0 (execCarrierCfg hh carrier addr boundary s) := by
  unfold execCarrierCfg
  with_reducible repeat' first
      | assumption | (intro x) | extract_lets | apply OGrows.done | apply grows_takeCommand
      | apply grows_carrierCfgBody

theorem grows_carrierRemoveBody {s0 s : State} (g0 : Grows s0 s) (hh : CmdHdr) (c : Nat) (boundary : Nat) (i : Nat) :
    Grows s0 (carrierRemoveBody hh c boundary s i).state := by
  unfold carrierRemoveBody
  with_reducible repeat' first
      | assumption | extract_lets | apply Grows.rite | apply grows_refuse | apply grows_refuseAt
      | apply grows_acceptAt | apply grows_addEffect

theorem grows_execCarrierRemove {s0 s : State} (g0 : Grows s0 s) (hh : CmdHdr) (carrier : Nat) (boundary : Nat) :
    OGrows s0 (execCarrierRemove hh carrier boundary s) := by
  unfold execCarrierRemove
  with_reducible repeat' first
      | assumption | (intro x) | extract_lets | apply OGrows.done | apply grows_takeCommand
      | apply grows_carrierRemoveBody

/-! ## Engines -/

theorem grows_waitOver {s0 s : State} (g0 : Grows s0 s) (die : Nat) (u : Nat) (x : FecJob) :
    Grows s0 (waitOver s die u x) := by
  unfold waitOver
  with_reducible repeat' first | assumption | extract_lets | apply grows_orReg | apply grows_raiseFault | split

theorem grows_updEng {s0 s : State} (g0 : Grows s0 s) (die : Nat) (f : Engines → Engines) :
    Grows s0 (updEng s die f) := by
  unfold updEng
  with_reducible repeat' first | assumption | fail_if_no_progress refine Grows.lit ?_

theorem grows_ldpcTake {s0 s : State} (g0 : Grows s0 s) (die : Nat) (port : Nat) (encode : Bool) :
    Grows s0 (ldpcTake s die port encode) := by
  unfold ldpcTake
  with_reducible repeat' first
      | assumption | extract_lets | apply Grows.ite | apply grows_updEng | split
      | fail_if_no_progress refine Grows.lit ?_

theorem grows_execLdpcEncode {s0 s : State} (g0 : Grows s0 s) (die : Nat) (port : Nat) :
    OGrows s0 (execLdpcEncode die port s) := by
  unfold execLdpcEncode
  with_reducible repeat' first
      | assumption | extract_lets | apply Grows.ite | apply OGrows.done | apply grows_ldpcTake

theorem grows_runJob {s0 s : State} (g0 : Grows s0 s) (die : Nat) (u : Nat) (now : Nat) (x : FecJob) :
    Grows s0 (runJob s die u now x) := by
  unfold runJob
  with_reducible repeat' first
      | assumption | extract_lets | apply Grows.ite | apply grows_setReg64 | apply grows_updEng | apply grows_waitOver

theorem grows_execSegRadioWaitRead {s0 s : State} (g0 : Grows s0 s) (v : View) (die : Nat) :
    OGrows s0 (execSegRadioWaitRead v die s) := by
  unfold execSegRadioWaitRead
  with_reducible repeat' first
      | assumption | extract_lets | apply Grows.ite | apply OGrows.done | apply grows_emit | apply grows_setReg64

theorem grows_execCipherMessageSubmit {s0 s : State} (g0 : Grows s0 s) (die : Nat) (stream : Nat) (ctx : Nat)
    (len : Nat) (key : Nat) :
    OGrows s0 (execCipherMessageSubmit die stream ctx len key s) := by
  unfold execCipherMessageSubmit
  with_reducible repeat' first | assumption | extract_lets | apply Grows.ite | apply OGrows.done | apply grows_updEng

theorem grows_enginePeriod {s0 s : State} (g0 : Grows s0 s) (die : Nat) (u : Nat) :
    Grows s0 (enginePeriod s die u) := by
  unfold enginePeriod
  with_reducible repeat' first
      | assumption | extract_lets | apply Grows.ite | apply grows_updEng | apply grows_runJob | apply grows_orReg
      | split | fail_if_no_progress refine Grows.lit ?_

theorem grows_execEnginePeriod {s0 s : State} (g0 : Grows s0 s) (die : Nat) (unit : Nat) :
    OGrows s0 (execEnginePeriod die unit s) := by
  unfold execEnginePeriod
  with_reducible repeat' first
      | assumption | extract_lets | apply Grows.ite | apply OGrows.done | apply grows_enginePeriod

theorem grows_execLdpcDecode {s0 s : State} (g0 : Grows s0 s) (die : Nat) (port : Nat) :
    OGrows s0 (execLdpcDecode die port s) := by
  unfold execLdpcDecode
  with_reducible repeat' first
      | assumption | extract_lets | apply Grows.ite | apply OGrows.done | apply grows_ldpcTake

theorem grows_countJob {s0 s : State} (g0 : Grows s0 s) (die : Nat) (x : FecJob) :
    Grows s0 (countJob s die x) := by
  unfold countJob
  with_reducible repeat' first
      | assumption | extract_lets | apply Grows.ite | apply grows_bump | apply grows_orReg | apply grows_raiseFault
      | split

theorem grows_returnWords {s0 s : State} (g0 : Grows s0 s) (die : Nat) (x : FecJob) :
    Grows s0 (returnWords s die x) := by
  unfold returnWords
  with_reducible repeat' first | assumption | (intro x) | extract_lets | apply Grows.foldl | apply grows_hubPlace

theorem grows_execFecReturn {s0 s : State} (g0 : Grows s0 s) (die : Nat) (port : Nat) :
    OGrows s0 (execFecReturn die port s) := by
  unfold execFecReturn
  with_reducible repeat' first
      | assumption | extract_lets | apply Grows.ite | apply OGrows.done | apply grows_countJob
      | apply grows_returnWords | apply grows_updEng | split

/-! ## Registers -/

theorem grows_writeInData {s0 s : State} (g0 : Grows s0 s) (a : Nat) (bytes : List Byte) :
    Grows s0 (writeInData s a bytes) := by
  unfold writeInData
  with_reducible repeat' first | assumption | extract_lets | apply Grows.ite | fail_if_no_progress refine Grows.lit ?_

theorem grows_eachWord {s0 s : State} (g0 : Grows s0 s) (w : State → Nat → Nat → State) (a : Nat) (size : Nat)
    (data : Nat) (g_w : ∀ y0 y1 y2, Grows s0 y0 → Grows s0 (w y0 y1 y2)) :
    Grows s0 (eachWord w s a size data) := by
  unfold eachWord
  with_reducible repeat' first | assumption | extract_lets | apply Grows.ite | apply g_w

theorem grows_latchRead {s0 s : State} (g0 : Grows s0 s) (acc : Access) (addr : Nat) :
    Grows s0 (latchRead s acc addr) := by
  unfold latchRead
  with_reducible repeat' first
      | assumption | apply grows_emit | refine Grows.litWire (List.suffix_cons _ _) ?_ | split

theorem grows_execCounterLowWordRead {s0 s : State} (g0 : Grows s0 s) (acc : Access) (addr : Nat) :
    OGrows s0 (execCounterLowWordRead acc addr s) := by
  unfold execCounterLowWordRead
  with_reducible repeat' first | assumption | extract_lets | apply OGrows.done | apply grows_latchRead

theorem grows_writeOutData {s0 s : State} (g0 : Grows s0 s) (f : Nat) (off : Nat) (bytes : List Byte) :
    Grows s0 (writeOutData s f off bytes) := by
  unfold writeOutData
  with_reducible repeat' first | assumption | extract_lets | apply Grows.ite | fail_if_no_progress refine Grows.lit ?_

theorem grows_writeVfWord {s0 s : State} (g0 : Grows s0 s) (v : View) (f : Nat) (off : Nat) (data : Nat) :
    Grows s0 (writeVfWord s v f off data) := by
  unfold writeVfWord
  with_reducible repeat' first
      | assumption | extract_lets | apply Grows.ite | apply grows_writeMapped | apply grows_releaseVec
      | fail_if_no_progress refine Grows.lit ?_

theorem grows_writeTyped {s0 s : State} (g0 : Grows s0 s) (v : View) (a : Nat) (data : Nat) :
    Grows s0 (writeTyped s v a data) := by
  unfold writeTyped
  with_reducible repeat' first
      | assumption | extract_lets | apply Grows.ite | split | fail_if_no_progress refine Grows.lit ?_
      | fail_if_no_progress refine Grows.litLife (rises_eq rfl) ?_

theorem grows_plcaFollows {s0 s : State} (g0 : Grows s0 s) :
    Grows s0 (plcaFollows s) := by
  unfold plcaFollows
  with_reducible repeat' first | assumption | fail_if_no_progress refine Grows.lit ?_

theorem grows_writePfWord {s0 s : State} (g0 : Grows s0 s) (v : View) (a : Nat) (data : Nat) :
    Grows s0 (writePfWord s v a data) := by
  unfold writePfWord
  with_reducible repeat' first
      | assumption | extract_lets | apply grows_writeMapped | apply grows_releaseVec | apply grows_writeTyped
      | apply grows_plcaFollows | split

theorem grows_regWrite {s0 s : State} (g0 : Grows s0 s) (acc : Access) (addr : Nat) (size : Nat) (data : BitVec 64) :
    Grows s0 (regWrite s acc addr size data) := by
  unfold regWrite
  with_reducible repeat' first
      | assumption | (intro x) | extract_lets | apply Grows.ite | apply grows_writeOutData | apply grows_eachWord
      | apply grows_writeVfWord | apply grows_writeInData | apply grows_writePfWord | split

theorem grows_execRegisterWrite {s0 s : State} (g0 : Grows s0 s) (acc : Access) (addr : Nat) (size : Nat)
    (data : BitVec 64) :
    OGrows s0 (execRegisterWrite acc addr size data s) := by
  unfold execRegisterWrite
  with_reducible repeat' first | assumption | extract_lets | apply OGrows.done | apply grows_regWrite

/-! ## Station -/

theorem grows_stbCount {s0 s : State} (g0 : Grows s0 s) (o : Nat) :
    Grows s0 (stbCount s o) := by
  unfold stbCount
  with_reducible repeat' first | assumption | apply grows_bump

theorem grows_stbBit {s0 s : State} (g0 : Grows s0 s) (m : Nat) :
    Grows s0 (stbBit s m) := by
  unfold stbBit
  with_reducible repeat' first | assumption | apply grows_orReg

theorem grows_stbCollide {s0 s : State} (g0 : Grows s0 s) :
    Grows s0 (stbCollide s) := by
  unfold stbCollide
  with_reducible repeat' first
      | assumption | extract_lets | apply Grows.ite | apply grows_stbCount | apply grows_stbBit
      | fail_if_no_progress refine Grows.lit ?_

theorem grows_execStbCollision {s0 s : State} (g0 : Grows s0 s) :
    OGrows s0 (execStbCollision s) := by
  unfold execStbCollision
  with_reducible repeat' first
      | assumption | extract_lets | apply Grows.ite | apply OGrows.done | apply grows_stbCollide

theorem grows_stbSent {s0 s : State} (g0 : Grows s0 s) :
    Grows s0 (stbSent s) := by
  unfold stbSent
  with_reducible repeat' first
      | assumption | extract_lets | apply grows_emit | apply grows_stbCount | split
      | fail_if_no_progress refine Grows.lit ?_

theorem grows_execStbTransmitOpportunity {s0 s : State} (g0 : Grows s0 s) (collides : Bool) :
    OGrows s0 (execStbTransmitOpportunity collides s) := by
  unfold execStbTransmitOpportunity
  with_reducible repeat' first
      | assumption | extract_lets | apply Grows.ite | apply OGrows.done | apply grows_stbCollide | apply grows_stbSent

theorem grows_statusRequest {s0 s : State} (g0 : Grows s0 s) (src : Nat) (seq : Nat) :
    Grows s0 (statusRequest s src seq) := by
  unfold statusRequest
  with_reducible repeat' first | assumption | extract_lets | apply Grows.ite | apply grows_stationQueue

theorem grows_stbKind {s0 s : State} (g0 : Grows s0 s) (b : List Byte) :
    Grows s0 (stbKind s b) := by
  unfold stbKind
  with_reducible repeat' first
      | assumption | extract_lets | apply Grows.ite | apply grows_stbCount | apply grows_statusRequest
      | fail_if_no_progress refine Grows.lit ?_

theorem grows_stbFrame {s0 s : State} (g0 : Grows s0 s) (bytes : List Byte) :
    Grows s0 (stbFrame s bytes) := by
  unfold stbFrame
  with_reducible repeat' first
      | assumption | extract_lets | apply Grows.ite | apply grows_stbCount | apply grows_stbKind

theorem grows_execStbFrame {s0 s : State} (g0 : Grows s0 s) (bytes : List Byte) :
    OGrows s0 (execStbFrame bytes s) := by
  unfold execStbFrame
  with_reducible repeat' first
      | assumption | extract_lets | apply Grows.ite | apply OGrows.done | apply grows_stbFrame

theorem grows_execStbStatusRequest {s0 s : State} (g0 : Grows s0 s) (src : BitVec 48) (seq : BitVec 16) :
    OGrows s0 (execStbStatusRequest src seq s) := by
  unfold execStbStatusRequest
  with_reducible repeat' first | assumption | extract_lets | apply OGrows.done | apply grows_statusRequest

theorem grows_execStbBackoffExpiry {s0 s : State} (g0 : Grows s0 s) :
    OGrows s0 (execStbBackoffExpiry s) := by
  unfold execStbBackoffExpiry
  with_reducible repeat' first
      | assumption | extract_lets | apply OGrows.done | fail_if_no_progress refine Grows.lit ?_

theorem grows_execPlcaLost {s0 s : State} (g0 : Grows s0 s) :
    OGrows s0 (execPlcaLost s) := by
  unfold execPlcaLost
  with_reducible repeat' first
      | assumption | extract_lets | apply Grows.ite | apply OGrows.done | apply grows_stbBit
      | fail_if_no_progress refine Grows.lit ?_

theorem grows_execResetHeldNotice {s0 s : State} (g0 : Grows s0 s) :
    OGrows s0 (execResetHeldNotice s) := by
  unfold execResetHeldNotice
  with_reducible repeat' first
      | assumption | extract_lets | apply Grows.ite | apply OGrows.done | apply grows_stationQueue

theorem grows_plcaBeacon {s0 s : State} (g0 : Grows s0 s) :
    Grows s0 (plcaBeacon s) := by
  unfold plcaBeacon
  with_reducible repeat' first
      | assumption | extract_lets | apply Grows.ite | apply grows_emit | fail_if_no_progress refine Grows.lit ?_

theorem grows_execPlcaBeacon {s0 s : State} (g0 : Grows s0 s) :
    OGrows s0 (execPlcaBeacon s) := by
  unfold execPlcaBeacon
  with_reducible repeat' first
      | assumption | apply Grows.ite | apply OGrows.ite | apply OGrows.done | exact OGrows.fault
      | apply grows_plcaBeacon

end Sys2Proof.Machine
end

