-- ==== Sys2Proof/Laws/GrowsLife.lean ====
section
/-!
SUPPORT. What every command leaves standing (Laws/Grows), said once of each operation over
the lifecycle and the tick boundary.
-/

namespace Sys2Proof.Machine

/-! ## Lifecycle -/

theorem grows_allQuiet {s0 s : State} (g0 : Grows s0 s) :
    Grows s0 (allQuiet s) := by
  unfold allQuiet
  with_reducible repeat' first
      | assumption | extract_lets | apply grows_goQuiet | refine Grows.litWire (List.suffix_append _ _) ?_

theorem grows_beginPowerOff {s0 s : State} (g0 : Grows s0 s) :
    Grows s0 (beginPowerOff s) := by
  unfold beginPowerOff
  with_reducible repeat' first
      | assumption | extract_lets | apply grows_deviceCleared | apply grows_allQuiet
      | refine Grows.litLife (rises_eq (minimums_lowerRails _ _)) ?_

theorem grows_thermHot {s0 s : State} (g0 : Grows s0 s) :
    Grows s0 (thermHot s) := by
  unfold thermHot
  with_reducible repeat' first | assumption | extract_lets | apply grows_dropLevel | apply grows_orReg

theorem grows_thermAlarm {s0 s : State} (g0 : Grows s0 s) (unit : Nat) :
    Grows s0 (thermAlarm s unit) := by
  unfold thermAlarm
  with_reducible repeat' first | assumption | extract_lets | apply grows_orReg

theorem grows_sense {s0 s : State} (g0 : Grows s0 s) (unit : Nat) (temp : ℤ) :
    Grows s0 (sense s unit temp) := by
  unfold sense
  with_reducible repeat' first
      | assumption | extract_lets | apply grows_setReg | fail_if_no_progress refine Grows.litLife (rises_eq rfl) ?_

theorem grows_thermLow {s0 s : State} (g0 : Grows s0 s) :
    Grows s0 (thermLow s) := by
  unfold thermLow
  with_reducible repeat' first
      | assumption | apply grows_orReg | refine Grows.litLife (rises_eq rfl) ?_

theorem grows_thermTrip {s0 s : State} (g0 : Grows s0 s) (unit : Nat) (temp : Int) :
    Grows s0 (thermTrip s unit temp) := by
  unfold thermTrip
  with_reducible repeat' first
      | assumption | apply Grows.ite | apply grows_beginPowerOff | apply grows_thermHot | apply grows_thermAlarm
      | apply grows_sense | apply grows_thermLow

theorem grows_execThermalTrip {s0 s : State} (g0 : Grows s0 s) (unit : Nat) (temp : Int) :
    OGrows s0 (execThermalTrip unit temp s) := by
  unfold execThermalTrip
  with_reducible repeat' first
      | assumption | apply Grows.ite | apply OGrows.ite | apply OGrows.done | exact OGrows.fault
      | apply grows_thermTrip

theorem grows_ranAct {s0 s : State} (g0 : Grows s0 s) (i : Nat) (code : Nat) (scope : Nat) :
    Grows s0 (ranAct s i code scope) := by
  unfold ranAct
  with_reducible repeat' first | assumption | extract_lets | apply grows_endAct | apply grows_startAct

theorem grows_retireDie {s0 s : State} (g0 : Grows s0 s) (die : Nat) :
    Grows s0 (retireDie s die) := by
  unfold retireDie
  with_reducible repeat' first
      | assumption | extract_lets | apply grows_orReg | apply grows_setLibCount | apply grows_renewResidence
      | fail_if_no_progress refine Grows.lit ?_

theorem grows_dieRetireBody {s0 s : State} (g0 : Grows s0 s) (hh : CmdHdr) (die : Nat) (a3 : Nat) :
    Grows s0 (dieRetireBody hh die s a3).state := by
  unfold dieRetireBody
  with_reducible repeat' first
      | assumption | (intro x) | extract_lets | apply Grows.rite | apply grows_withActivity | apply grows_refuse
      | apply grows_startedNow | apply grows_ranAct | apply grows_retireDie

theorem grows_abortFills {s0 s : State} (g0 : Grows s0 s) (pc : Nat) :
    Grows s0 (abortFills s pc) := by
  unfold abortFills
  with_reducible repeat' first
      | assumption | (intro x) | extract_lets | apply Grows.foldl | apply grows_fillFailed | apply grows_dropFill

theorem grows_hbmRetrainBody {s0 s : State} (g0 : Grows s0 s) (hh : CmdHdr) (pc : Nat) (a3 : Nat) :
    Grows s0 (hbmRetrainBody hh pc s a3).state := by
  unfold hbmRetrainBody
  with_reducible repeat' first
      | assumption | (intro x) | extract_lets | apply Grows.rite | apply grows_withActivity | apply grows_refuse
      | apply grows_startedNow | apply grows_startAct | apply grows_abortFills
      | fail_if_no_progress refine Grows.lit ?_

theorem grows_execHbmRetrain {s0 s : State} (g0 : Grows s0 s) (hh : CmdHdr) (pc : Nat) :
    OGrows s0 (execHbmRetrain hh pc s) := by
  unfold execHbmRetrain
  with_reducible repeat' first
      | assumption | (intro x) | extract_lets | apply OGrows.done | apply grows_takeCommand
      | apply grows_hbmRetrainBody

theorem grows_thermClear {s0 s : State} (g0 : Grows s0 s) (temps : List (Nat × ℤ)) :
    Grows s0 (thermClear s temps) := by
  unfold thermClear
  with_reducible repeat' first
      | assumption | (intro x) | extract_lets | apply Grows.ite | apply Grows.foldl | apply grows_sense
      | apply grows_clrReg

theorem grows_execHbmRetrainDone {s0 s : State} (g0 : Grows s0 s) (pc : Nat) (pass : Bool) :
    OGrows s0 (execHbmRetrainDone pc pass s) := by
  unfold execHbmRetrainDone
  with_reducible repeat' first
      | assumption | extract_lets | apply Grows.ite | apply OGrows.done | apply grows_scrubDueStart
      | apply grows_endActOf | fail_if_no_progress refine Grows.lit ?_

theorem grows_execSmUpdateDone {s0 s : State} (g0 : Grows s0 s) :
    OGrows s0 (execSmUpdateDone s) := by
  unfold execSmUpdateDone
  repeat' first
      | with_reducible assumption | extract_lets | with_reducible apply Grows.ite | with_reducible apply OGrows.done
      | with_reducible apply grows_endAct | with_reducible apply grows_scrubDueStart
      | refine Grows.litLife (rises_validBank _ _ _) ?_

theorem grows_writeLevel {s0 s : State} (g0 : Grows s0 s) (lv : Level) :
    Grows s0 (writeLevel s lv) := by
  unfold writeLevel
  with_reducible repeat' first
      | assumption | extract_lets | apply Grows.ite | apply grows_noticeAll | fail_if_no_progress refine Grows.lit ?_

theorem grows_bootDone {s0 s : State} (g0 : Grows s0 s) (ms : Nat) :
    Grows s0 (bootDone s ms) := by
  unfold bootDone
  with_reducible repeat' first
      | assumption | extract_lets | apply Grows.ite | apply grows_writeLevel | apply grows_clrReg | apply grows_setReg
      | fail_if_no_progress refine Grows.litLife (rises_eq rfl) ?_

theorem grows_execResetNHeld {s0 s : State} (g0 : Grows s0 s) :
    OGrows s0 (execResetNHeld s) := by
  unfold execResetNHeld
  with_reducible repeat' first
      | assumption | extract_lets | apply Grows.ite | apply OGrows.done
      | fail_if_no_progress refine Grows.litLife (rises_eq rfl) ?_

theorem grows_execThermalHot {s0 s : State} (g0 : Grows s0 s) (unit : Nat) (temp : ℤ) :
    OGrows s0 (execThermalHot unit temp s) := by
  unfold execThermalHot
  with_reducible repeat' first
      | assumption | extract_lets | apply Grows.ite | apply OGrows.done | apply grows_thermHot
      | apply grows_thermAlarm | apply grows_sense

theorem grows_execDieRetire {s0 s : State} (g0 : Grows s0 s) (hh : CmdHdr) (die : Nat) :
    OGrows s0 (execDieRetire hh die s) := by
  unfold execDieRetire
  with_reducible repeat' first
      | assumption | (intro x) | extract_lets | apply OGrows.done | apply grows_takeCommand
      | apply grows_dieRetireBody

theorem grows_execResetNRelease {s0 s : State} (g0 : Grows s0 s) :
    OGrows s0 (execResetNRelease s) := by
  unfold execResetNRelease
  with_reducible repeat' first
      | assumption | extract_lets | apply Grows.ite | apply OGrows.done
      | fail_if_no_progress refine Grows.litLife (rises_eq rfl) ?_

theorem grows_resetPinMaskBody {s0 s : State} (g0 : Grows s0 s) (hh : CmdHdr) (mask : Nat) (a3 : Nat) :
    Grows s0 (resetPinMaskBody hh mask s a3).state := by
  unfold resetPinMaskBody
  with_reducible repeat' first
      | assumption | extract_lets | apply Grows.rite | apply grows_accept | apply grows_refuse
      | fail_if_no_progress refine Grows.litLife (rises_eq rfl) ?_

theorem grows_execResetPinMask {s0 s : State} (g0 : Grows s0 s) (hh : CmdHdr) (mask : Nat) :
    OGrows s0 (execResetPinMask hh mask s) := by
  unfold execResetPinMask
  with_reducible repeat' first
      | assumption | (intro x) | extract_lets | apply OGrows.done | apply grows_takeCommand
      | apply grows_resetPinMaskBody

theorem grows_admitRebuildBody {s0 s : State} (g0 : Grows s0 s) (hh : CmdHdr) (a2 : Nat) :
    Grows s0 (admitRebuildBody hh s a2).state := by
  unfold admitRebuildBody
  with_reducible repeat' first
      | assumption | (intro x) | extract_lets | apply grows_withActivity | apply grows_startedNow | apply grows_ranAct

theorem grows_execRailPowerGood {s0 s : State} (g0 : Grows s0 s) (group : Nat) :
    OGrows s0 (execRailPowerGood group s) := by
  unfold execRailPowerGood
  with_reducible repeat' first
      | assumption | extract_lets | apply Grows.ite | apply OGrows.done | apply grows_trainPcie
      | refine Grows.litLife (rises_eq (minimums_railGood _ _)) ?_

theorem grows_execHbmCopyDone {s0 s : State} (g0 : Grows s0 s) (pc : Nat) :
    OGrows s0 (execHbmCopyDone pc s) := by
  unfold execHbmCopyDone
  with_reducible repeat' first
      | assumption | (intro x) | extract_lets | apply Grows.foldl | apply OGrows.done | apply grows_copyLine | split
      | fail_if_no_progress refine Grows.lit ?_

theorem grows_imageBytes {s0 s : State} (g0 : Grows s0 s) (image : Nat) (len : Nat) :
    Grows s0 (imageBytes s image len).1 := by
  unfold imageBytes
  with_reducible repeat' first | assumption | extract_lets | apply grows_hostRead

theorem grows_smUpdateBody {s0 s : State} (g0 : Grows s0 s) (hh : CmdHdr) (image : Nat) (len : Nat) (a4 : Nat) :
    Grows s0 (smUpdateBody hh image len s a4).state := by
  unfold smUpdateBody
  repeat' first
      | with_reducible assumption | (intro x) | extract_lets | with_reducible apply Grows.rite
      | with_reducible apply grows_withActivity | with_reducible apply grows_imageBytes
      | with_reducible apply grows_refuse | with_reducible apply grows_startedNow
      | with_reducible apply grows_startAct | refine Grows.litLife (rises_eq (minimums_writeBank _ _ _)) ?_

theorem grows_execSmUpdate {s0 s : State} (g0 : Grows s0 s) (hh : CmdHdr) (image : Nat) (len : Nat) :
    OGrows s0 (execSmUpdate hh image len s) := by
  unfold execSmUpdate
  with_reducible repeat' first
      | assumption | (intro x) | extract_lets | apply OGrows.done | apply grows_takeCommand | apply grows_smUpdateBody

theorem grows_execSmMirrorDone {s0 s : State} (g0 : Grows s0 s) :
    OGrows s0 (execSmMirrorDone s) := by
  unfold execSmMirrorDone
  with_reducible repeat' first
      | assumption | extract_lets | apply Grows.ite | apply OGrows.done
      | fail_if_no_progress refine Grows.litLife (rises_eq rfl) ?_

theorem grows_scUpdateBody {s0 s : State} (g0 : Grows s0 s) (hh : CmdHdr) (image : Nat) (len : Nat) (a4 : Nat) :
    Grows s0 (scUpdateBody hh image len s a4).state := by
  unfold scUpdateBody
  repeat' first
      | with_reducible assumption | (intro x) | extract_lets | with_reducible apply Grows.rite
      | with_reducible apply grows_withActivity | with_reducible apply grows_imageBytes
      | with_reducible apply grows_refuse | with_reducible apply grows_startedNow
      | with_reducible apply grows_startAct
      | refine Grows.litLife (rises_eq ((minimums_writeBank _ _ _).trans (minimums_writeBank _ _ _))) ?_

theorem grows_execScUpdate {s0 s : State} (g0 : Grows s0 s) (hh : CmdHdr) (image : Nat) (len : Nat) :
    OGrows s0 (execScUpdate hh image len s) := by
  unfold execScUpdate
  with_reducible repeat' first
      | assumption | (intro x) | extract_lets | apply OGrows.done | apply grows_takeCommand | apply grows_scUpdateBody

theorem grows_execScUpdateDone {s0 s : State} (g0 : Grows s0 s) :
    OGrows s0 (execScUpdateDone s) := by
  unfold execScUpdateDone
  repeat' first
      | with_reducible assumption | extract_lets | with_reducible apply Grows.ite | with_reducible apply OGrows.done
      | with_reducible apply grows_endAct | with_reducible apply grows_scrubDueStart
      | refine Grows.litLife (rises_trans (rises_validBank _ _ _) (rises_validBank _ _ _)) ?_

theorem grows_serdesRecalBody {s0 s : State} (g0 : Grows s0 s) (hh : CmdHdr) (port : Nat) (a3 : Nat) :
    Grows s0 (serdesRecalBody hh port s a3).state := by
  unfold serdesRecalBody
  with_reducible repeat' first
      | assumption | (intro x) | extract_lets | apply grows_withActivity | apply grows_startedNow
      | apply grows_startAct

theorem grows_execSerdesRecal {s0 s : State} (g0 : Grows s0 s) (hh : CmdHdr) (port : Nat) :
    OGrows s0 (execSerdesRecal hh port s) := by
  unfold execSerdesRecal
  with_reducible repeat' first
      | assumption | (intro x) | extract_lets | apply OGrows.done | apply grows_takeCommand
      | apply grows_serdesRecalBody

theorem grows_execSerdesRecalDone {s0 s : State} (g0 : Grows s0 s) (port : Nat) (linkDown : Bool) :
    OGrows s0 (execSerdesRecalDone port linkDown s) := by
  unfold execSerdesRecalDone
  with_reducible repeat' first
      | assumption | extract_lets | apply Grows.ite | apply OGrows.done | apply grows_scrubDueStart
      | apply grows_endActOf

theorem grows_execAdmitRebuild {s0 s : State} (g0 : Grows s0 s) (hh : CmdHdr) :
    OGrows s0 (execAdmitRebuild hh s) := by
  unfold execAdmitRebuild
  with_reducible repeat' first
      | assumption | (intro x) | extract_lets | apply OGrows.done | apply grows_takeCommand
      | apply grows_admitRebuildBody

theorem grows_powerLost {s0 s : State} (g0 : Grows s0 s) : Grows s0 (powerLost s) :=
  g0.trans ⟨rfl, fun _ => rfl, List.suffix_refl _, rfl, forall2_le_refl _⟩

theorem grows_execPowerOn {s0 s : State} (g0 : Grows s0 s) :
    OGrows s0 (execPowerOn s) := by
  unfold execPowerOn
  with_reducible repeat' first
      | assumption | extract_lets | apply Grows.ite | apply OGrows.done | apply grows_powerLost
      | fail_if_no_progress refine Grows.litLife (rises_eq rfl) ?_

theorem grows_execRailPgTimeout {s0 s : State} (g0 : Grows s0 s) (group : Nat) :
    OGrows s0 (execRailPgTimeout group s) := by
  unfold execRailPgTimeout
  with_reducible repeat' first
      | assumption | extract_lets | apply Grows.ite | apply OGrows.done
      | fail_if_no_progress refine Grows.litLife (rises_eq rfl) ?_

theorem grows_execBootScRom {s0 s : State} (g0 : Grows s0 s) :
    OGrows s0 (execBootScRom s) := by
  unfold execBootScRom
  with_reducible repeat' first
      | assumption | extract_lets | apply Grows.ite | apply OGrows.done
      | refine Grows.litLife (rises_eq ((minimums_nextStage _ _).trans (minimums_bootImage _ _ _))) ?_

theorem grows_execBootScFw {s0 s : State} (g0 : Grows s0 s) :
    OGrows s0 (execBootScFw s) := by
  unfold execBootScFw
  with_reducible repeat' first
      | assumption | extract_lets | apply Grows.ite | apply OGrows.done
      | refine Grows.litLife (rises_eq ((minimums_nextStage _ _).trans ((minimums_bootImage _ _ _).trans (minimums_bootImage _ _ _)))) ?_

theorem grows_bootMgmt {s0 s : State} (g0 : Grows s0 s) :
    Grows s0 (bootMgmt s) := by
  unfold bootMgmt
  with_reducible repeat' first
      | assumption | (intro x) | extract_lets | apply Grows.foldl | apply grows_portRetrain
      | fail_if_no_progress refine Grows.litLife (rises_eq rfl) ?_

theorem grows_execBootMgmt {s0 s : State} (g0 : Grows s0 s) :
    OGrows s0 (execBootMgmt s) := by
  unfold execBootMgmt
  with_reducible repeat' first
      | assumption | extract_lets | apply Grows.ite | apply OGrows.done | apply grows_bootMgmt

theorem grows_execBootTrain {s0 s : State} (g0 : Grows s0 s) (hbmOk : Bool) :
    OGrows s0 (execBootTrain hbmOk s) := by
  unfold execBootTrain
  repeat' first
      | with_reducible assumption | extract_lets | with_reducible apply Grows.ite | with_reducible apply OGrows.done
      | refine Grows.litLife (rises_eq (by split <;> rfl)) ?_

theorem grows_bootRestore {s0 s : State} (g0 : Grows s0 s) :
    Grows s0 (bootRestore s) := by
  unfold bootRestore
  with_reducible repeat' first
      | assumption | extract_lets | split | fail_if_no_progress refine Grows.litLife (rises_eq rfl) ?_

theorem grows_execBootRestore {s0 s : State} (g0 : Grows s0 s) (storeOk : Bool) :
    OGrows s0 (execBootRestore storeOk s) := by
  unfold execBootRestore
  with_reducible repeat' first
      | assumption | extract_lets | apply Grows.ite | apply OGrows.done | apply grows_bootRestore
      | refine Grows.litLife (rises_eq (minimums_bootFails _ _)) ?_

theorem grows_execBootDone {s0 s : State} (g0 : Grows s0 s) (bootMs : Nat) :
    OGrows s0 (execBootDone bootMs s) := by
  unfold execBootDone
  with_reducible repeat' first
      | assumption | extract_lets | apply Grows.ite | apply OGrows.done | apply grows_bootDone

theorem grows_execPowerOff {s0 s : State} (g0 : Grows s0 s) :
    OGrows s0 (execPowerOff s) := by
  unfold execPowerOff
  with_reducible repeat' first
      | assumption | extract_lets | apply Grows.ite | apply OGrows.done | apply grows_beginPowerOff

theorem grows_execPwrOkFall {s0 s : State} (g0 : Grows s0 s) :
    OGrows s0 (execPwrOkFall s) := by
  unfold execPwrOkFall
  with_reducible repeat' first
      | assumption | extract_lets | apply Grows.ite | apply OGrows.done | apply grows_powerLost

theorem grows_resetPinLow {s0 s : State} (g0 : Grows s0 s) :
    Grows s0 (resetPinLow s) := by
  unfold resetPinLow
  with_reducible repeat' first
      | assumption | extract_lets | apply Grows.ite | apply grows_startDeviceReset
      | fail_if_no_progress refine Grows.litLife (rises_eq rfl) ?_

theorem grows_execResetNAssert {s0 s : State} (g0 : Grows s0 s) :
    OGrows s0 (execResetNAssert s) := by
  unfold execResetNAssert
  with_reducible repeat' first
      | assumption | extract_lets | apply Grows.ite | apply OGrows.done | apply grows_resetPinLow

theorem grows_execThermalAlarm {s0 s : State} (g0 : Grows s0 s) (unit : Nat) (temp : ℤ) :
    OGrows s0 (execThermalAlarm unit temp s) := by
  unfold execThermalAlarm
  with_reducible repeat' first
      | assumption | extract_lets | apply Grows.ite | apply OGrows.done | apply grows_thermAlarm | apply grows_sense

theorem grows_execThermalAlarmClear {s0 s : State} (g0 : Grows s0 s) (temps : List (Nat × ℤ)) :
    OGrows s0 (execThermalAlarmClear temps s) := by
  unfold execThermalAlarmClear
  with_reducible repeat' first
      | assumption | extract_lets | apply Grows.ite | apply OGrows.done | apply grows_thermClear

theorem grows_execStationManagerEnrolment {s0 s : State} (g0 : Grows s0 s) (mac : BitVec 48) :
    OGrows s0 (execStationManagerEnrolment mac s) := by
  unfold execStationManagerEnrolment
  with_reducible repeat' first
      | assumption | extract_lets | apply Grows.ite | apply OGrows.done | fail_if_no_progress refine Grows.lit ?_

theorem grows_execPowerGoodDeassert {s0 s : State} (g0 : Grows s0 s) (group : Nat) :
    OGrows s0 (execPowerGoodDeassert group s) := by
  unfold execPowerGoodDeassert
  with_reducible repeat' first
      | assumption | extract_lets | apply Grows.ite | apply OGrows.done
      | refine Grows.litLife (rises_eq (minimums_lowerRails _ _)) ?_

/-! ## Boundary -/

theorem grows_brakeStop {s0 s : State} (g0 : Grows s0 s) (c : Nat) :
    Grows s0 (brakeStop s c) := by
  unfold brakeStop
  with_reducible repeat' first
      | assumption | (intro x) | extract_lets | apply Grows.ite | apply grows_withhold | apply grows_endTimetable
      | apply grows_markDumpable | apply grows_exitBarrier | fail_if_no_progress refine Grows.lit ?_

theorem grows_brakeStops {s0 s : State} (g0 : Grows s0 s) :
    Grows s0 (brakeStops s) := by
  unfold brakeStops
  with_reducible repeat' first | assumption | (intro x) | extract_lets | apply Grows.foldl | apply grows_brakeStop

theorem grows_powerReading {s0 s : State} (g0 : Grows s0 s) (d : Nat) (mw : Nat) :
    Grows s0 (powerReading s d mw) := by
  unfold powerReading
  with_reducible repeat' first | assumption | extract_lets | apply Grows.ite | apply grows_setReg | apply grows_orReg

theorem grows_handovers {s0 s : State} (g0 : Grows s0 s) :
    Grows s0 (handovers s) := by
  unfold handovers
  with_reducible repeat' first
      | assumption | extract_lets | apply Grows.ite | apply grows_orReg
      | fail_if_no_progress refine Grows.litLife (rises_eq rfl) ?_

theorem grows_afterStep {s0 s : State} (g0 : Grows s0 s) :
    Grows s0 (afterStep s) := by
  unfold afterStep
  with_reducible repeat' first
      | assumption | extract_lets | apply grows_orReg | apply grows_enterState | apply grows_nonePending

theorem grows_dlbChange {s0 s : State} (g0 : Grows s0 s) :
    Grows s0 (dlbChange s) := by
  unfold dlbChange
  with_reducible repeat' first | assumption | fail_if_no_progress refine Grows.lit ?_

theorem grows_tickEnded {s0 s : State} (g0 : Grows s0 s) (ns : Nat) :
    Grows s0 (tickEnded s ns) := by
  unfold tickEnded
  with_reducible repeat' first
      | assumption | (intro x) | apply Grows.ite | refine Grows.litLife (rises_eq rfl) ?_

theorem grows_countTick {s0 s : State} (g0 : Grows s0 s) (ns : Nat) :
    Grows s0 (countTick s ns) := by
  unfold countTick
  with_reducible repeat' first | assumption | extract_lets | fail_if_no_progress refine Grows.lit ?_

theorem grows_partAfterCollect {s0 s : State} (g0 : Grows s0 s) (p : Nat) :
    Grows s0 (partAfterCollect s p) := by
  unfold partAfterCollect
  with_reducible repeat' first
      | assumption | extract_lets | apply Grows.ite | apply grows_partClear | apply grows_partRetrain

theorem grows_resetsAt {s0 s : State} (g0 : Grows s0 s) (cs : List Nat) (p1 : List Nat) (p3 : List Nat) :
    Grows s0 (resetsAt s cs p1 p3) := by
  unfold resetsAt
  with_reducible repeat' first
      | assumption | (intro x) | extract_lets | apply Grows.foldl | apply grows_ctxResetB1 | apply grows_partBarrier
      | apply grows_partAfterCollect

theorem grows_releaseHeld {s0 s : State} (g0 : Grows s0 s) :
    Grows s0 (releaseHeld s) := by
  unfold releaseHeld
  with_reducible repeat' first
      | assumption | (intro x) | extract_lets | apply Grows.foldl | apply grows_releaseExits | apply grows_releaseRecs

theorem grows_countRun {s0 s : State} (g0 : Grows s0 s) (c : Nat) :
    Grows s0 (countRun s c) := by
  unfold countRun
  with_reducible repeat' first
      | assumption | extract_lets | apply Grows.ite | apply grows_raiseBrake | apply grows_endTimetable | split
      | fail_if_no_progress refine Grows.lit ?_

theorem grows_resumeTt {s0 s : State} (g0 : Grows s0 s) (c : Nat) :
    Grows s0 (resumeTt s c) := by
  unfold resumeTt
  with_reducible repeat' first
      | assumption | extract_lets | apply Grows.ite | apply grows_notice | fail_if_no_progress refine Grows.lit ?_

theorem grows_cutDown {s0 s : State} (g0 : Grows s0 s) (f : Nat) (a2 : List Nat) :
    Grows s0 (cutDown s f a2) := by
  induction a2 generalizing s with
  | nil =>
    unfold cutDown
    with_reducible repeat' first | assumption
  | cons _ _ ih =>
    unfold cutDown
    with_reducible repeat' first
        | apply ih | assumption | extract_lets | apply Grows.ite | apply grows_notice | apply grows_suspendTt

theorem grows_forcedCut {s0 s : State} (g0 : Grows s0 s) (f : Nat) :
    Grows s0 (forcedCut s f) := by
  unfold forcedCut
  with_reducible repeat' first
      | assumption | extract_lets | apply grows_cutDown | fail_if_no_progress refine Grows.lit ?_

theorem grows_levelFull {s0 s : State} (g0 : Grows s0 s) (e : Pending) :
    Grows s0 (levelFull s e) := by
  unfold levelFull
  with_reducible repeat' first
      | assumption | (intro x) | extract_lets | apply Grows.ite | apply Grows.foldl | apply grows_writeLevel
      | apply grows_resumeTt | apply grows_writeStatus

theorem grows_shuntStarts {s0 s : State} (g0 : Grows s0 s) (p : Nat) (mask : BitVec 16) (qmask : BitVec 160) :
    Grows s0 (shuntStarts s p mask qmask) := by
  unfold shuntStarts
  with_reducible repeat' first | assumption | fail_if_no_progress refine Grows.lit ?_

theorem grows_takeEffect {s0 s : State} (g0 : Grows s0 s) (e : Pending) :
    Grows s0 (takeEffect s e) := by
  unfold takeEffect
  with_reducible repeat' first
      | assumption | apply grows_endTimetable | apply grows_resumeTt | apply grows_forcedCut | apply grows_takeSrtSwap
      | apply grows_takeUnbind | apply grows_installKey | apply grows_takeReport | apply grows_takeCarrier
      | apply grows_takeCarrierRemove | apply grows_takeRouteSwap | apply grows_levelFull | apply grows_shuntStarts
      | apply grows_shuntStops | split

theorem grows_takeEffects {s0 s : State} (g0 : Grows s0 s) :
    Grows s0 (takeEffects s) := by
  unfold takeEffects
  with_reducible repeat' first
      | assumption | (intro x) | extract_lets | apply Grows.foldl | apply grows_takeEffect
      | fail_if_no_progress refine Grows.lit ?_

theorem grows_quarantineEnds {s0 s : State} (g0 : Grows s0 s) (p : Nat) (q : Quarantine) :
    Grows s0 (quarantineEnds s p q) := by
  unfold quarantineEnds
  with_reducible repeat' first
      | assumption | (intro x) | extract_lets | apply Grows.foldl | apply Grows.ite | apply grows_resumeTt
      | fail_if_no_progress refine Grows.lit ?_

theorem grows_verdictOn {s0 s : State} (g0 : Grows s0 s) (p : Nat) (q : Quarantine) (c : Nat) :
    Grows s0 (verdictOn s p q c) := by
  unfold verdictOn
  with_reducible repeat' first
      | assumption | extract_lets | apply grows_recordFault | apply grows_notice
      | fail_if_no_progress refine Grows.lit ?_

theorem grows_quarantineVerdict {s0 s : State} (g0 : Grows s0 s) (p : Nat) (q : Quarantine) :
    Grows s0 (quarantineVerdict s p q) := by
  unfold quarantineVerdict
  with_reducible repeat' first
      | assumption | (intro x) | extract_lets | apply Grows.ite | apply Grows.pite | apply Grows.foldl
      | apply Grows.pfoldl | apply grows_orReg | apply grows_acceptCtxReset | apply grows_setQuarantine
      | apply grows_quarantineFails | apply grows_quarantineScanIn | apply grows_verdictOn

theorem grows_nextSuspect {s0 s : State} (g0 : Grows s0 s) (p : Nat) (q : Quarantine) :
    Grows s0 (nextSuspect s p q) := by
  unfold nextSuspect
  with_reducible repeat' first
      | assumption | extract_lets | apply Grows.ite | apply grows_setQuarantine | apply grows_quarantineVerdict

theorem grows_stopReplay {s0 s : State} (g0 : Grows s0 s) (c : Nat) :
    Grows s0 (stopReplay s c) := by
  unfold stopReplay
  with_reducible repeat' first | assumption | fail_if_no_progress refine Grows.lit ?_

theorem grows_replayEnded {s0 s : State} (g0 : Grows s0 s) (p : Nat) (q : Quarantine) (c : Nat) :
    Grows s0 (replayEnded s p q c) := by
  unfold replayEnded
  with_reducible repeat' first
      | assumption | extract_lets | apply Grows.ite | apply grows_nextSuspect | apply grows_stopReplay
      | apply grows_setQuarantine | fail_if_no_progress refine Grows.lit ?_

theorem grows_replayStarts {s0 s : State} (g0 : Grows s0 s) (p : Nat) (q : Quarantine) (c : Nat) :
    Grows s0 (replayStarts s p q c) := by
  unfold replayStarts
  with_reducible repeat' first
      | assumption | extract_lets | apply grows_replayTiles | apply grows_setQuarantine
      | fail_if_no_progress refine Grows.lit ?_

theorem grows_quarantineTick {s0 s : State} (g0 : Grows s0 s) (p : Nat) (q : Quarantine) :
    Grows s0 (quarantineTick s p q) := by
  unfold quarantineTick
  with_reducible repeat' first
      | assumption | extract_lets | apply Grows.ite | apply grows_quarantineEnds | apply grows_nextSuspect
      | apply grows_stopReplay | apply grows_replayEnded | apply grows_replayStarts | split

theorem grows_quarantineTicks {s0 s : State} (g0 : Grows s0 s) :
    Grows s0 (quarantineTicks s) := by
  unfold quarantineTicks
  with_reducible repeat' first
      | assumption | (intro x) | extract_lets | apply Grows.foldl | apply grows_quarantineTick

theorem grows_levelStops {s0 s : State} (g0 : Grows s0 s) :
    Grows s0 (levelStops s) := by
  unfold levelStops
  with_reducible repeat' first
      | assumption | (intro x) | extract_lets | apply Grows.ite | apply Grows.foldl | apply grows_suspendTt | split
      | fail_if_no_progress refine Grows.lit ?_

theorem grows_spareTakes {s0 s : State} (g0 : Grows s0 s) (pc : Nat) :
    Grows s0 (spareTakes s pc) := by
  unfold spareTakes
  with_reducible repeat' first
      | assumption | extract_lets | apply grows_orReg | fail_if_no_progress refine Grows.lit ?_

theorem grows_spareTakeovers {s0 s : State} (g0 : Grows s0 s) :
    Grows s0 (spareTakeovers s) := by
  unfold spareTakeovers
  with_reducible repeat' first | assumption | (intro x) | extract_lets | apply Grows.foldl | apply grows_spareTakes

theorem grows_traces {s0 s : State} (g0 : Grows s0 s) :
    Grows s0 (traces s) := by
  unfold traces
  with_reducible repeat' first
      | assumption | (intro x) | extract_lets | apply Grows.foldl | apply grows_endTrace | apply grows_setReg
      | fail_if_no_progress refine Grows.lit ?_

theorem grows_tenantSettings {s0 s : State} (g0 : Grows s0 s) :
    Grows s0 (tenantSettings s) := by
  unfold tenantSettings
  with_reducible repeat' first | assumption | fail_if_no_progress refine Grows.lit ?_

theorem grows_jobMessages {s0 s : State} (g0 : Grows s0 s) :
    Grows s0 (jobMessages s) := by
  unfold jobMessages
  with_reducible repeat' first
      | assumption | (intro x) | extract_lets | apply Grows.foldl | apply grows_sendGo | apply grows_sendReady

theorem grows_skewCheck {s0 s : State} (g0 : Grows s0 s) :
    Grows s0 (skewCheck s) := by
  unfold skewCheck
  with_reducible repeat' first
      | assumption | (intro x) | extract_lets | apply Grows.foldl | apply grows_raiseBrake | apply grows_orReg

theorem grows_beginPasses {s0 s : State} (g0 : Grows s0 s) :
    Grows s0 (beginPasses s) := by
  unfold beginPasses
  with_reducible repeat' first | assumption | fail_if_no_progress refine Grows.lit ?_

theorem grows_drainTick {s0 s : State} (g0 : Grows s0 s) :
    Grows s0 (drainTick s) := by
  unfold drainTick
  with_reducible repeat' first | assumption | split | fail_if_no_progress refine Grows.lit ?_

theorem grows_boundary {s0 s : State} (g0 : Grows s0 s) (ns : Nat) (power : List (Nat × Nat)) :
    Grows s0 (boundary s ns power) := by
  unfold boundary
  with_reducible repeat' first
      | assumption | (intro x) | extract_lets | apply Grows.foldl | apply Grows.pfoldl | apply grows_takeTickState
      | apply grows_overrunCheck | apply grows_quarantineStops | apply grows_carryOver | apply grows_takePlan
      | apply grows_takeSwaps | apply grows_beginChangeover | apply grows_ctxResetEnd | apply grows_brakeStops
      | apply grows_powerReading | apply grows_handovers | apply grows_dlbChange | apply grows_tickEnded
      | apply grows_countTick | apply grows_resetsAt | apply grows_releaseHeld | apply grows_countRun
      | apply grows_takeEffects | apply grows_quarantineTicks | apply grows_levelStops | apply grows_spareTakeovers
      | apply grows_traces | apply grows_tenantSettings | apply grows_jobMessages | apply grows_skewCheck
      | apply grows_beginPasses | apply grows_drainTick | fail_if_no_progress refine Grows.lit ?_

theorem grows_execStepEnd {s0 s : State} (g0 : Grows s0 s) (close : StepClose) :
    OGrows s0 (execStepEnd close s) := by
  unfold execStepEnd
  with_reducible repeat' first
      | assumption | apply Grows.ite | apply OGrows.ite | apply OGrows.done | exact OGrows.fault
      | apply grows_afterStep | apply grows_boundary

theorem grows_execTickBoundary {s0 s : State} (g0 : Grows s0 s) (powerMw : List (Nat × Nat)) :
    OGrows s0 (execTickBoundary powerMw s) := by
  unfold execTickBoundary
  with_reducible repeat' first
      | assumption | extract_lets | apply Grows.ite | apply OGrows.done | apply grows_boundary

theorem grows_shuntAt {s0 s : State} (g0 : Grows s0 s) (p : Nat) (qmask : BitVec 160) :
    Grows s0 (shuntAt s p qmask) := by
  unfold shuntAt
  with_reducible repeat' first
      | assumption | (intro x) | extract_lets | apply Grows.foldl | apply grows_exchangeSets | apply grows_startFirst
      | apply grows_adopt

theorem grows_sliceOpens {s0 s : State} (g0 : Grows s0 s) (i : Nat) :
    Grows s0 (sliceOpens s i) := by
  unfold sliceOpens
  with_reducible repeat' first
      | assumption | (intro x) | extract_lets | apply Grows.ite | apply Grows.foldl | apply Grows.pfoldl
      | apply grows_saveSlots | apply grows_takeSwaps | apply grows_beginChangeover | apply grows_shuntAt
      | fail_if_no_progress refine Grows.lit ?_

theorem grows_execSliceBoundary {s0 s : State} (g0 : Grows s0 s) (slice : Nat) :
    OGrows s0 (execSliceBoundary slice s) := by
  unfold execSliceBoundary
  with_reducible repeat' first
      | assumption | extract_lets | apply Grows.ite | apply OGrows.done | apply grows_sliceOpens

theorem grows_changeoverOver {s0 s : State} (g0 : Grows s0 s) :
    Grows s0 (changeoverOver s) := by
  unfold changeoverOver
  with_reducible repeat' first | assumption | extract_lets | fail_if_no_progress refine Grows.lit ?_

theorem grows_execChangeoverEnd {s0 s : State} (g0 : Grows s0 s) (slice : Nat) :
    OGrows s0 (execChangeoverEnd slice s) := by
  unfold execChangeoverEnd
  with_reducible repeat' first
      | assumption | extract_lets | apply Grows.ite | apply OGrows.done | apply grows_changeoverOver

end Sys2Proof.Machine
end

