-- ==== Sys2Proof/Laws/State.lean ====
section
/-!
SUPPORT. What the plain updates of the state leave alone, field by field, so that no proof unfolds a record
update: a register write, a register's bits set or cleared, a count, a statistics counter, and an output.
-/

namespace Sys2Proof.Machine

/-! ## setReg -/

@[simp] theorem setReg_pending (s : State) (a v : Nat) : (setReg s a v).pending = s.pending := rfl
@[simp] theorem setReg_latches (s : State) (a v : Nat) : (setReg s a v).latches = s.latches := rfl
@[simp] theorem setReg_level (s : State) (a v : Nat) : (setReg s a v).level = s.level := rfl
@[simp] theorem setReg_tick (s : State) (a v : Nat) : (setReg s a v).tick = s.tick := rfl
@[simp] theorem setReg_sig (s : State) (a v : Nat) : (setReg s a v).sig = s.sig := rfl
@[simp] theorem setReg_disabled (s : State) (a v : Nat) : (setReg s a v).disabled = s.disabled := rfl
@[simp] theorem setReg_retired (s : State) (a v : Nat) : (setReg s a v).retired = s.retired := rfl
@[simp] theorem setReg_tiles (s : State) (a v : Nat) : (setReg s a v).tiles = s.tiles := rfl
@[simp] theorem setReg_changing (s : State) (a v : Nat) : (setReg s a v).changing = s.changing := rfl
@[simp] theorem setReg_tracing (s : State) (a v : Nat) : (setReg s a v).tracing = s.tracing := rfl
@[simp] theorem setReg_hub (s : State) (a v : Nat) : (setReg s a v).hub = s.hub := rfl
@[simp] theorem setReg_tts (s : State) (a v : Nat) : (setReg s a v).tts = s.tts := rfl
@[simp] theorem setReg_admitSeq (s : State) (a v : Nat) : (setReg s a v).admitSeq = s.admitSeq := rfl
@[simp] theorem setReg_siding (s : State) (a v : Nat) : (setReg s a v).siding = s.siding := rfl
@[simp] theorem setReg_sdg (s : State) (a v : Nat) : (setReg s a v).sdg = s.sdg := rfl
@[simp] theorem setReg_fills (s : State) (a v : Nat) : (setReg s a v).fills = s.fills := rfl
@[simp] theorem setReg_lib (s : State) (a v : Nat) : (setReg s a v).lib = s.lib := rfl
@[simp] theorem setReg_libTiles (s : State) (a v : Nat) : (setReg s a v).libTiles = s.libTiles := rfl
@[simp] theorem setReg_scans (s : State) (a v : Nat) : (setReg s a v).scans = s.scans := rfl
@[simp] theorem setReg_mem (s : State) (a v : Nat) : (setReg s a v).mem = s.mem := rfl
@[simp] theorem setReg_pcs (s : State) (a v : Nat) : (setReg s a v).pcs = s.pcs := rfl
@[simp] theorem setReg_pages (s : State) (a v : Nat) : (setReg s a v).pages = s.pages := rfl
@[simp] theorem setReg_lines (s : State) (a v : Nat) : (setReg s a v).lines = s.lines := rfl
@[simp] theorem setReg_domains (s : State) (a v : Nat) : (setReg s a v).domains = s.domains := rfl
@[simp] theorem setReg_blocks (s : State) (a v : Nat) : (setReg s a v).blocks = s.blocks := rfl
@[simp] theorem setReg_stalls (s : State) (a v : Nat) : (setReg s a v).stalls = s.stalls := rfl
@[simp] theorem setReg_scrub (s : State) (a v : Nat) : (setReg s a v).scrub = s.scrub := rfl
@[simp] theorem setReg_scrubDue (s : State) (a v : Nat) : (setReg s a v).scrubDue = s.scrubDue := rfl
@[simp] theorem setReg_spareBad (s : State) (a v : Nat) : (setReg s a v).spareBad = s.spareBad := rfl
@[simp] theorem setReg_retiredPcs (s : State) (a v : Nat) : (setReg s a v).retiredPcs = s.retiredPcs := rfl
@[simp] theorem setReg_queues (s : State) (a v : Nat) : (setReg s a v).queues = s.queues := rfl
@[simp] theorem setReg_rx (s : State) (a v : Nat) : (setReg s a v).rx = s.rx := rfl
@[simp] theorem setReg_staging (s : State) (a v : Nat) : (setReg s a v).staging = s.staging := rfl
@[simp] theorem setReg_srtA (s : State) (a v : Nat) : (setReg s a v).srtA = s.srtA := rfl
@[simp] theorem setReg_srtS (s : State) (a v : Nat) : (setReg s a v).srtS = s.srtS := rfl
@[simp] theorem setReg_srtCopying (s : State) (a v : Nat) : (setReg s a v).srtCopying = s.srtCopying := rfl
@[simp] theorem setReg_srtPending (s : State) (a v : Nat) : (setReg s a v).srtPending = s.srtPending := rfl
@[simp] theorem setReg_srtNext (s : State) (a v : Nat) : (setReg s a v).srtNext = s.srtNext := rfl
@[simp] theorem setReg_srtCopy (s : State) (a v : Nat) : (setReg s a v).srtCopy = s.srtCopy := rfl
@[simp] theorem setReg_binds (s : State) (a v : Nat) : (setReg s a v).binds = s.binds := rfl
@[simp] theorem setReg_seqBlocks (s : State) (a v : Nat) : (setReg s a v).seqBlocks = s.seqBlocks := rfl
@[simp] theorem setReg_egress (s : State) (a v : Nat) : (setReg s a v).egress = s.egress := rfl
@[simp] theorem setReg_txRings (s : State) (a v : Nat) : (setReg s a v).txRings = s.txRings := rfl
@[simp] theorem setReg_engines (s : State) (a v : Nat) : (setReg s a v).engines = s.engines := rfl
@[simp] theorem setReg_saks (s : State) (a v : Nat) : (setReg s a v).saks = s.saks := rfl
@[simp] theorem setReg_station (s : State) (a v : Nat) : (setReg s a v).station = s.station := rfl
@[simp] theorem setReg_carriers (s : State) (a v : Nat) : (setReg s a v).carriers = s.carriers := rfl
@[simp] theorem setReg_parts (s : State) (a v : Nat) : (setReg s a v).parts = s.parts := rfl
@[simp] theorem setReg_cellA (s : State) (a v : Nat) : (setReg s a v).cellA = s.cellA := rfl
@[simp] theorem setReg_cellS (s : State) (a v : Nat) : (setReg s a v).cellS = s.cellS := rfl
@[simp] theorem setReg_ctxs (s : State) (a v : Nat) : (setReg s a v).ctxs = s.ctxs := rfl
@[simp] theorem setReg_vfs (s : State) (a v : Nat) : (setReg s a v).vfs = s.vfs := rfl
@[simp] theorem setReg_harts (s : State) (a v : Nat) : (setReg s a v).harts = s.harts := rfl
@[simp] theorem setReg_inData (s : State) (a v : Nat) : (setReg s a v).inData = s.inData := rfl
@[simp] theorem setReg_effects (s : State) (a v : Nat) : (setReg s a v).effects = s.effects := rfl
@[simp] theorem setReg_acts (s : State) (a v : Nat) : (setReg s a v).acts = s.acts := rfl
@[simp] theorem setReg_trunk (s : State) (a v : Nat) : (setReg s a v).trunk = s.trunk := rfl
@[simp] theorem setReg_routeEpoch (s : State) (a v : Nat) : (setReg s a v).routeEpoch = s.routeEpoch := rfl
@[simp] theorem setReg_drain (s : State) (a v : Nat) : (setReg s a v).drain = s.drain := rfl
@[simp] theorem setReg_fabricId (s : State) (a v : Nat) : (setReg s a v).fabricId = s.fabricId := rfl
@[simp] theorem setReg_earlyReady (s : State) (a v : Nat) : (setReg s a v).earlyReady = s.earlyReady := rfl
@[simp] theorem setReg_fltSeq (s : State) (a v : Nat) : (setReg s a v).fltSeq = s.fltSeq := rfl
@[simp] theorem setReg_fltLog (s : State) (a v : Nat) : (setReg s a v).fltLog = s.fltLog := rfl
@[simp] theorem setReg_dumps (s : State) (a v : Nat) : (setReg s a v).dumps = s.dumps := rfl
@[simp] theorem setReg_gathers (s : State) (a v : Nat) : (setReg s a v).gathers = s.gathers := rfl
@[simp] theorem setReg_dumpSeq (s : State) (a v : Nat) : (setReg s a v).dumpSeq = s.dumpSeq := rfl
@[simp] theorem setReg_quarantines (s : State) (a v : Nat) : (setReg s a v).quarantines = s.quarantines := rfl
@[simp] theorem setReg_seedStage (s : State) (a v : Nat) : (setReg s a v).seedStage = s.seedStage := rfl
@[simp] theorem setReg_suspectSeq (s : State) (a v : Nat) : (setReg s a v).suspectSeq = s.suspectSeq := rfl
@[simp] theorem setReg_life (s : State) (a v : Nat) : (setReg s a v).life = s.life := rfl
@[simp] theorem setReg_store (s : State) (a v : Nat) : (setReg s a v).store = s.store := rfl
@[simp] theorem setReg_wire (s : State) (a v : Nat) : (setReg s a v).wire = s.wire := rfl
@[simp] theorem setReg_fresh (s : State) (a v : Nat) : (setReg s a v).fresh = s.fresh := rfl

/-! ## orReg -/

@[simp] theorem orReg_pending (s : State) (a v : Nat) : (orReg s a v).pending = s.pending := rfl
@[simp] theorem orReg_latches (s : State) (a v : Nat) : (orReg s a v).latches = s.latches := rfl
@[simp] theorem orReg_level (s : State) (a v : Nat) : (orReg s a v).level = s.level := rfl
@[simp] theorem orReg_tick (s : State) (a v : Nat) : (orReg s a v).tick = s.tick := rfl
@[simp] theorem orReg_sig (s : State) (a v : Nat) : (orReg s a v).sig = s.sig := rfl
@[simp] theorem orReg_disabled (s : State) (a v : Nat) : (orReg s a v).disabled = s.disabled := rfl
@[simp] theorem orReg_retired (s : State) (a v : Nat) : (orReg s a v).retired = s.retired := rfl
@[simp] theorem orReg_tiles (s : State) (a v : Nat) : (orReg s a v).tiles = s.tiles := rfl
@[simp] theorem orReg_changing (s : State) (a v : Nat) : (orReg s a v).changing = s.changing := rfl
@[simp] theorem orReg_tracing (s : State) (a v : Nat) : (orReg s a v).tracing = s.tracing := rfl
@[simp] theorem orReg_hub (s : State) (a v : Nat) : (orReg s a v).hub = s.hub := rfl
@[simp] theorem orReg_tts (s : State) (a v : Nat) : (orReg s a v).tts = s.tts := rfl
@[simp] theorem orReg_admitSeq (s : State) (a v : Nat) : (orReg s a v).admitSeq = s.admitSeq := rfl
@[simp] theorem orReg_siding (s : State) (a v : Nat) : (orReg s a v).siding = s.siding := rfl
@[simp] theorem orReg_sdg (s : State) (a v : Nat) : (orReg s a v).sdg = s.sdg := rfl
@[simp] theorem orReg_fills (s : State) (a v : Nat) : (orReg s a v).fills = s.fills := rfl
@[simp] theorem orReg_lib (s : State) (a v : Nat) : (orReg s a v).lib = s.lib := rfl
@[simp] theorem orReg_libTiles (s : State) (a v : Nat) : (orReg s a v).libTiles = s.libTiles := rfl
@[simp] theorem orReg_scans (s : State) (a v : Nat) : (orReg s a v).scans = s.scans := rfl
@[simp] theorem orReg_mem (s : State) (a v : Nat) : (orReg s a v).mem = s.mem := rfl
@[simp] theorem orReg_pcs (s : State) (a v : Nat) : (orReg s a v).pcs = s.pcs := rfl
@[simp] theorem orReg_pages (s : State) (a v : Nat) : (orReg s a v).pages = s.pages := rfl
@[simp] theorem orReg_lines (s : State) (a v : Nat) : (orReg s a v).lines = s.lines := rfl
@[simp] theorem orReg_domains (s : State) (a v : Nat) : (orReg s a v).domains = s.domains := rfl
@[simp] theorem orReg_blocks (s : State) (a v : Nat) : (orReg s a v).blocks = s.blocks := rfl
@[simp] theorem orReg_stalls (s : State) (a v : Nat) : (orReg s a v).stalls = s.stalls := rfl
@[simp] theorem orReg_scrub (s : State) (a v : Nat) : (orReg s a v).scrub = s.scrub := rfl
@[simp] theorem orReg_scrubDue (s : State) (a v : Nat) : (orReg s a v).scrubDue = s.scrubDue := rfl
@[simp] theorem orReg_spareBad (s : State) (a v : Nat) : (orReg s a v).spareBad = s.spareBad := rfl
@[simp] theorem orReg_retiredPcs (s : State) (a v : Nat) : (orReg s a v).retiredPcs = s.retiredPcs := rfl
@[simp] theorem orReg_queues (s : State) (a v : Nat) : (orReg s a v).queues = s.queues := rfl
@[simp] theorem orReg_rx (s : State) (a v : Nat) : (orReg s a v).rx = s.rx := rfl
@[simp] theorem orReg_staging (s : State) (a v : Nat) : (orReg s a v).staging = s.staging := rfl
@[simp] theorem orReg_srtA (s : State) (a v : Nat) : (orReg s a v).srtA = s.srtA := rfl
@[simp] theorem orReg_srtS (s : State) (a v : Nat) : (orReg s a v).srtS = s.srtS := rfl
@[simp] theorem orReg_srtCopying (s : State) (a v : Nat) : (orReg s a v).srtCopying = s.srtCopying := rfl
@[simp] theorem orReg_srtPending (s : State) (a v : Nat) : (orReg s a v).srtPending = s.srtPending := rfl
@[simp] theorem orReg_srtNext (s : State) (a v : Nat) : (orReg s a v).srtNext = s.srtNext := rfl
@[simp] theorem orReg_srtCopy (s : State) (a v : Nat) : (orReg s a v).srtCopy = s.srtCopy := rfl
@[simp] theorem orReg_binds (s : State) (a v : Nat) : (orReg s a v).binds = s.binds := rfl
@[simp] theorem orReg_seqBlocks (s : State) (a v : Nat) : (orReg s a v).seqBlocks = s.seqBlocks := rfl
@[simp] theorem orReg_egress (s : State) (a v : Nat) : (orReg s a v).egress = s.egress := rfl
@[simp] theorem orReg_txRings (s : State) (a v : Nat) : (orReg s a v).txRings = s.txRings := rfl
@[simp] theorem orReg_engines (s : State) (a v : Nat) : (orReg s a v).engines = s.engines := rfl
@[simp] theorem orReg_saks (s : State) (a v : Nat) : (orReg s a v).saks = s.saks := rfl
@[simp] theorem orReg_station (s : State) (a v : Nat) : (orReg s a v).station = s.station := rfl
@[simp] theorem orReg_carriers (s : State) (a v : Nat) : (orReg s a v).carriers = s.carriers := rfl
@[simp] theorem orReg_parts (s : State) (a v : Nat) : (orReg s a v).parts = s.parts := rfl
@[simp] theorem orReg_cellA (s : State) (a v : Nat) : (orReg s a v).cellA = s.cellA := rfl
@[simp] theorem orReg_cellS (s : State) (a v : Nat) : (orReg s a v).cellS = s.cellS := rfl
@[simp] theorem orReg_ctxs (s : State) (a v : Nat) : (orReg s a v).ctxs = s.ctxs := rfl
@[simp] theorem orReg_vfs (s : State) (a v : Nat) : (orReg s a v).vfs = s.vfs := rfl
@[simp] theorem orReg_harts (s : State) (a v : Nat) : (orReg s a v).harts = s.harts := rfl
@[simp] theorem orReg_inData (s : State) (a v : Nat) : (orReg s a v).inData = s.inData := rfl
@[simp] theorem orReg_effects (s : State) (a v : Nat) : (orReg s a v).effects = s.effects := rfl
@[simp] theorem orReg_acts (s : State) (a v : Nat) : (orReg s a v).acts = s.acts := rfl
@[simp] theorem orReg_trunk (s : State) (a v : Nat) : (orReg s a v).trunk = s.trunk := rfl
@[simp] theorem orReg_routeEpoch (s : State) (a v : Nat) : (orReg s a v).routeEpoch = s.routeEpoch := rfl
@[simp] theorem orReg_drain (s : State) (a v : Nat) : (orReg s a v).drain = s.drain := rfl
@[simp] theorem orReg_fabricId (s : State) (a v : Nat) : (orReg s a v).fabricId = s.fabricId := rfl
@[simp] theorem orReg_earlyReady (s : State) (a v : Nat) : (orReg s a v).earlyReady = s.earlyReady := rfl
@[simp] theorem orReg_fltSeq (s : State) (a v : Nat) : (orReg s a v).fltSeq = s.fltSeq := rfl
@[simp] theorem orReg_fltLog (s : State) (a v : Nat) : (orReg s a v).fltLog = s.fltLog := rfl
@[simp] theorem orReg_dumps (s : State) (a v : Nat) : (orReg s a v).dumps = s.dumps := rfl
@[simp] theorem orReg_gathers (s : State) (a v : Nat) : (orReg s a v).gathers = s.gathers := rfl
@[simp] theorem orReg_dumpSeq (s : State) (a v : Nat) : (orReg s a v).dumpSeq = s.dumpSeq := rfl
@[simp] theorem orReg_quarantines (s : State) (a v : Nat) : (orReg s a v).quarantines = s.quarantines := rfl
@[simp] theorem orReg_seedStage (s : State) (a v : Nat) : (orReg s a v).seedStage = s.seedStage := rfl
@[simp] theorem orReg_suspectSeq (s : State) (a v : Nat) : (orReg s a v).suspectSeq = s.suspectSeq := rfl
@[simp] theorem orReg_life (s : State) (a v : Nat) : (orReg s a v).life = s.life := rfl
@[simp] theorem orReg_store (s : State) (a v : Nat) : (orReg s a v).store = s.store := rfl
@[simp] theorem orReg_wire (s : State) (a v : Nat) : (orReg s a v).wire = s.wire := rfl
@[simp] theorem orReg_fresh (s : State) (a v : Nat) : (orReg s a v).fresh = s.fresh := rfl

/-! ## clrReg -/

@[simp] theorem clrReg_pending (s : State) (a v : Nat) : (clrReg s a v).pending = s.pending := rfl
@[simp] theorem clrReg_latches (s : State) (a v : Nat) : (clrReg s a v).latches = s.latches := rfl
@[simp] theorem clrReg_level (s : State) (a v : Nat) : (clrReg s a v).level = s.level := rfl
@[simp] theorem clrReg_tick (s : State) (a v : Nat) : (clrReg s a v).tick = s.tick := rfl
@[simp] theorem clrReg_sig (s : State) (a v : Nat) : (clrReg s a v).sig = s.sig := rfl
@[simp] theorem clrReg_disabled (s : State) (a v : Nat) : (clrReg s a v).disabled = s.disabled := rfl
@[simp] theorem clrReg_retired (s : State) (a v : Nat) : (clrReg s a v).retired = s.retired := rfl
@[simp] theorem clrReg_tiles (s : State) (a v : Nat) : (clrReg s a v).tiles = s.tiles := rfl
@[simp] theorem clrReg_changing (s : State) (a v : Nat) : (clrReg s a v).changing = s.changing := rfl
@[simp] theorem clrReg_tracing (s : State) (a v : Nat) : (clrReg s a v).tracing = s.tracing := rfl
@[simp] theorem clrReg_hub (s : State) (a v : Nat) : (clrReg s a v).hub = s.hub := rfl
@[simp] theorem clrReg_tts (s : State) (a v : Nat) : (clrReg s a v).tts = s.tts := rfl
@[simp] theorem clrReg_admitSeq (s : State) (a v : Nat) : (clrReg s a v).admitSeq = s.admitSeq := rfl
@[simp] theorem clrReg_siding (s : State) (a v : Nat) : (clrReg s a v).siding = s.siding := rfl
@[simp] theorem clrReg_sdg (s : State) (a v : Nat) : (clrReg s a v).sdg = s.sdg := rfl
@[simp] theorem clrReg_fills (s : State) (a v : Nat) : (clrReg s a v).fills = s.fills := rfl
@[simp] theorem clrReg_lib (s : State) (a v : Nat) : (clrReg s a v).lib = s.lib := rfl
@[simp] theorem clrReg_libTiles (s : State) (a v : Nat) : (clrReg s a v).libTiles = s.libTiles := rfl
@[simp] theorem clrReg_scans (s : State) (a v : Nat) : (clrReg s a v).scans = s.scans := rfl
@[simp] theorem clrReg_mem (s : State) (a v : Nat) : (clrReg s a v).mem = s.mem := rfl
@[simp] theorem clrReg_pcs (s : State) (a v : Nat) : (clrReg s a v).pcs = s.pcs := rfl
@[simp] theorem clrReg_pages (s : State) (a v : Nat) : (clrReg s a v).pages = s.pages := rfl
@[simp] theorem clrReg_lines (s : State) (a v : Nat) : (clrReg s a v).lines = s.lines := rfl
@[simp] theorem clrReg_domains (s : State) (a v : Nat) : (clrReg s a v).domains = s.domains := rfl
@[simp] theorem clrReg_blocks (s : State) (a v : Nat) : (clrReg s a v).blocks = s.blocks := rfl
@[simp] theorem clrReg_stalls (s : State) (a v : Nat) : (clrReg s a v).stalls = s.stalls := rfl
@[simp] theorem clrReg_scrub (s : State) (a v : Nat) : (clrReg s a v).scrub = s.scrub := rfl
@[simp] theorem clrReg_scrubDue (s : State) (a v : Nat) : (clrReg s a v).scrubDue = s.scrubDue := rfl
@[simp] theorem clrReg_spareBad (s : State) (a v : Nat) : (clrReg s a v).spareBad = s.spareBad := rfl
@[simp] theorem clrReg_retiredPcs (s : State) (a v : Nat) : (clrReg s a v).retiredPcs = s.retiredPcs := rfl
@[simp] theorem clrReg_queues (s : State) (a v : Nat) : (clrReg s a v).queues = s.queues := rfl
@[simp] theorem clrReg_rx (s : State) (a v : Nat) : (clrReg s a v).rx = s.rx := rfl
@[simp] theorem clrReg_staging (s : State) (a v : Nat) : (clrReg s a v).staging = s.staging := rfl
@[simp] theorem clrReg_srtA (s : State) (a v : Nat) : (clrReg s a v).srtA = s.srtA := rfl
@[simp] theorem clrReg_srtS (s : State) (a v : Nat) : (clrReg s a v).srtS = s.srtS := rfl
@[simp] theorem clrReg_srtCopying (s : State) (a v : Nat) : (clrReg s a v).srtCopying = s.srtCopying := rfl
@[simp] theorem clrReg_srtPending (s : State) (a v : Nat) : (clrReg s a v).srtPending = s.srtPending := rfl
@[simp] theorem clrReg_srtNext (s : State) (a v : Nat) : (clrReg s a v).srtNext = s.srtNext := rfl
@[simp] theorem clrReg_srtCopy (s : State) (a v : Nat) : (clrReg s a v).srtCopy = s.srtCopy := rfl
@[simp] theorem clrReg_binds (s : State) (a v : Nat) : (clrReg s a v).binds = s.binds := rfl
@[simp] theorem clrReg_seqBlocks (s : State) (a v : Nat) : (clrReg s a v).seqBlocks = s.seqBlocks := rfl
@[simp] theorem clrReg_egress (s : State) (a v : Nat) : (clrReg s a v).egress = s.egress := rfl
@[simp] theorem clrReg_txRings (s : State) (a v : Nat) : (clrReg s a v).txRings = s.txRings := rfl
@[simp] theorem clrReg_engines (s : State) (a v : Nat) : (clrReg s a v).engines = s.engines := rfl
@[simp] theorem clrReg_saks (s : State) (a v : Nat) : (clrReg s a v).saks = s.saks := rfl
@[simp] theorem clrReg_station (s : State) (a v : Nat) : (clrReg s a v).station = s.station := rfl
@[simp] theorem clrReg_carriers (s : State) (a v : Nat) : (clrReg s a v).carriers = s.carriers := rfl
@[simp] theorem clrReg_parts (s : State) (a v : Nat) : (clrReg s a v).parts = s.parts := rfl
@[simp] theorem clrReg_cellA (s : State) (a v : Nat) : (clrReg s a v).cellA = s.cellA := rfl
@[simp] theorem clrReg_cellS (s : State) (a v : Nat) : (clrReg s a v).cellS = s.cellS := rfl
@[simp] theorem clrReg_ctxs (s : State) (a v : Nat) : (clrReg s a v).ctxs = s.ctxs := rfl
@[simp] theorem clrReg_vfs (s : State) (a v : Nat) : (clrReg s a v).vfs = s.vfs := rfl
@[simp] theorem clrReg_harts (s : State) (a v : Nat) : (clrReg s a v).harts = s.harts := rfl
@[simp] theorem clrReg_inData (s : State) (a v : Nat) : (clrReg s a v).inData = s.inData := rfl
@[simp] theorem clrReg_effects (s : State) (a v : Nat) : (clrReg s a v).effects = s.effects := rfl
@[simp] theorem clrReg_acts (s : State) (a v : Nat) : (clrReg s a v).acts = s.acts := rfl
@[simp] theorem clrReg_trunk (s : State) (a v : Nat) : (clrReg s a v).trunk = s.trunk := rfl
@[simp] theorem clrReg_routeEpoch (s : State) (a v : Nat) : (clrReg s a v).routeEpoch = s.routeEpoch := rfl
@[simp] theorem clrReg_drain (s : State) (a v : Nat) : (clrReg s a v).drain = s.drain := rfl
@[simp] theorem clrReg_fabricId (s : State) (a v : Nat) : (clrReg s a v).fabricId = s.fabricId := rfl
@[simp] theorem clrReg_earlyReady (s : State) (a v : Nat) : (clrReg s a v).earlyReady = s.earlyReady := rfl
@[simp] theorem clrReg_fltSeq (s : State) (a v : Nat) : (clrReg s a v).fltSeq = s.fltSeq := rfl
@[simp] theorem clrReg_fltLog (s : State) (a v : Nat) : (clrReg s a v).fltLog = s.fltLog := rfl
@[simp] theorem clrReg_dumps (s : State) (a v : Nat) : (clrReg s a v).dumps = s.dumps := rfl
@[simp] theorem clrReg_gathers (s : State) (a v : Nat) : (clrReg s a v).gathers = s.gathers := rfl
@[simp] theorem clrReg_dumpSeq (s : State) (a v : Nat) : (clrReg s a v).dumpSeq = s.dumpSeq := rfl
@[simp] theorem clrReg_quarantines (s : State) (a v : Nat) : (clrReg s a v).quarantines = s.quarantines := rfl
@[simp] theorem clrReg_seedStage (s : State) (a v : Nat) : (clrReg s a v).seedStage = s.seedStage := rfl
@[simp] theorem clrReg_suspectSeq (s : State) (a v : Nat) : (clrReg s a v).suspectSeq = s.suspectSeq := rfl
@[simp] theorem clrReg_life (s : State) (a v : Nat) : (clrReg s a v).life = s.life := rfl
@[simp] theorem clrReg_store (s : State) (a v : Nat) : (clrReg s a v).store = s.store := rfl
@[simp] theorem clrReg_wire (s : State) (a v : Nat) : (clrReg s a v).wire = s.wire := rfl
@[simp] theorem clrReg_fresh (s : State) (a v : Nat) : (clrReg s a v).fresh = s.fresh := rfl

/-! ## incReg -/

@[simp] theorem incReg_pending (s : State) (a v : Nat) : (incReg s a v).pending = s.pending := rfl
@[simp] theorem incReg_latches (s : State) (a v : Nat) : (incReg s a v).latches = s.latches := rfl
@[simp] theorem incReg_level (s : State) (a v : Nat) : (incReg s a v).level = s.level := rfl
@[simp] theorem incReg_tick (s : State) (a v : Nat) : (incReg s a v).tick = s.tick := rfl
@[simp] theorem incReg_sig (s : State) (a v : Nat) : (incReg s a v).sig = s.sig := rfl
@[simp] theorem incReg_disabled (s : State) (a v : Nat) : (incReg s a v).disabled = s.disabled := rfl
@[simp] theorem incReg_retired (s : State) (a v : Nat) : (incReg s a v).retired = s.retired := rfl
@[simp] theorem incReg_tiles (s : State) (a v : Nat) : (incReg s a v).tiles = s.tiles := rfl
@[simp] theorem incReg_changing (s : State) (a v : Nat) : (incReg s a v).changing = s.changing := rfl
@[simp] theorem incReg_tracing (s : State) (a v : Nat) : (incReg s a v).tracing = s.tracing := rfl
@[simp] theorem incReg_hub (s : State) (a v : Nat) : (incReg s a v).hub = s.hub := rfl
@[simp] theorem incReg_tts (s : State) (a v : Nat) : (incReg s a v).tts = s.tts := rfl
@[simp] theorem incReg_admitSeq (s : State) (a v : Nat) : (incReg s a v).admitSeq = s.admitSeq := rfl
@[simp] theorem incReg_siding (s : State) (a v : Nat) : (incReg s a v).siding = s.siding := rfl
@[simp] theorem incReg_sdg (s : State) (a v : Nat) : (incReg s a v).sdg = s.sdg := rfl
@[simp] theorem incReg_fills (s : State) (a v : Nat) : (incReg s a v).fills = s.fills := rfl
@[simp] theorem incReg_lib (s : State) (a v : Nat) : (incReg s a v).lib = s.lib := rfl
@[simp] theorem incReg_libTiles (s : State) (a v : Nat) : (incReg s a v).libTiles = s.libTiles := rfl
@[simp] theorem incReg_scans (s : State) (a v : Nat) : (incReg s a v).scans = s.scans := rfl
@[simp] theorem incReg_mem (s : State) (a v : Nat) : (incReg s a v).mem = s.mem := rfl
@[simp] theorem incReg_pcs (s : State) (a v : Nat) : (incReg s a v).pcs = s.pcs := rfl
@[simp] theorem incReg_pages (s : State) (a v : Nat) : (incReg s a v).pages = s.pages := rfl
@[simp] theorem incReg_lines (s : State) (a v : Nat) : (incReg s a v).lines = s.lines := rfl
@[simp] theorem incReg_domains (s : State) (a v : Nat) : (incReg s a v).domains = s.domains := rfl
@[simp] theorem incReg_blocks (s : State) (a v : Nat) : (incReg s a v).blocks = s.blocks := rfl
@[simp] theorem incReg_stalls (s : State) (a v : Nat) : (incReg s a v).stalls = s.stalls := rfl
@[simp] theorem incReg_scrub (s : State) (a v : Nat) : (incReg s a v).scrub = s.scrub := rfl
@[simp] theorem incReg_scrubDue (s : State) (a v : Nat) : (incReg s a v).scrubDue = s.scrubDue := rfl
@[simp] theorem incReg_spareBad (s : State) (a v : Nat) : (incReg s a v).spareBad = s.spareBad := rfl
@[simp] theorem incReg_retiredPcs (s : State) (a v : Nat) : (incReg s a v).retiredPcs = s.retiredPcs := rfl
@[simp] theorem incReg_queues (s : State) (a v : Nat) : (incReg s a v).queues = s.queues := rfl
@[simp] theorem incReg_rx (s : State) (a v : Nat) : (incReg s a v).rx = s.rx := rfl
@[simp] theorem incReg_staging (s : State) (a v : Nat) : (incReg s a v).staging = s.staging := rfl
@[simp] theorem incReg_srtA (s : State) (a v : Nat) : (incReg s a v).srtA = s.srtA := rfl
@[simp] theorem incReg_srtS (s : State) (a v : Nat) : (incReg s a v).srtS = s.srtS := rfl
@[simp] theorem incReg_srtCopying (s : State) (a v : Nat) : (incReg s a v).srtCopying = s.srtCopying := rfl
@[simp] theorem incReg_srtPending (s : State) (a v : Nat) : (incReg s a v).srtPending = s.srtPending := rfl
@[simp] theorem incReg_srtNext (s : State) (a v : Nat) : (incReg s a v).srtNext = s.srtNext := rfl
@[simp] theorem incReg_srtCopy (s : State) (a v : Nat) : (incReg s a v).srtCopy = s.srtCopy := rfl
@[simp] theorem incReg_binds (s : State) (a v : Nat) : (incReg s a v).binds = s.binds := rfl
@[simp] theorem incReg_seqBlocks (s : State) (a v : Nat) : (incReg s a v).seqBlocks = s.seqBlocks := rfl
@[simp] theorem incReg_egress (s : State) (a v : Nat) : (incReg s a v).egress = s.egress := rfl
@[simp] theorem incReg_txRings (s : State) (a v : Nat) : (incReg s a v).txRings = s.txRings := rfl
@[simp] theorem incReg_engines (s : State) (a v : Nat) : (incReg s a v).engines = s.engines := rfl
@[simp] theorem incReg_saks (s : State) (a v : Nat) : (incReg s a v).saks = s.saks := rfl
@[simp] theorem incReg_station (s : State) (a v : Nat) : (incReg s a v).station = s.station := rfl
@[simp] theorem incReg_carriers (s : State) (a v : Nat) : (incReg s a v).carriers = s.carriers := rfl
@[simp] theorem incReg_parts (s : State) (a v : Nat) : (incReg s a v).parts = s.parts := rfl
@[simp] theorem incReg_cellA (s : State) (a v : Nat) : (incReg s a v).cellA = s.cellA := rfl
@[simp] theorem incReg_cellS (s : State) (a v : Nat) : (incReg s a v).cellS = s.cellS := rfl
@[simp] theorem incReg_ctxs (s : State) (a v : Nat) : (incReg s a v).ctxs = s.ctxs := rfl
@[simp] theorem incReg_vfs (s : State) (a v : Nat) : (incReg s a v).vfs = s.vfs := rfl
@[simp] theorem incReg_harts (s : State) (a v : Nat) : (incReg s a v).harts = s.harts := rfl
@[simp] theorem incReg_inData (s : State) (a v : Nat) : (incReg s a v).inData = s.inData := rfl
@[simp] theorem incReg_effects (s : State) (a v : Nat) : (incReg s a v).effects = s.effects := rfl
@[simp] theorem incReg_acts (s : State) (a v : Nat) : (incReg s a v).acts = s.acts := rfl
@[simp] theorem incReg_trunk (s : State) (a v : Nat) : (incReg s a v).trunk = s.trunk := rfl
@[simp] theorem incReg_routeEpoch (s : State) (a v : Nat) : (incReg s a v).routeEpoch = s.routeEpoch := rfl
@[simp] theorem incReg_drain (s : State) (a v : Nat) : (incReg s a v).drain = s.drain := rfl
@[simp] theorem incReg_fabricId (s : State) (a v : Nat) : (incReg s a v).fabricId = s.fabricId := rfl
@[simp] theorem incReg_earlyReady (s : State) (a v : Nat) : (incReg s a v).earlyReady = s.earlyReady := rfl
@[simp] theorem incReg_fltSeq (s : State) (a v : Nat) : (incReg s a v).fltSeq = s.fltSeq := rfl
@[simp] theorem incReg_fltLog (s : State) (a v : Nat) : (incReg s a v).fltLog = s.fltLog := rfl
@[simp] theorem incReg_dumps (s : State) (a v : Nat) : (incReg s a v).dumps = s.dumps := rfl
@[simp] theorem incReg_gathers (s : State) (a v : Nat) : (incReg s a v).gathers = s.gathers := rfl
@[simp] theorem incReg_dumpSeq (s : State) (a v : Nat) : (incReg s a v).dumpSeq = s.dumpSeq := rfl
@[simp] theorem incReg_quarantines (s : State) (a v : Nat) : (incReg s a v).quarantines = s.quarantines := rfl
@[simp] theorem incReg_seedStage (s : State) (a v : Nat) : (incReg s a v).seedStage = s.seedStage := rfl
@[simp] theorem incReg_suspectSeq (s : State) (a v : Nat) : (incReg s a v).suspectSeq = s.suspectSeq := rfl
@[simp] theorem incReg_life (s : State) (a v : Nat) : (incReg s a v).life = s.life := rfl
@[simp] theorem incReg_store (s : State) (a v : Nat) : (incReg s a v).store = s.store := rfl
@[simp] theorem incReg_wire (s : State) (a v : Nat) : (incReg s a v).wire = s.wire := rfl
@[simp] theorem incReg_fresh (s : State) (a v : Nat) : (incReg s a v).fresh = s.fresh := rfl

/-! ## bump -/

@[simp] theorem bump_pending (s : State) (a v : Nat) : (bump s a v).pending = s.pending := rfl
@[simp] theorem bump_latches (s : State) (a v : Nat) : (bump s a v).latches = s.latches := rfl
@[simp] theorem bump_level (s : State) (a v : Nat) : (bump s a v).level = s.level := rfl
@[simp] theorem bump_tick (s : State) (a v : Nat) : (bump s a v).tick = s.tick := rfl
@[simp] theorem bump_sig (s : State) (a v : Nat) : (bump s a v).sig = s.sig := rfl
@[simp] theorem bump_disabled (s : State) (a v : Nat) : (bump s a v).disabled = s.disabled := rfl
@[simp] theorem bump_retired (s : State) (a v : Nat) : (bump s a v).retired = s.retired := rfl
@[simp] theorem bump_tiles (s : State) (a v : Nat) : (bump s a v).tiles = s.tiles := rfl
@[simp] theorem bump_changing (s : State) (a v : Nat) : (bump s a v).changing = s.changing := rfl
@[simp] theorem bump_tracing (s : State) (a v : Nat) : (bump s a v).tracing = s.tracing := rfl
@[simp] theorem bump_hub (s : State) (a v : Nat) : (bump s a v).hub = s.hub := rfl
@[simp] theorem bump_tts (s : State) (a v : Nat) : (bump s a v).tts = s.tts := rfl
@[simp] theorem bump_admitSeq (s : State) (a v : Nat) : (bump s a v).admitSeq = s.admitSeq := rfl
@[simp] theorem bump_siding (s : State) (a v : Nat) : (bump s a v).siding = s.siding := rfl
@[simp] theorem bump_sdg (s : State) (a v : Nat) : (bump s a v).sdg = s.sdg := rfl
@[simp] theorem bump_fills (s : State) (a v : Nat) : (bump s a v).fills = s.fills := rfl
@[simp] theorem bump_lib (s : State) (a v : Nat) : (bump s a v).lib = s.lib := rfl
@[simp] theorem bump_libTiles (s : State) (a v : Nat) : (bump s a v).libTiles = s.libTiles := rfl
@[simp] theorem bump_scans (s : State) (a v : Nat) : (bump s a v).scans = s.scans := rfl
@[simp] theorem bump_mem (s : State) (a v : Nat) : (bump s a v).mem = s.mem := rfl
@[simp] theorem bump_pcs (s : State) (a v : Nat) : (bump s a v).pcs = s.pcs := rfl
@[simp] theorem bump_pages (s : State) (a v : Nat) : (bump s a v).pages = s.pages := rfl
@[simp] theorem bump_lines (s : State) (a v : Nat) : (bump s a v).lines = s.lines := rfl
@[simp] theorem bump_domains (s : State) (a v : Nat) : (bump s a v).domains = s.domains := rfl
@[simp] theorem bump_blocks (s : State) (a v : Nat) : (bump s a v).blocks = s.blocks := rfl
@[simp] theorem bump_stalls (s : State) (a v : Nat) : (bump s a v).stalls = s.stalls := rfl
@[simp] theorem bump_scrub (s : State) (a v : Nat) : (bump s a v).scrub = s.scrub := rfl
@[simp] theorem bump_scrubDue (s : State) (a v : Nat) : (bump s a v).scrubDue = s.scrubDue := rfl
@[simp] theorem bump_spareBad (s : State) (a v : Nat) : (bump s a v).spareBad = s.spareBad := rfl
@[simp] theorem bump_retiredPcs (s : State) (a v : Nat) : (bump s a v).retiredPcs = s.retiredPcs := rfl
@[simp] theorem bump_queues (s : State) (a v : Nat) : (bump s a v).queues = s.queues := rfl
@[simp] theorem bump_rx (s : State) (a v : Nat) : (bump s a v).rx = s.rx := rfl
@[simp] theorem bump_staging (s : State) (a v : Nat) : (bump s a v).staging = s.staging := rfl
@[simp] theorem bump_srtA (s : State) (a v : Nat) : (bump s a v).srtA = s.srtA := rfl
@[simp] theorem bump_srtS (s : State) (a v : Nat) : (bump s a v).srtS = s.srtS := rfl
@[simp] theorem bump_srtCopying (s : State) (a v : Nat) : (bump s a v).srtCopying = s.srtCopying := rfl
@[simp] theorem bump_srtPending (s : State) (a v : Nat) : (bump s a v).srtPending = s.srtPending := rfl
@[simp] theorem bump_srtNext (s : State) (a v : Nat) : (bump s a v).srtNext = s.srtNext := rfl
@[simp] theorem bump_srtCopy (s : State) (a v : Nat) : (bump s a v).srtCopy = s.srtCopy := rfl
@[simp] theorem bump_binds (s : State) (a v : Nat) : (bump s a v).binds = s.binds := rfl
@[simp] theorem bump_seqBlocks (s : State) (a v : Nat) : (bump s a v).seqBlocks = s.seqBlocks := rfl
@[simp] theorem bump_egress (s : State) (a v : Nat) : (bump s a v).egress = s.egress := rfl
@[simp] theorem bump_txRings (s : State) (a v : Nat) : (bump s a v).txRings = s.txRings := rfl
@[simp] theorem bump_engines (s : State) (a v : Nat) : (bump s a v).engines = s.engines := rfl
@[simp] theorem bump_saks (s : State) (a v : Nat) : (bump s a v).saks = s.saks := rfl
@[simp] theorem bump_station (s : State) (a v : Nat) : (bump s a v).station = s.station := rfl
@[simp] theorem bump_carriers (s : State) (a v : Nat) : (bump s a v).carriers = s.carriers := rfl
@[simp] theorem bump_parts (s : State) (a v : Nat) : (bump s a v).parts = s.parts := rfl
@[simp] theorem bump_cellA (s : State) (a v : Nat) : (bump s a v).cellA = s.cellA := rfl
@[simp] theorem bump_cellS (s : State) (a v : Nat) : (bump s a v).cellS = s.cellS := rfl
@[simp] theorem bump_ctxs (s : State) (a v : Nat) : (bump s a v).ctxs = s.ctxs := rfl
@[simp] theorem bump_vfs (s : State) (a v : Nat) : (bump s a v).vfs = s.vfs := rfl
@[simp] theorem bump_harts (s : State) (a v : Nat) : (bump s a v).harts = s.harts := rfl
@[simp] theorem bump_inData (s : State) (a v : Nat) : (bump s a v).inData = s.inData := rfl
@[simp] theorem bump_effects (s : State) (a v : Nat) : (bump s a v).effects = s.effects := rfl
@[simp] theorem bump_acts (s : State) (a v : Nat) : (bump s a v).acts = s.acts := rfl
@[simp] theorem bump_trunk (s : State) (a v : Nat) : (bump s a v).trunk = s.trunk := rfl
@[simp] theorem bump_routeEpoch (s : State) (a v : Nat) : (bump s a v).routeEpoch = s.routeEpoch := rfl
@[simp] theorem bump_drain (s : State) (a v : Nat) : (bump s a v).drain = s.drain := rfl
@[simp] theorem bump_fabricId (s : State) (a v : Nat) : (bump s a v).fabricId = s.fabricId := rfl
@[simp] theorem bump_earlyReady (s : State) (a v : Nat) : (bump s a v).earlyReady = s.earlyReady := rfl
@[simp] theorem bump_fltSeq (s : State) (a v : Nat) : (bump s a v).fltSeq = s.fltSeq := rfl
@[simp] theorem bump_fltLog (s : State) (a v : Nat) : (bump s a v).fltLog = s.fltLog := rfl
@[simp] theorem bump_dumps (s : State) (a v : Nat) : (bump s a v).dumps = s.dumps := rfl
@[simp] theorem bump_gathers (s : State) (a v : Nat) : (bump s a v).gathers = s.gathers := rfl
@[simp] theorem bump_dumpSeq (s : State) (a v : Nat) : (bump s a v).dumpSeq = s.dumpSeq := rfl
@[simp] theorem bump_quarantines (s : State) (a v : Nat) : (bump s a v).quarantines = s.quarantines := rfl
@[simp] theorem bump_seedStage (s : State) (a v : Nat) : (bump s a v).seedStage = s.seedStage := rfl
@[simp] theorem bump_suspectSeq (s : State) (a v : Nat) : (bump s a v).suspectSeq = s.suspectSeq := rfl
@[simp] theorem bump_life (s : State) (a v : Nat) : (bump s a v).life = s.life := rfl
@[simp] theorem bump_store (s : State) (a v : Nat) : (bump s a v).store = s.store := rfl
@[simp] theorem bump_wire (s : State) (a v : Nat) : (bump s a v).wire = s.wire := rfl
@[simp] theorem bump_fresh (s : State) (a v : Nat) : (bump s a v).fresh = s.fresh := rfl

/-! ## emit -/

@[simp] theorem emit_pending (s : State) (o : Out) : (emit s o).pending = s.pending := rfl
@[simp] theorem emit_regs (s : State) (o : Out) : (emit s o).regs = s.regs := rfl
@[simp] theorem emit_latches (s : State) (o : Out) : (emit s o).latches = s.latches := rfl
@[simp] theorem emit_level (s : State) (o : Out) : (emit s o).level = s.level := rfl
@[simp] theorem emit_tick (s : State) (o : Out) : (emit s o).tick = s.tick := rfl
@[simp] theorem emit_sig (s : State) (o : Out) : (emit s o).sig = s.sig := rfl
@[simp] theorem emit_disabled (s : State) (o : Out) : (emit s o).disabled = s.disabled := rfl
@[simp] theorem emit_retired (s : State) (o : Out) : (emit s o).retired = s.retired := rfl
@[simp] theorem emit_tiles (s : State) (o : Out) : (emit s o).tiles = s.tiles := rfl
@[simp] theorem emit_changing (s : State) (o : Out) : (emit s o).changing = s.changing := rfl
@[simp] theorem emit_tracing (s : State) (o : Out) : (emit s o).tracing = s.tracing := rfl
@[simp] theorem emit_hub (s : State) (o : Out) : (emit s o).hub = s.hub := rfl
@[simp] theorem emit_tts (s : State) (o : Out) : (emit s o).tts = s.tts := rfl
@[simp] theorem emit_admitSeq (s : State) (o : Out) : (emit s o).admitSeq = s.admitSeq := rfl
@[simp] theorem emit_siding (s : State) (o : Out) : (emit s o).siding = s.siding := rfl
@[simp] theorem emit_sdg (s : State) (o : Out) : (emit s o).sdg = s.sdg := rfl
@[simp] theorem emit_fills (s : State) (o : Out) : (emit s o).fills = s.fills := rfl
@[simp] theorem emit_lib (s : State) (o : Out) : (emit s o).lib = s.lib := rfl
@[simp] theorem emit_libTiles (s : State) (o : Out) : (emit s o).libTiles = s.libTiles := rfl
@[simp] theorem emit_scans (s : State) (o : Out) : (emit s o).scans = s.scans := rfl
@[simp] theorem emit_mem (s : State) (o : Out) : (emit s o).mem = s.mem := rfl
@[simp] theorem emit_pcs (s : State) (o : Out) : (emit s o).pcs = s.pcs := rfl
@[simp] theorem emit_pages (s : State) (o : Out) : (emit s o).pages = s.pages := rfl
@[simp] theorem emit_lines (s : State) (o : Out) : (emit s o).lines = s.lines := rfl
@[simp] theorem emit_domains (s : State) (o : Out) : (emit s o).domains = s.domains := rfl
@[simp] theorem emit_blocks (s : State) (o : Out) : (emit s o).blocks = s.blocks := rfl
@[simp] theorem emit_stalls (s : State) (o : Out) : (emit s o).stalls = s.stalls := rfl
@[simp] theorem emit_scrub (s : State) (o : Out) : (emit s o).scrub = s.scrub := rfl
@[simp] theorem emit_scrubDue (s : State) (o : Out) : (emit s o).scrubDue = s.scrubDue := rfl
@[simp] theorem emit_spareBad (s : State) (o : Out) : (emit s o).spareBad = s.spareBad := rfl
@[simp] theorem emit_retiredPcs (s : State) (o : Out) : (emit s o).retiredPcs = s.retiredPcs := rfl
@[simp] theorem emit_queues (s : State) (o : Out) : (emit s o).queues = s.queues := rfl
@[simp] theorem emit_rx (s : State) (o : Out) : (emit s o).rx = s.rx := rfl
@[simp] theorem emit_staging (s : State) (o : Out) : (emit s o).staging = s.staging := rfl
@[simp] theorem emit_srtA (s : State) (o : Out) : (emit s o).srtA = s.srtA := rfl
@[simp] theorem emit_srtS (s : State) (o : Out) : (emit s o).srtS = s.srtS := rfl
@[simp] theorem emit_srtCopying (s : State) (o : Out) : (emit s o).srtCopying = s.srtCopying := rfl
@[simp] theorem emit_srtPending (s : State) (o : Out) : (emit s o).srtPending = s.srtPending := rfl
@[simp] theorem emit_srtNext (s : State) (o : Out) : (emit s o).srtNext = s.srtNext := rfl
@[simp] theorem emit_srtCopy (s : State) (o : Out) : (emit s o).srtCopy = s.srtCopy := rfl
@[simp] theorem emit_binds (s : State) (o : Out) : (emit s o).binds = s.binds := rfl
@[simp] theorem emit_seqBlocks (s : State) (o : Out) : (emit s o).seqBlocks = s.seqBlocks := rfl
@[simp] theorem emit_egress (s : State) (o : Out) : (emit s o).egress = s.egress := rfl
@[simp] theorem emit_txRings (s : State) (o : Out) : (emit s o).txRings = s.txRings := rfl
@[simp] theorem emit_engines (s : State) (o : Out) : (emit s o).engines = s.engines := rfl
@[simp] theorem emit_saks (s : State) (o : Out) : (emit s o).saks = s.saks := rfl
@[simp] theorem emit_station (s : State) (o : Out) : (emit s o).station = s.station := rfl
@[simp] theorem emit_carriers (s : State) (o : Out) : (emit s o).carriers = s.carriers := rfl
@[simp] theorem emit_parts (s : State) (o : Out) : (emit s o).parts = s.parts := rfl
@[simp] theorem emit_cellA (s : State) (o : Out) : (emit s o).cellA = s.cellA := rfl
@[simp] theorem emit_cellS (s : State) (o : Out) : (emit s o).cellS = s.cellS := rfl
@[simp] theorem emit_ctxs (s : State) (o : Out) : (emit s o).ctxs = s.ctxs := rfl
@[simp] theorem emit_vfs (s : State) (o : Out) : (emit s o).vfs = s.vfs := rfl
@[simp] theorem emit_harts (s : State) (o : Out) : (emit s o).harts = s.harts := rfl
@[simp] theorem emit_inData (s : State) (o : Out) : (emit s o).inData = s.inData := rfl
@[simp] theorem emit_effects (s : State) (o : Out) : (emit s o).effects = s.effects := rfl
@[simp] theorem emit_acts (s : State) (o : Out) : (emit s o).acts = s.acts := rfl
@[simp] theorem emit_trunk (s : State) (o : Out) : (emit s o).trunk = s.trunk := rfl
@[simp] theorem emit_routeEpoch (s : State) (o : Out) : (emit s o).routeEpoch = s.routeEpoch := rfl
@[simp] theorem emit_drain (s : State) (o : Out) : (emit s o).drain = s.drain := rfl
@[simp] theorem emit_fabricId (s : State) (o : Out) : (emit s o).fabricId = s.fabricId := rfl
@[simp] theorem emit_earlyReady (s : State) (o : Out) : (emit s o).earlyReady = s.earlyReady := rfl
@[simp] theorem emit_fltSeq (s : State) (o : Out) : (emit s o).fltSeq = s.fltSeq := rfl
@[simp] theorem emit_fltLog (s : State) (o : Out) : (emit s o).fltLog = s.fltLog := rfl
@[simp] theorem emit_dumps (s : State) (o : Out) : (emit s o).dumps = s.dumps := rfl
@[simp] theorem emit_gathers (s : State) (o : Out) : (emit s o).gathers = s.gathers := rfl
@[simp] theorem emit_dumpSeq (s : State) (o : Out) : (emit s o).dumpSeq = s.dumpSeq := rfl
@[simp] theorem emit_quarantines (s : State) (o : Out) : (emit s o).quarantines = s.quarantines := rfl
@[simp] theorem emit_seedStage (s : State) (o : Out) : (emit s o).seedStage = s.seedStage := rfl
@[simp] theorem emit_suspectSeq (s : State) (o : Out) : (emit s o).suspectSeq = s.suspectSeq := rfl
@[simp] theorem emit_life (s : State) (o : Out) : (emit s o).life = s.life := rfl
@[simp] theorem emit_store (s : State) (o : Out) : (emit s o).store = s.store := rfl
@[simp] theorem emit_fresh (s : State) (o : Out) : (emit s o).fresh = s.fresh := rfl

/-! ## What they change -/

@[simp] theorem setReg_regs (s : State) (a v : Nat) : (setReg s a v).regs = regsPut s.regs a v := rfl
@[simp] theorem orReg_regs (s : State) (a v : Nat) : (orReg s a v).regs = regsPut s.regs a (regOf s.regs a ||| v) := rfl
@[simp] theorem incReg_regs (s : State) (a v : Nat) : (incReg s a v).regs = regsPut s.regs a (regOf s.regs a + v) := rfl
@[simp] theorem bump_regs (s : State) (a v : Nat) : (bump s a v).regs = bumpRegs s.regs a v := rfl
@[simp] theorem emit_wire (s : State) (o : Out) : (emit s o).wire = o :: s.wire := rfl
@[simp] theorem reg_emit (s : State) (o : Out) (a : Nat) : reg (emit s o) a = reg s a := rfl

/-! ## A register read after a write -/

theorem lookq_insert_self {α : Type} (t : Table α) (k : Nat) (v : α) : look? (insert t k v) k = some v := by
  induction t with
  | nil => simp [insert, look?]
  | cons x t ih =>
    obtain ⟨k', v'⟩ := x
    simp only [insert]
    split
    · simp [look?]
    · split
      · simp [look?]
      · rw [look?, if_neg (by omega), ih]

theorem lookq_insert_ne {α : Type} (t : Table α) {k j : Nat} (v : α) (h : j ≠ k) :
    look? (insert t k v) j = look? t j := by
  induction t with
  | nil => simp [insert, look?, Ne.symm h]
  | cons x t ih =>
    obtain ⟨k', v'⟩ := x
    simp only [insert]
    split
    · subst k'
      simp [look?, Ne.symm h]
    · split
      · rw [look?, if_neg (Ne.symm h)]
      · simp only [look?, ih]

theorem lookq_erase_self {α : Type} (t : Table α) (k : Nat) : look? (erase t k) k = none := by
  induction t with
  | nil => rfl
  | cons x t ih =>
    obtain ⟨k', v'⟩ := x
    simp only [erase]
    split
    · exact ih
    · rw [look?, if_neg (by omega), ih]

theorem lookq_erase_ne {α : Type} (t : Table α) {k j : Nat} (h : j ≠ k) : look? (erase t k) j = look? t j := by
  induction t with
  | nil => rfl
  | cons x t ih =>
    obtain ⟨k', v'⟩ := x
    simp only [erase]
    split
    · subst k'
      rw [ih, look?, if_neg (Ne.symm h)]
    · simp only [look?, ih]

/-- A word of a register reads as it was written. -/
@[simp] theorem reg_setReg_self (s : State) (a v : Nat) : reg (setReg s a v) a = v % 2 ^ 32 := by
  simp only [reg, regOf, setReg, regsPut]
  by_cases h : v % 2 ^ 32 = resetOf a
  · rw [if_pos h, lookq_erase_self]
    exact h.symm
  · rw [if_neg h, lookq_insert_self]
    simp

/-- Every other word reads as before. -/
theorem reg_setReg_ne (s : State) {a b : Nat} (v : Nat) (h : b / 4 ≠ a / 4) : reg (setReg s a v) b = reg s b := by
  simp only [reg, regOf, setReg, regsPut]
  by_cases g : v % 2 ^ 32 = resetOf a
  · rw [if_pos g, lookq_erase_ne _ h]
  · rw [if_neg g, lookq_insert_ne _ _ h]

/-- The bits set. -/
theorem reg_orReg_self (s : State) (a m : Nat) : reg (orReg s a m) a = (reg s a ||| m) % 2 ^ 32 :=
  reg_setReg_self s a (reg s a ||| m)

theorem reg_orReg_ne (s : State) {a b : Nat} (m : Nat) (h : b / 4 ≠ a / 4) : reg (orReg s a m) b = reg s b :=
  reg_setReg_ne s (reg s a ||| m) h

end Sys2Proof.Machine
end

