-- ==== Sys2Proof/Machine/Read.lean ====
section
/-!
DEFINITION. What a register reads as. Most words hold their own value (RegMap.lean); the others show typed
state, and this file computes them from it, register block by register block. A plain read changes nothing,
so no command of the table makes one; the reads that do change something are commands of their own
(COUNTER_LOW_WORD_READ, SIG_POLL_GAP_READ, SEG_RADIO_WAIT_READ, TRK_PORT_SKEW_READ).
-/

namespace Sys2Proof.Machine

/-- The 32-bit word at a byte offset of an image. -/
def wordIn (l : List Byte) (off : Nat) : Nat := leAt l off 4

/-- The low or the high word of a 64-bit register. -/
def half (v off : Nat) : Nat := if off = 0 then v % 2 ^ 32 else v / 2 ^ 32 % 2 ^ 32

/-! ## Identity, tick, signal bus, dies (R42, R43, R64, R325, R427) -/

def fwMon (s : State) : Nat :=
  match s.life.monNew with
  | some v => v.toNat
  | none => ((s.life.versions.getD 2 0).toNat)

/-- Log 4, DEDUCED. -/
def readDev (s : State) (v : View) (a : Nat) : Nat :=
  if a = 0x4 then (if v = .c then 2 else 1)
  else if a = 0x8 then (s.life.versions.getD 1 0).toNat
  else if a = 0xC then (s.life.versions.getD 0 0).toNat
  else if a = 0x10 then fwMon s
  else if a = 0x14 then s.fabricId
  else if a = 0x18 then levelCode s.level
  else if a = 0x20 then intSummary s
  else 0

def readTck (s : State) (o : Nat) : Nat :=
  if o = 0x4 then tickStatusByte s + 2 ^ 8 * s.tick.synceQl.toNat
  else if o = 0x8 then tickLen s
  else if o = 0x10 ∨ o = 0x14 then half (tickCount s) (o - 0x10)
  else if o = 0x18 then wrapInt 32 s.tick.te
  else if o = 0x2C then (if s.tick.state = .holdover then s.tick.holdNs / 10 ^ 9 else 0)
  else 0

/-- Log 76, DEDUCED. -/
def readSig (s : State) (o : Nat) : Nat :=
  if o = 0 then (answerNow s).toNat + 2 ^ 4 * ofBool s.sig.clkPresent + 2 ^ 5 * ofBool s.life.held else 0

def readDie (s : State) (o : Nat) : Nat :=
  if o < 8 then half s.retired.toNat o
  else if within o 0x40 0x6C then wordIn (mapDigest s) (o - 0x40)
  else if within o 0x100 0x38C then wordIn (mapImage s) (o - 0x100)
  else if within o 0x400 0x8FC then half (holeMask s ((o - 0x400) / 8)) (o % 8)
  else if within o 0xB00 0xBFC then wrapInt 16 (look s.life.tempRegs ((o - 0xB00) / 4))
  else if within o 0xD00 0xD1C then wrapInt 16 (look s.life.tempRegs (64 + (o - 0xD00) / 4))
  else 0

/-! ## Tiles (R100, R101) -/

/-- The tile a selection window names, by key. -/
def selectedTile (s : State) (win : Nat) : Nat :=
  let w := reg s (bTil + win)
  256 * bits w 5 0 + bits w 15 8

/-- Configuration set a tile runs from for an owner: its Mainline's number (R101). Log 229, DESIGN CHOICE. -/
def setInUse (t : Tile) (p : Nat) : Nat :=
  match t.sets.find? (·.part = p) with
  | some x => 2 * x.bank + ofBool x.flip
  | none => 0

/-- TIL_INFO (R101). -/
def tileInfo (s : State) (k : Nat) : Nat :=
  let t := tileOf s k
  let own := cellOwner s.cellA s.tick.slice (quadOfTile k)
  kindOfTile (k % 256) + 2 ^ 2 * ofBool (tileDead s k) +
    2 ^ 3 * own.elim 0 (setInUse t) + 2 ^ 5 * t.active + 2 ^ 8 * own.getD 0 +
    2 ^ 13 * ofBool own.isSome + 2 ^ 14 * ofBool (t.faulted ≠ [])

/-- TIL_SLOT of a slot of the active set, the Mainline of the cell's owner (R73). -/
def tileSlotInfo (s : State) (k i : Nat) : Nat :=
  match cellOwner s.cellA s.tick.slice (quadOfTile k) with
  | none => 0
  | some p =>
    let sl := slotImg (mainSet (tileOf s k) p) i
    sl.ctx + 2 ^ 11 * sl.pers + 2 ^ 13 * ofBool sl.tagFiring + 2 ^ 14 * ofBool sl.valid +
      2 ^ 15 * ofBool (sl.valid && decide ((if kindOfTile (k % 256) = 0 then sl.ctx else wholeTile p) ∈ (tileOf s k).faulted))

/-- Window O stands at 0, window C at 0x100 and is view C's alone. -/
def readTil (s : State) (v : View) (o : Nat) : Nat :=
  let win := o / 0x100 * 0x100
  let k := selectedTile s win
  let i := o - win
  if 0x100 < win ∨ (win = 0x100 ∧ v ≠ .c) then 0
  else if i = 0x4 then tileInfo s k
  else if within i 0x10 0x2C then tileSlotInfo s k ((i - 0x10) / 4)
  else if within i 0x30 0x34 then half (tileOf s k).fault.toNat (i - 0x30)
  else 0

/-! ## Siding (R189, R190) -/

def sidingCode : SidingState → Nat
  | .none => 0 | .stale => 1 | .filling => 2 | .ready => 3 | .armed => 4 | .failed => 5 | .shunting => 6 | .scanning => 7

def sdgSel (s : State) : Nat := bits (reg s bSdg) 4 0

/-- The armed group whose boundary comes first. Log 228, DEDUCED. -/
def firstArmed (d : PartSdg) : Option SwapGroup :=
  (sortBy (fun a b => decide (a.tick * 16 + a.slice ≤ b.tick * 16 + b.slice)) d.groups).head?

def sdgPstatus (s : State) (p : Nat) : Nat :=
  let d := look s.sdg p
  (if d.groups ≠ [] then 1 else if d.shuntOn then 2 else 0) +
    2 ^ 8 * (s.fills.filter fun f => decide (f.part = p)).length +
    2 ^ 16 * (s.scans.filter fun x => decide (x.part = p)).length

def libTileWord (x : LibTiles) : Nat :=
  if x.tiles = 0 then 0 else x.tiles.toNat + 2 ^ 16 * x.part + 2 ^ 31

/-- Log 228, DEDUCED. -/
def readSdg (s : State) (o : Nat) : Nat :=
  let p := sdgSel s
  let d := look s.sdg p
  if o = 0x4 then sdgPstatus s p
  else if o = 0x8 ∨ o = 0xC then half ((firstArmed d).map (·.tick) |>.getD 0) (o - 0x8)
  else if o = 0x10 then
    match firstArmed d with
    | some g => g.slice + 2 ^ 8 * ofBool g.strict
    | none => 0
  else if o = 0x14 then d.shunt.toNat + 2 ^ 31 * ofBool d.shuntOn
  else if within o 0x40 0x8C then
    ((List.range 8).map fun j => 2 ^ (4 * j) * sidingCode (sidingOf s p (8 * ((o - 0x40) / 4) + j))).sum
  else if o = 0x100 then
    (s.lib.filter (·.2.used)).length + 2 ^ 16 * (s.lib.filter fun e => e.2.used && e.2.tileRes).length
  else if within o 0x400 0x67C then libTileWord (look s.libTiles ((o - 0x400) / 4))
  else if o = 0x708 ∨ o = 0x70C then half d.scanSeq (o - 0x708)
  else 0

/-! ## Partitions, contexts, functions, mailboxes (R315–R322) -/

def partInfo (s : State) (p o : Nat) : Nat :=
  let x := part s p
  if o = 0 then partStateCode x.state + 2 ^ 3 * ofBool x.radio + 2 ^ 16 * x.func
  else if o = 4 then
    (ctxsOfPart s p).length + 2 ^ 8 * (quadsOfPart s p).length +
      2 ^ 16 * (s.pcs.filter fun kv => decide (kv.2.owner = .partition ∧ kv.2.part = p)).length
  else if within o 8 0x18 then quadMaskOf s p / 2 ^ (8 * (o - 8)) % 2 ^ 32
  else if o = 0x1C then (s.lib.filter fun e => e.2.used && decide (e.2.part = p)).length
  else 0

/-- Four cells of a cell table; RADIO in bit 6 shows the owner's class (R292). -/
def cellsWord (s : State) (t : Table Byte) (o : Nat) : Nat :=
  ofLe ((List.range 4).map fun i =>
    let b := look t (o + i)
    if b.getLsbD 5 ∧ (part s (bits b.toNat 4 0)).radio then b ||| 0x40 else b)

def readPart (s : State) (o : Nat) : Nat :=
  if within o 0x10 0x1C then s.store.hartRsv.toNat / 2 ^ (8 * (o - 0x10)) % 2 ^ 32
  else if within o 0x100 0x4FC then partInfo s ((o - 0x100) / 0x20) (o % 0x20)
  else if within o 0x1000 0x19FC then cellsWord s s.cellA (o - 0x1000)
  else if within o 0x2000 0x29FC then cellsWord s s.cellS (o - 0x2000)
  else 0

def ctxStateCode : CtxState → Nat
  | .free => 0 | .ready => 1 | .active => 2 | .resetting => 3

/-- Log 228, DEDUCED. -/
def readCtx (s : State) (o : Nat) : Nat :=
  let c := o / 0x20
  let x := ctxOf s c
  let i := o % 0x20
  if i = 0x4 then x.postmark.toNat
  else if x.state = .free then 0
  else if i = 0 then
    ctxStateCode x.state + 2 ^ 3 * ofBool (part s (partOfCtx c)).radio + 2 ^ 4 * ofBool x.seeded +
      2 ^ 16 * funcOfCtx s c
  else if i = 0x8 then
    (s.pages.filter fun kv => decide (kv.2.kind = .context ∧ kv.2.owner = c)).length
  else if i = 0x10 ∨ i = 0x14 then half x.created.toNat (i - 0x10)
  else 0

def quotaOf (x : Vf) (kind : Nat) : Nat :=
  if kind = 1 then x.qTick.toNat else if kind = 2 then x.qPages else if kind = 3 then x.qQueues else x.qWeight.toNat

/-- VF_CUT.OVER: the quotas that the function's use is above (R318). -/
def overBits (s : State) (f : Nat) : Nat :=
  ((List.range 4).map fun k => 2 ^ k * ofBool (decide (quotaOf (vfOf s f) (k + 1) < useOf s f (k + 1)))).sum

/-- A timetable of the function is suspended by a forced cut (R309). -/
def cutSuspended (s : State) (f : Nat) : Bool :=
  ctxsWhere s (fun t => decide (t.state = .suspended) && t.cut) |>.any fun c => decide (funcOfCtx s c = f)

/-- Bit p: partition p is bound to the function. -/
def partsMask (s : State) (f : Nat) : Nat := ((partsOfFunc s f).map (2 ^ ·)).sum

def cutTickOf (x : Vf) : Nat := if x.cutPending then x.cutTick.toNat else 0

def readVfBlock (s : State) (o : Nat) : Nat :=
  let f := o / 0x40
  let x := vfOf s f
  let i := o % 0x40
  if i = 0 then ofBool (vfEnabled s f) + 2 * ofBool x.assigned + 2 ^ 2 * ofBool x.pcieT + 2 ^ 16 * x.tenant
  else if i = 0x4 then x.ctrlT.toNat
  else if i = 0x8 then x.postmark.toNat
  else if i = 0xC then partsMask s f
  else if f = 0 then 0
  else if within i 0x10 0x1C then quotaOf x ((i - 0xC) / 4)
  else if within i 0x20 0x2C then useOf s f ((i - 0x1C) / 4)
  else if i = 0x30 then ofBool x.cutPending + 2 * ofBool (cutSuspended s f) + 2 ^ 2 * overBits s f
  else if i = 0x38 ∨ i = 0x3C then half (cutTickOf x) (i - 0x38)
  else 0

def tableWord (t : Table Byte) (o : Nat) : Nat := ofLe (getBytes t o 4)

/-- Log 228, DEDUCED. -/
def readMbx (s : State) (o : Nat) : Nat :=
  let m := (vfOf s (mbxSel s)).mbx
  if o = 0x104 then (if m.outBusy then m.outLen + 2 ^ 9 else 0) + 2 ^ 16 * m.outSeq.toNat
  else if o = 0x10C then m.inLen + 2 ^ 16 * m.inSeq.toNat
  else if o = 0x110 then ofBool m.inFull
  else if within o 0x200 0x2FC then (if m.outBusy then tableWord m.out (o - 0x200) else 0)
  else if within o 0x300 0x3FC then tableWord s.inData (o - 0x300)
  else 0

/-! ## Timetables (R162, R163) -/

def dlbWord (t : Timetable) : Nat :=
  ofBool t.dlbEn + 2 * ofBool t.dlbDenied + 2 ^ 2 * ofBool t.dlbActive + 2 ^ 8 * t.group + 2 ^ 16 * t.member

def ttWord (t : Timetable) : Nat :=
  let r := t.report
  ttCode t.state + 2 ^ 3 * ofBool r.standing + 2 ^ 4 * ofBool r.radio + 2 ^ 5 * ofBool r.exactRed +
    2 ^ 6 * ofBool r.stateless

/-- The timetable of an automatic context reset has stopped and its context is not READY yet (R370, R383). -/
def stoppedByReset (s : State) (c : Nat) : Bool :=
  let x := ctxOf s c
  decide (x.state = .resetting) && x.auto && decide (x.stage = 2)

/-- The block of a context with a timetable; without one it reads zero but for its last record. Log 228,
DEDUCED. -/
def readTtCtx (s : State) (c i : Nat) : Nat :=
  let t := ttOf s c
  if within i 0x80 0xBC then (if t.last = {} then 0 else wordIn (recBytes t.last) (i - 0x80))
  else if i = 0x4C then dlbWord t
  else if t.state = .none then (if i = 0x4 ∧ stoppedByReset s c then 4 else 0)
  else if i = 0 then c + 2 ^ 15
  else if i = 0x4 then ttWord t
  else if within i 0x8 0x34 then wordIn t.report.digest (i - 0x8)
  else if i = 0x40 then t.report.closeAc
  else if i = 0x44 ∨ i = 0x48 then half t.report.schedTotal (i - 0x44)
  else if i = 0x50 then (match t.closeQ with | some q => q + 2 ^ 15 | none => 0)
  else if i = 0x54 then (match t.run with | some n => n | none => 0xFFFFFFFF)
  else 0

def readTtb (s : State) (o : Nat) : Nat :=
  let p := o / 0x10000
  let i := o % 0x10000
  if i = 0 then (ctxsWhere s fun _ => true).countP (fun c => decide (partOfCtx c = p)) + 2 ^ 8 * ofBool (part s p).radio
  else if within i 0x1000 0x4FFC then readTtCtx s (64 * p + (i - 0x1000) / 0x100) (i % 0x100)
  else 0

/-! ## Memory and sealing (R215–R218) -/

def ownerCode : PcOwner → Nat
  | .free => 0 | .partition => 1 | .hostPool => 2 | .spare => 3

def physOf (s : State) (pc : Nat) : Nat := (pc % 32 + (pcOf s pc).physDelta) % 32

/-- Log 31, DEDUCED. -/
def pcInfo (s : State) (pc : Nat) : Nat :=
  let x := pcOf s pc
  let retrain := x.retraining || x.copy.isSome || x.switching
  (if pc % 32 = 31 then 3 else ownerCode x.owner) + 2 ^ 2 * (if x.owner = .partition then x.part else 0) +
    2 ^ 8 * ofBool x.sealed + 2 ^ 9 * physOf s pc +
    2 ^ 14 * (if x.failed then 3 else if retrain then 2 else if x.freeing then 1 else 0)

def pageCode : PageKind → Nat
  | .free => 0 | .context => 1 | .shared => 2 | .function => 3 | .clearing => 4

/-- MEM_PAGE_INFO; the last 48 pages of a sealed pseudo-channel are its metadata and journal (R193). Log 31,
DEDUCED. -/
def pageInfo (s : State) (pc pg : Nat) : Nat :=
  let x := look s.pages (512 * pc + pg)
  let seals := (pcOf s pc).sealed
  if seals ∧ 336 ≤ pg then 5
  else
    pageCode x.kind + 2 ^ 3 * (if x.kind = .context ∨ x.kind = .function then x.owner else 0) +
      (if seals then
        2 ^ 14 * (if x.blank then 0 else x.domain) +
          2 ^ 24 * ofBool (s.lines.any fun kv => kv.2.poisoned && decide (kv.1 / 2 ^ 24 = pc) &&
            decide (kv.1 % 2 ^ 24 / 32768 = pg)) +
          2 ^ 25 * ofBool (x.rekeying || x.rekeyWaiting) + 2 ^ 26 * ofBool x.blank
       else 0)

def stackWord (s : State) (k : Nat) : Nat :=
  physOf s (32 * k + 31) + 2 ^ 5 * ofBool (decide (k ∉ s.spareBad)) + 2 ^ 8 * look s.retiredPcs k +
    2 ^ 15 * ofBool ((List.range 31).any fun j => (findAct s 1 (32 * k + j)).isSome)

def ownedBy (s : State) (o : PcOwner) : Nat :=
  ((List.range 256).filter fun pc => allocatable pc && decide ((pcOf s pc).owner = o)).length

def pcPages (s : State) (pc : Nat) : Nat :=
  let l := s.pages.filter fun kv => decide (kv.1 / 512 = pc)
  (l.filter fun kv => decide (kv.2.kind ≠ .free ∧ kv.2.kind ≠ .clearing)).length +
    2 ^ 16 * (l.filter fun kv => decide (kv.2.kind = .clearing)).length

def readMem (s : State) (o : Nat) : Nat :=
  let pc := bits (reg s (bMem + 0x10)) 7 0
  let g := reg s (bMem + 0x20)
  if o = 0x4 then ownedBy s .free + 2 ^ 16 * ownedBy s .hostPool
  else if o = 0x14 then pcInfo s pc
  else if o = 0x18 then pcPages s pc
  else if o = 0x24 then pageInfo s (bits g 7 0) (bits g 16 8)
  else if within o 0x30 0x4C then stackWord s ((o - 0x30) / 4)
  else 0

def domCode : DomState → Nat
  | .empty => 0 | .active => 1 | .replacing => 2 | .erasing => 3

def readSeal (s : State) (o : Nat) : Nat :=
  let d := bits (reg s (bSeal + 0x4)) 9 0
  let x := look s.domains d
  if o = 0x8 then
    domCode x.state + 2 ^ 2 * ofBool x.gen +
      2 ^ 8 * (s.pages.filter (sealedUnder s d)).length
  else if o = 0xC then x.epoch
  else if o = 0x14 then (s.pages.filter fun kv => kv.2.rekeying || kv.2.rekeyWaiting).length
  else 0

/-! ## Ports, sorting, engines, egress, station bus (R245–R252) -/

def readSrt (s : State) (o : Nat) : Nat :=
  let rules := fun (t : Table (BitVec 1024)) => (t.filter fun kv => kv.2.getLsbD 0).length
  let ruleWord := fun (t : Table (BitVec 1024)) (n i : Nat) => (look t n).toNat / 2 ^ (8 * i) % 2 ^ 32
  if o = 0 then
    ofBool s.srtCopying + 2 * ofBool s.srtPending + 2 ^ 2 * ofBool s.srtCopy + 2 ^ 16 * rules s.srtA
  else if within o 0x180 0x1FC then ruleWord s.srtS (shadowSel s) (o - 0x180)
  else if within o 0x200 0x27C then ruleWord s.srtA (bits (reg s (bSrt + 0x104)) 11 0) (o - 0x200)
  else 0

/-- Log 228, DEDUCED. -/
def readSeg (s : State) (o : Nat) : Nat :=
  if within o 0x10 0x2C then
    let e := look s.engines ((o - 0x10) / 4)
    e.slotsUsed.length + 2 ^ 16 * (e.waiting.filter fun m => mayRun s m && !startable e m).length
  else 0

def readEgs (s : State) (o : Nat) : Nat :=
  if within o 0x400 0x7FC then half (look s.egress ((o - 0x400) / 8)).vtime.toNat (o % 8) else 0

def readStb (s : State) (o : Nat) : Nat :=
  if o = 0x4 then
    ofBool s.station.plcaActive + 2 * ofBool s.station.beaconSeen + 2 ^ 2 * ofBool s.life.held
  else if o = 0x10 ∨ o = 0x14 then half stationMac (o - 0x10)
  else 0

/-! ## Bindings, radio, forward error correction (R271, R272, R287–R289) -/

/-- BUDGET (R269). Log 230, DEDUCED. -/
def budget (b : Binding) : Nat := 88 + (b.ii - 1) + b.d + 24

/-- L_REPLY: an untagged Ethernet reply, its header, results, tag and FCS (R261, R269). Log 230, DEDUCED. -/
def replyLen (b : Binding) : Nat := 14 + 48 + 20 * b.fOut + 16 + 4

/-- MIN_TAIL at a rate in Gb/s (R269). Log 230, DEDUCED. -/
def minTail (b : Binding) (rate : Nat) : Nat := budget b * rate / 12 + replyLen b + 9

/-- Log 230, DEDUCED. -/
def bindWord (b : Binding) (i : Nat) : Nat :=
  let lo := fun (n : Nat) => n % 2 ^ 16
  if b.valid = false then 0
  else if i = 0 then 1 + 2 * ofBool b.holdT + 2 ^ 16 * b.func
  else if i = 0x4 then b.tenant + 2 ^ 16 * b.model
  else if i = 0x8 then b.entryQ + 2 ^ 16 * b.replyRing
  else if i = 0xC then b.bulkQ + 2 ^ 13 * ofBool b.bulkEn + 2 ^ 16 * b.recallQ
  else if i = 0x10 then b.fIn + 2 ^ 12 * (b.descN - 1) + 2 ^ 16 * b.fOut
  else if i = 0x14 then lo b.d + 2 ^ 16 * lo b.ii
  else if i = 0x18 then lo (budget b) + 2 ^ 16 * lo (replyLen b)
  else if i = 0x1C then lo (minTail b 100) + 2 ^ 16 * lo (minTail b 200)
  else if i = 0x20 then lo (minTail b 400) + 2 ^ 16 * lo (minTail b 800)
  else if within i 0x40 0x7C then (b.descs.getD ((i - 0x40) / 4) 0).toNat
  else 0

def readCut (s : State) (o : Nat) : Nat :=
  if within o 0x1000 0x8FFC then bindWord (look s.binds ((o - 0x1000) / 0x80)) (o % 0x80) else 0

/-- Subports that carry a valid carrier, as RAD_FH_SUBS numbers them. -/
def fhMask (s : State) : Nat := ((fronthaulSubs s).map fun x => 2 ^ (8 * x.1 + x.2)).sum

def fhPorts (s : State) : Nat := ((((fronthaulSubs s).map (·.1)).eraseDups).map (2 ^ ·)).sum

def carrierWord (x : Carrier) (i : Nat) : Nat :=
  if x.valid = false then 0
  else if i = 0 then
    1 + 2 * x.mu + 2 ^ 3 * x.units + 2 ^ 7 * ofBool x.catB + 2 ^ 16 * x.port + 2 ^ 20 * x.sub + 2 ^ 24 * x.part
  else if i = 0x4 then x.nPrb + 2 ^ 16 * x.dlLayers + 2 ^ 24 * x.ulLayers
  else if i = 0x8 then x.iqwDl + 2 ^ 8 * x.iqwUl + 2 ^ 16 * ofBool x.dynHdr
  else if i = 0xC then x.eaxcWidths.toNat + 2 ^ 16 * x.eaxcBase.toNat
  else if i = 0x10 then x.txAdv
  else if i = 0x14 then x.cpLead
  else if i = 0x18 then x.rxMin
  else if i = 0x1C then x.rxMax
  else if i = 0x20 ∨ i = 0x24 then half x.ruMac.toNat (i - 0x20)
  else if i = 0x28 then x.vid + 2 ^ 12 * x.pcp + 2 ^ 15 * ofBool x.tagged
  else 0

def readRad (s : State) (o : Nat) : Nat :=
  let on := s.carriers.filter (·.2.valid)
  if o = 0x4 then on.length + 2 ^ 16 * (on.map (·.2.units)).sum
  else if o = 0x8 then fhPorts s
  else if within o 0x20 0x2C then fhMask s / 2 ^ (8 * (o - 0x20)) % 2 ^ 32
  else if within o 0x1000 0x6FFC then carrierWord (look s.carriers ((o - 0x1000) / 0x40)) (o % 0x40)
  else 0

/-- Log 229, DESIGN CHOICE. -/
def readFec (s : State) (o : Nat) : Nat :=
  if o = 0x4 then decCeiling s
  else if o = 0x8 then 2 * decCeiling s
  else if within o 0x10 0x4C then
    fecLoads (radioDigests s []) ((o - 0x10) / 4 % 8) (decide (0x30 ≤ o))
  else 0

/-! ## Trunk (R365, R366) -/

def portCode : PortState → Nat
  | .down => 0 | .training => 1 | .identify => 2 | .agree => 3 | .measure => 4 | .up => 5 | .failed => 6 | .noId => 7

def jobCode : JobState → Nat
  | .none => 0 | .waiting => 1 | .running => 2 | .braked => 3

def jobWord (t : Timetable) (i : Nat) : Nat :=
  let r := t.report
  let j := t.job
  if t.state = .none ∨ r.chips ≤ 1 then 0
  else if i = 0 ∨ i = 4 then half r.jobId.toNat i
  else if i = 8 then
    jobCode j.state + 2 ^ 3 * ofBool j.brakeLate + 2 ^ 4 * j.cause + 2 ^ 8 * r.member + 2 ^ 16 * r.chips
  else j.pass % 2 ^ 32

def portWord (x : TrunkPort) (i : Nat) : Nat :=
  if i = 0x4 then portCode x.state + 2 ^ 4 * x.cause + 2 ^ 8 * x.peerPort + 2 ^ 16 * ofBool x.txGen
  else if i = 0x8 then x.peerId
  else if i = 0xC then x.latMeas
  else if i = 0x10 then skewWord x
  else 0

/-- Log 228, DEDUCED. -/
def readTrk (s : State) (o : Nat) : Nat :=
  if o = 0x8 then ofBool s.routeEpoch + 2 * ofBool (decide (s.drain ≠ 0)) + 2 ^ 8 * s.drain
  else if within o 0x1000 0x37FC then portWord (portAt s ((o - 0x1000) / 0x100)) (o % 0x100)
  else if within o 0x40000 0x47FFC then jobWord (ttOf s ((o - 0x40000) / 0x10)) (o % 0x10)
  else 0

/-! ## Faults, resets, lifecycle (R371, R382, R394–R397, R417) -/

def named3 (x : Option Nat) (lo valid : Nat) : Nat :=
  match x with
  | some n => 2 ^ lo * n + 2 ^ valid
  | none => 0

/-- A fault record's 64 bytes (R371). -/
def faultBytes (r : FaultRec) : List Byte :=
  leBytes 2 (r.code + 2 ^ 8 * r.attrib + 2 ^ 10 * ofBool r.conseq + 2 ^ 11 * ofBool r.radio + 2 ^ 12 * r.locKind) ++
    leBytes 2 r.postmark.toNat ++ leBytes 4 (named3 r.ctx 0 11 + named3 r.part 12 17 + named3 r.func 18 28) ++
    leBytes 8 r.seq.toNat ++ leBytes 8 r.tick.toNat ++ leBytes 4 r.off ++ leBytes 4 r.detail.toNat ++
    leBytes 16 r.location.toNat ++ leBytes 4 (r.suspectSet.toNat + 2 ^ 16 * r.suspects) ++
    leBytes 4 r.dumpId.toNat ++ leBytes 8 r.digest8.toNat

def padTo (n : Nat) (l : List Byte) : List Byte := l.take n ++ List.replicate (n - l.length) 0

/-- The 4,096 bytes of a dump's public part (R382). -/
def dumpPublic (d : Dump) : List Byte :=
  let bundle := fun (x : Nat × Nat × Nat × Nat × Nat × Bool) =>
    leBytes 8 x.1 ++ leBytes 8 x.2.1 ++ leBytes 8 x.2.2.1 ++ leBytes 2 x.2.2.2.1 ++ leBytes 2 x.2.2.2.2.1 ++
      leBytes 4 (ofBool x.2.2.2.2.2)
  let queue := fun (x : Nat × Nat × Nat × Nat × Nat × BitVec 16) =>
    leBytes 2 x.1 ++ leBytes 1 x.2.1 ++ leBytes 1 x.2.2.1 ++ leBytes 4 x.2.2.2.1 ++ leBytes 4 x.2.2.2.2.1 ++
      leBytes 4 x.2.2.2.2.2.toNat
  let engine := fun (x : Nat × Nat × Nat × Nat × Nat) =>
    leBytes 1 x.1 ++ leBytes 1 x.2.1 ++ leBytes 2 x.2.2.1 ++ leBytes 2 x.2.2.2.1 ++ leBytes 2 x.2.2.2.2
  let mark := fun (slot : Nat) =>
    match d.marks.find? fun m => decide (m.1 = slot) with
    | some m => leBytes 2 m.2.1.toNat ++ leBytes 2 m.2.2.toNat
    | none => leBytes 4 0
  leBytes 2 1 ++ leBytes 2 d.kind ++ leBytes 2 d.id.toNat ++
    leBytes 2 (ofBool d.incomplete + 2 * ofBool d.sealedPresent + 2 ^ 2 * ofBool d.radio) ++ leBytes 8 d.tick.toNat ++
    leBytes 2 d.part ++ leBytes 2 d.func ++ leBytes 8 d.ctxMask.toNat ++ leBytes 4 0 ++
    padTo 16 (d.versions.flatMap fun v => leBytes 4 v.toNat) ++ padTo 48 d.mapDigest ++ leBytes 2 d.recs.length ++
    leBytes 2 d.bundles.length ++ leBytes 2 d.queues.length ++ leBytes 2 d.engines.length ++ leBytes 8 0 ++
    padTo 512 (d.bundles.flatMap bundle) ++ padTo 1024 (d.queues.flatMap queue) ++
    padTo 256 (d.engines.flatMap engine) ++ (List.range 64).flatMap mark ++ padTo 1920 (d.recs.flatMap faultBytes) ++
    leBytes 16 0

/-- Log entry n: the log is a ring, and record SEQ stands at place SEQ − 1 modulo 1,024. Log 212, DEDUCED. -/
def logEntry (s : State) (n : Nat) : List Byte :=
  match s.fltLog.find? fun r => decide ((r.seq.toNat + 1023) % 1024 = n) with
  | some r => faultBytes r
  | none => List.replicate 64 0

/-- Dump store entry n: dump DUMP_ID stands at place DUMP_ID − 1 modulo 16. Log 212, DEDUCED. -/
def dumpEntry (s : State) (n : Nat) : Option Dump :=
  s.dumps.find? fun d => decide ((d.id.toNat + 15) % 16 = n)

def readFlt (s : State) (o : Nat) : Nat :=
  let d := dumpEntry s (bits (reg s (bFlt + 0x2C)) 3 0)
  if o = 0x8 ∨ o = 0xC then half s.fltSeq.toNat (o - 0x8)
  else if o = 0x30 then
    match d with
    | some d => d.id.toNat + 2 ^ 16 + 2 ^ 17 * ofBool d.incomplete + 2 ^ 18 * d.kind
    | none => 0
  else if within o 0x1000 0x103C then wordIn (logEntry s (bits (reg s (bFlt + 0x10)) 9 0)) (o - 0x1000)
  else if within o 0x2000 0x2FFC then (match d with | some d => wordIn (dumpPublic d) (o - 0x2000) | none => 0)
  else 0

/-- STAGE (R402). -/
def stageCode (l : Life) : Nat :=
  match l.stage with
  | .ao => 0 | .rails => 1 | .scRom => 2 | .scFw => 3 | .mgmt => 4 | .train => 5 | .restore => 6 | .done => 7
  | .failed => 15

def rstBoot (l : Life) : Nat :=
  stageCode l + 2 ^ 4 * l.fail + ((List.range 3).map fun i => 2 ^ (8 + i) * ofBool (l.banks.getD i false)).sum +
    2 ^ 16 * l.bootMs

def rstPin (l : Life) : Nat :=
  ofBool l.resetLevel + 2 * ofBool l.mask + 2 ^ 2 * ofBool l.held + 2 ^ 3 * ofBool l.permit

/-- Time since the acceptance of a partition's reset, in ns (R396). -/
def resetAge (s : State) (x : Part) : Nat :=
  x.resetNs + s.tick.off * periodNs (periodCode s) / tickLen s - x.resetOff * periodNs (periodCode s) / tickLen s

def readRst (s : State) (o : Nat) : Nat :=
  let c := ctxOf s (bits (reg s (bRst + 0x100)) 10 0)
  if within o 0x20 0x9C then
    let x := part s ((o - 0x20) / 4)
    if x.stage = 0 then 0 else x.stage + 2 ^ 8 * ofBool x.auto + 2 ^ 16 * min 65535 (resetAge s x / 10 ^ 6)
  else if o = 0x104 then (if c.stage = 0 then 0 else c.stage + 2 ^ 2 * ofBool c.auto)
  else if o = 0x200 then rstBoot s.life
  else if o = 0x204 then rstPin s.life
  else if o = 0x208 ∨ o = 0x20C then half s.life.auth.toNat (o - 0x208)
  else 0

/-! ## Commands and queues (R341, R343, R344) -/

/-- Log 61, DEDUCED. -/
def actWord (a : Act) (o : Nat) : Nat :=
  half (a.code + 2 ^ 8 * ofBool a.valid + 2 ^ 9 * ofBool a.auto + 2 ^ 10 * a.outcome + 2 ^ 16 * a.scope.toNat +
    2 ^ 40 * a.start.toNat) o

def readCmd (s : State) (o : Nat) : Nat :=
  if o = 0x4 then
    ofBool s.life.activeM1 + 2 * ofBool s.life.standbyReady + 2 ^ 2 * ofBool s.life.updating
  else if o = 0x8 then s.effects.length + waitingWork s
  else if within o 0x100 0x1FC then actWord (look s.acts ((o - 0x100) / 8)) (o % 8)
  else 0

def readQue (s : State) (o : Nat) : Nat :=
  let x := queueOf s (o / 0x800)
  let i := o % 0x800
  if i = 0 then x.kind + 2 ^ 3 * ofBool x.enabled + 2 ^ 4 * x.func + 2 ^ 16 * x.log2 + 2 ^ 21 * x.vec
  else if i = 0x4 then x.peer + 2 ^ 16 * x.dbslot
  else if i = 0x8 ∨ i = 0xC then half x.base (i - 0x8)
  else if i = 0x10 then x.prod
  else if i = 0x14 then x.cons
  else if i = 0x1C then
    ofBool x.dbErr + 2 * ofBool (ringFull x) + 2 ^ 2 * ofBool x.armed + 2 ^ 3 * ofBool x.stalled
  else if i = 0x20 then x.entries % 2 ^ 32
  else 0

/-! ## A word of a BAR (R4, R5, R324, R326) -/

/-- A word of a block that shows typed state. -/
def readShown (s : State) (v : View) (a : Nat) : Nat :=
  if a < bTck then readDev s v a
  else if a < bDie then readTck s (a - bTck)
  else if a < bTil then readDie s (a - bDie)
  else if a < bAri then readTil s v (a - bTil)
  else if a < bSdg then 0
  else if a < bPart then readSdg s (a - bSdg)
  else if a < bCtx then readPart s (a - bPart)
  else if a < bVf then readCtx s (a - bCtx)
  else if a < bMbx then readVfBlock s (a - bVf)
  else if a < bTtb then readMbx s (a - bMbx)
  else if a < bMem then readTtb s (a - bTtb)
  else if a < bSeal then readMem s (a - bMem)
  else if a < bMac then readSeal s (a - bSeal)
  else if a < bSrt then 0
  else if a < bSeg then readSrt s (a - bSrt)
  else if a < bCnt then readSeg s (a - bSeg)
  else if a < bEgs then 0
  else if a < bCut then readEgs s (a - bEgs)
  else if a < bRad then readCut s (a - bCut)
  else if a < bFec then readRad s (a - bRad)
  else if a < bTrk then readFec s (a - bFec)
  else if a < bFlt then readTrk s (a - bTrk)
  else if a < bRst then readFlt s (a - bFlt)
  else if a < bCmd then readRst s (a - bRst)
  else if a < bQue then readCmd s (a - bCmd)
  else if a < bStb then readQue s (a - bQue)
  else if a < bSig then readStb s (a - bStb)
  else readSig s (a - bSig)

/-- A 48-bit counter of PF BAR0 stands at the address (R235). -/
def isCounter (a : Nat) : Bool :=
  decide (a % 8 = 0) && (halfRows.any (·.hits a) || (indexIn a (bQue + 0x20) 0x800 8192).isSome)

/-- A word of PF BAR0 as view C or O reads it: the high word of a counter is the reader's latch (R235), a word
with a value of its own is that value, and any other shows typed state. Log 3, DESIGN CHOICE. Log 10, DEDUCED.
-/
def readPfWord (s : State) (v : View) (a : Nat) : Nat :=
  if unusedSubport s a then 0
  else if a % 8 = 4 ∧ isCounter (a - 4) = true then (look s.latches (latchKey (a - 4) (if v = .c then 0 else 1))).toNat
  else if bTil + 0x100 ≤ a ∧ a < bTil + 0x200 ∧ v ≠ .c then 0
  else if (rowOf a).isSome then reg s a
  else readShown s v a

/-- VF_STATUS (R320). -/
def vfStatus (s : State) (f : Nat) : Nat :=
  levelCode s.level + 2 ^ 2 * ofBool (vfOf s f).cutPending + 2 ^ 3 * ofBool (cutSuspended s f) + 2 ^ 4 * overBits s f

def identityWord (s : State) (v : View) (f o : Nat) : Nat :=
  let x := vfOf s f
  let q := queueOf s x.qsel
  let mine := decide (q.kind ≠ 0) && decide (q.func = f)
  if o = 0 then f + 2 ^ 16 * x.tenant
  else if o = 0x4 then vfStatus s f
  else if o = 0x8 then x.postmark.toNat
  else if o = 0xC then x.tctrl.toNat
  else if o = 0x10 then partsMask s f
  else if within o 0x20 0x3C then
    let k := (o - 0x20) / 4
    if k % 2 = 0 then quotaOf x (k / 2 + 1) else useOf s f (k / 2 + 1)
  else if o = 0x40 ∨ o = 0x44 then half (cutTickOf x) (o - 0x40)
  else if o = 0x80 then x.qsel
  else if o = 0x84 then
    if mine then 1 + 2 * ofBool (decide (q.kind = 1)) + 2 ^ 2 * ofBool (decide (q.kind = 2)) else 0
  else if o = 0x88 then reg s (deadAddr x.qsel)
  else if o = 0x8C then (look s.latches (latchKey (deadAddr x.qsel) (if v = .c then 0 else 2 + f))).toNat
  else 0

def mailboxWord (m : Mailbox) (o : Nat) : Nat :=
  if within o 0x400 0x4FC then tableWord m.out (o - 0x400)
  else if within o 0x500 0x5FC then tableWord m.inb (o - 0x500)
  else if within o 0x600 0x6FC then wordIn (look m.notices ((o - 0x600) / 32)) (o % 32)
  else if o = 0x700 then m.outLen + 2 ^ 16 * m.outSeq.toNat
  else if o = 0x704 then
    ((List.range 6).map fun i => 2 ^ i * ofBool ((mbxBits m).getD i false)).sum
  else if o = 0x708 then (if m.inFull then m.inLen else 0) + 2 ^ 16 * m.inSeq.toNat
  else if o = 0x710 then m.nhead.toNat
  else if o = 0x714 then m.ntail.toNat
  else if o = 0x718 then m.nlost.toNat
  else 0

def faultWindowWord (w : FltWin) (o : Nat) : Nat :=
  if o = 0x3000 then w.head.toNat
  else if o = 0x3004 then w.tail.toNat
  else if o = 0x3008 then w.lost.toNat
  else if within o 0x3800 0x3FFC then
    match look? w.recs ((o - 0x3800) / 64) with
    | some r => wordIn (faultBytes r) (o % 64)
    | none => 0
  else 0

/-- A word of the BAR of VFf as view C or T reads it (R320, R322, R326, R397). Log 10, DEDUCED. -/
def readVfWord (s : State) (v : View) (f o : Nat) : Nat :=
  if o < 0x400 then identityWord s v f o
  else if o < 0x800 then mailboxWord (vfOf s f).mbx o
  else if within o 0x2000 0x2804 then reg s (vfBase f + o)
  else faultWindowWord (vfOf s f).flt o

/-- A 32-bit read: zero from a view with no access (R5). Log 10, DEDUCED. -/
def regRead (s : State) (acc : Access) (a : Nat) : BitVec 32 :=
  if a % 4 ≠ 0 then 0
  else match reachesVf s acc with
    | some f => BitVec.ofNat 32 (readVfWord s acc.view f a)
    | none => if reachesPf acc then BitVec.ofNat 32 (readPfWord s acc.view a) else 0

/-- A 64-bit read: of a statistics counter, the whole count at once, past every latch (R235); of any other pair of
words, both. -/
def regRead64 (s : State) (acc : Access) (a : Nat) : BitVec 64 :=
  if a % 8 ≠ 0 then 0
  else match counterFor s acc a with
    | some (_, _, v) => BitVec.ofNat 64 v
    | none => regRead s acc (a + 4) ++ regRead s acc a

end Sys2Proof.Machine
end

