-- ==== Sys2Proof/WellFormed.lean ====
section
/-!
DEFINITION. Well-formed commands: every operand that names a thing of the part names one that exists, an
access has a legal shape (R10), an offset lies in the longest tick (R19), and every parameter of a command
packet fits its field (R336). A command that is not well-formed still has a meaning; no part can be asked it.
-/

namespace Sys2Proof

/-! ## Checks -/

/-- Accesses are of 1, 2, 4 or 8 bytes at a multiple of their size (R10). -/
def accessShape (addr size : Nat) : Bool := decide (size = 1 ∨ size = 2 ∨ size = 4 ∨ size = 8) && decide (addr % size = 0)
/-- Array dies 0–39, tiles 0–255 of each (R13, R51). -/
def tileAt (die tile : Nat) : Bool := decide (die < 40) && decide (tile < 256)
/-- Network dies 0–7 (R13). -/
def netDie (die : Nat) : Bool := decide (die < 8)
/-- Hub dies 0–7 (R13). -/
def hubId (hub : Nat) : Bool := decide (hub < 8)
/-- Dies by DIE_PWR number (R64). -/
def dieNumber (die : Nat) : Bool := decide (die < 64)
/-- Subport of an Ethernet port (R219). -/
def macPort (port sub : Nat) : Bool := decide (port < 16) && decide (sub < 8)
/-- Trunk ports T0–T39 (R345). -/
def trunkPort (port : Nat) : Bool := decide (port < 40)
/-- Ports by SERDES_RECAL number: E0–E15, T0–T39 (R336). -/
def etherOrTrunk (port : Nat) : Bool := decide (port < 56)
/-- Submit and return ports of a network die's FEC units (R279). -/
def fecPort (port : Nat) : Bool := decide (port < 8)
/-- Units of a network die (R239). -/
def engineUnit (unit : Nat) : Bool := decide (unit < 12)
/-- Contexts 0–2047 (R294). -/
def ctxId (ctx : Nat) : Bool := decide (ctx < 2048)
/-- Partitions 0–31 (R290). -/
def partId (part : Nat) : Bool := decide (part < 32)
/-- Quadrants 0–159 (R52). -/
def quadId (quad : Nat) : Bool := decide (quad < 160)
/-- Pseudo-channels 0–255 (R191). -/
def pcId (pc : Nat) : Bool := decide (pc < 256)
/-- Pages 0–383 of a pseudo-channel (R193, R196). -/
def pageId (page : Nat) : Bool := decide (page < 384)
/-- Functions: PF is 0, VFs 1–1023 (R296). -/
def funcId (func : Nat) : Bool := decide (func < 1024)
/-- Key domains, and 1024 for the blank key (R199, R212). -/
def domainId (dom : Nat) : Bool := decide (dom ≤ 1024)
/-- Hardware queues 0–8191 (R327). -/
def queueId (q : Nat) : Bool := decide (q < 8192)
/-- Library entries 0–4095 (R180). -/
def entryId (entry : Nat) : Bool := decide (entry < 4096)
/-- Carriers 0–383 (R287, R288). -/
def carrierId (carrier : Nat) : Bool := decide (carrier < 384)
/-- Host harts 0–127 (R55). -/
def hartId (hart : Nat) : Bool := decide (hart < 128)
/-- Slices 0–15 (R24). -/
def sliceId (slice : Nat) : Bool := decide (slice < 16)
/-- An ac of the longest tick (R19). -/
def inTick (off : Nat) : Bool := decide (off < 1500000)
/-- Cell slots of a tick: one per 1.5 ac (R346). -/
def trunkSlot (slot : Nat) : Bool := decide (slot < 1000000)
/-- Fabric device IDs of 18 bits (R13). -/
def deviceId (id : Nat) : Bool := decide (id < 2 ^ 18)
/-- A coordinate of a P-384 point (R347). -/
def coordinate (x : Nat) : Bool := decide (x < 2 ^ 384)
/-- Rail groups CORE, PHY, HBM, IO (R399). -/
def railGroup (group : Nat) : Bool := decide (group < 4)
/-- Units with sensors: dies 0–63, stacks 64–71 (R426). -/
def sensorUnit (unit : Nat) : Bool := decide (unit < 72)
/-- Words of PART_HART_RSV (R315). -/
def hartWord (word : Nat) : Bool := decide (word < 4)
/-- Bytes of PART_CELL_S (R292). -/
def cellByteOff (byteOff : Nat) : Bool := decide (byteOff < 2560)
/-- Bytes of a sorting rule (R228). -/
def ruleByte (byteOff : Nat) : Bool := decide (byteOff < 128)
/-- Quotas of a function by number: 1 tick share, 2 pages, 3 queues, 4 egress weight (R306). -/
def quotaId (quota : Nat) : Bool := decide (1 ≤ quota ∧ quota ≤ 4)
/-- Escalation counts (R387). -/
def windowKind (kind : Nat) : Bool := decide (kind < 3)
/-- NumVFs (R296). -/
def vfCount (n : Nat) : Bool := decide (n ≤ 1023)
/-- Twelve samples to a PRB (R273). -/
def blockSamples (n : Nat) : Bool := decide (n = 12)
/-- A packet parameter of n bytes (R336). -/
def fits (n x : Nat) : Bool := decide (x < 2 ^ (8 * n))

/-! ## Commands -/

def wellFormed : Instr → Bool
  | .registerWrite _ addr size _ => accessShape addr size
  | .counterLowWordRead _ addr => accessShape addr 4
  | .tckCtrlWrite _ _ => true
  | .tckPhaseWrite _ _ => true
  | .stepEnd _ => true
  | .ptpAnnounce port sub _ => macPort port sub
  | .ptpSync port sub _ => macPort port sub
  | .ptpDelayReq off => inTick off
  | .esmcMessage port sub _ => macPort port sub
  | .synceStatusChange _ => true
  | .tickBoundary powerMw => powerMw.all fun x => dieNumber x.1
  | .sliceBoundary slice => sliceId slice
  | .changeoverEnd slice => sliceId slice
  | .refreshBeat pc off => pcId pc && inTick off
  | .sigPoll _ => true
  | .sigPollGapRead _ => true
  | .seqWait die tile => tileAt die tile
  | .seqFire die tile => tileAt die tile
  | .seqFireIf die tile => tileAt die tile
  | .seqFold die tile => tileAt die tile
  | .seqLoad die tile => tileAt die tile
  | .seqSelect die tile => tileAt die tile
  | .seqRead die tile => tileAt die tile
  | .rawReadout die tile => tileAt die tile
  | .seqEnd die tile => tileAt die tile
  | .tagFiring die tile => tileAt die tile
  | .exactMerge die tile => tileAt die tile
  | .sfExponential die tile => tileAt die tile
  | .sfLogarithm die tile => tileAt die tile
  | .sfReciprocal die tile => tileAt die tile
  | .sfReciprocalSquareRoot die tile => tileAt die tile
  | .sfSigmoid die tile => tileAt die tile
  | .sfTanh die tile => tileAt die tile
  | .softmaxPass1 die tile => tileAt die tile
  | .softmaxPass2 die tile => tileAt die tile
  | .radix4Butterfly die tile => tileAt die tile
  | .minSumCheckNodeUpdate die tile => tileAt die tile
  | .minSumDemapping die tile => tileAt die tile
  | .memoryTileRead die tile => tileAt die tile
  | .memoryTileWrite die tile => tileAt die tile
  | .coreFiring die tile => tileAt die tile
  | .coreBudgetExpiry die tile => tileAt die tile
  | .coreAlu die tile => tileAt die tile
  | .coreMul die tile => tileAt die tile
  | .coreBranch die tile => tileAt die tile
  | .coreJump die tile => tileAt die tile
  | .coreLoad die tile => tileAt die tile
  | .coreStore die tile => tileAt die tile
  | .rdcycle die tile => tileAt die tile
  | .coreIllegalInstruction die tile => tileAt die tile
  | .sPop die tile => tileAt die tile
  | .sPush die tile => tileAt die tile
  | .sGet die tile => tileAt die tile
  | .sPut die tile => tileAt die tile
  | .sLdw die tile => tileAt die tile
  | .sStw die tile => tileAt die tile
  | .sCtr die tile => tileAt die tile
  | .sTag die tile => tileAt die tile
  | .sSettag die tile => tileAt die tile
  | .sEnd die tile => tileAt die tile
  | .tickClose ctx off => ctxId ctx && inTick off
  | .ttbTraceArm _ part _ => partId part
  | .dlbEnWrite _ ctx _ => ctxId ctx
  | .hbmSlotRead ctx _ => ctxId ctx
  | .hbmSlotWrite ctx _ => ctxId ctx
  | .requestReady q off => queueId q && inTick off
  | .entryOffset ctx off => ctxId ctx && inTick off
  | .exitResult ctx _ off => ctxId ctx && inTick off
  | .fillStart part quad off => partId part && quadId quad && inTick off
  | .fillComplete part quad => partId part && quadId quad
  | .scanComplete part quad => partId part && quadId quad
  | .libInstallDone entry => entryId entry
  | .engineAccess pc => pcId pc
  | .rekeyStart pc => pcId pc
  | .rekeyDone pc => pcId pc
  | .pageClearDone pc page => pcId pc && pageId page
  | .epochGrant hub dom => hubId hub && domainId dom
  | .hostPoolRead func ctx addr _ => funcId func && ctx.all ctxId && fits 8 addr
  | .hostPoolWrite func ctx addr _ => funcId func && ctx.all ctxId && fits 8 addr
  | .stalledWriteResume pc => pcId pc
  | .frameSfd port sub off => macPort port sub && inTick off
  | .frameHeaderDecision port sub _ off => macPort port sub && inTick off
  | .requestDescriptorsArrived port sub _ off => macPort port sub && inTick off
  | .frameEnd port sub _ off => macPort port sub && inTick off
  | .verdict port sub _ _ off => macPort port sub && inTick off
  | .replyHandover _ _ off => inTick off
  | .replySeqGrant die dom => netDie die && domainId dom
  | .txFrame q => queueId q
  | .egressChoice port sub off => macPort port sub && inTick off
  | .macLinkChange port sub _ => macPort port sub
  | .macSplitWrite _ port _ => macPort port 0
  | .srtShadowRuleWrite _ byteOff size _ => accessShape byteOff size && ruleByte byteOff
  | .egsRingWrite _ q _ => queueId q
  | .segRadioWaitRead _ die => netDie die
  | .cipherMessageSubmit die _ _ _ _ => netDie die
  | .enginePeriod die unit => netDie die && engineUnit unit
  | .stbFrame _ => true
  | .stbStatusRequest _ _ => true
  | .cplaneSend carrier _ => carrierId carrier
  | .uplaneSend carrier _ => carrierId carrier
  | .uplaneReceive port sub carrier _ _ iq _ _ _ _ => macPort port sub && carrierId carrier && blockSamples iq.length
  | .uplinkDelivery carrier _ => carrierId carrier
  | .ecpriDelayMeasurement port sub _ off => macPort port sub && inTick off
  | .ldpcDecode die port => netDie die && fecPort port
  | .ldpcEncode die port => netDie die && fecPort port
  | .fecReturn die port => netDie die && fecPort port
  | .partCellSWrite _ byteOff _ => cellByteOff byteOff
  | .partHartRsvWrite _ word _ => hartWord word
  | .guestEntry hart func => hartId hart && funcId func
  | .guestExit hart _ _ => hartId hart
  | .monitorHartSwitch hart => hartId hart
  | .vfQuotaWrite _ func quota _ => funcId func && quotaId quota
  | .vfTctrlWrite _ func _ => funcId func
  | .mbxTSend func _ => funcId func
  | .mbxOutAck _ _ => true
  | .mbxInPost _ _ => true
  | .mbxTInAck func _ => funcId func
  | .mbxTNtailWrite func _ => funcId func
  | .mbxTimeoutExpiry func _ => funcId func
  | .queueDoorbell func slot _ => funcId func && queueId slot
  | .cmdRingResume q => queueId q
  | .deferredCommandStatus q => queueId q
  | .barrierEntryDeferred q => queueId q
  | .nop _ => true
  | .planSwap _ => true
  | .radioReserve _ part _ boundary _ => fits 1 part && fits 8 boundary
  | .partOpen _ part radio func => fits 1 part && fits 1 radio && fits 2 func
  | .partClose _ part => fits 1 part
  | .partReturn _ part => fits 1 part
  | .partIsolate _ part => fits 1 part
  | .ctxCreate _ part slot _ => fits 1 part && fits 1 slot
  | .ctxRemove _ ctx => fits 2 ctx
  | .ctxSeed _ ctx _ => fits 2 ctx
  | .ariSeedWrite _ _ => true
  | .ariSeedLowWrite _ _ => true
  | .ariSeedHighWrite _ _ => true
  | .ariSeedSelWrite _ _ => true
  | .ttAdmit _ ctx group run image report imageLen reportLen => fits 2 ctx && fits 1 group && fits 4 run &&
      fits 8 image && fits 8 report && fits 4 imageLen && fits 4 reportLen
  | .ttWithdraw _ ctx => fits 2 ctx
  | .ttResume _ ctx => fits 2 ctx
  | .quotaForce _ func qTick => fits 2 func && fits 4 qTick
  | .sdgFill _ part source quad entry _ => fits 1 part && fits 1 source && fits 1 quad && fits 2 entry
  | .sdgSwap _ part strict slice boundary _ => fits 1 part && fits 1 strict && fits 1 slice && fits 8 boundary
  | .shuntStart _ part _ _ => fits 1 part
  | .shuntStop _ part => fits 1 part
  | .libInstall _ part image report imageLen reportLen => fits 1 part && fits 8 image && fits 8 report &&
      fits 4 imageLen && fits 4 reportLen
  | .libRemove _ entry => fits 2 entry
  | .libtileAssign _ part quad _ => fits 1 part && fits 1 quad
  | .libtileRelease _ quad _ => fits 1 quad
  | .scanOut _ part quad dest => fits 1 part && fits 1 quad && fits 8 dest
  | .scanDump _ part quad dest => fits 1 part && fits 1 quad && fits 8 dest
  | .scanIn _ part quad src len => fits 1 part && fits 1 quad && fits 8 src && fits 8 len
  | .pcAssign _ pc owner sealed => fits 1 pc && fits 1 owner && fits 1 sealed
  | .pcFree _ pc => fits 1 pc
  | .pageAssign _ pc kind page owner frame => fits 1 pc && fits 1 kind && fits 2 page && fits 2 owner && fits 4 frame
  | .pageRelease _ pc page => fits 1 pc && fits 2 page
  | .scrubPass _ spread _ => fits 4 spread
  | .regionRekey _ pc page => fits 1 pc && fits 2 page
  | .srtSwap _ => true
  | .bind _ entryQ replyRing bulkQ recallQ tenant model fOut bulkEn descN descAddr => fits 2 entryQ &&
      fits 2 replyRing && fits 2 bulkQ && fits 2 recallQ && fits 2 tenant && fits 2 model && fits 2 fOut &&
      fits 1 bulkEn && fits 1 descN && fits 8 descAddr
  | .unbind _ entryQ => fits 2 entryQ
  | .macsecSak _ port sub chan an suite src => fits 1 port && fits 1 sub && fits 1 chan && fits 1 an &&
      fits 1 suite && fits 8 src
  | .queAssign _ q func kind log2 vec dbslot peer base => fits 2 q && fits 2 func && fits 1 kind && fits 1 log2 &&
      fits 2 vec && fits 2 dbslot && fits 2 peer && fits 8 base
  | .queRelease _ q => fits 2 q
  | .queEnable _ q => fits 2 q
  | .queDisable _ q => fits 2 q
  | .carrierCfg _ carrier addr boundary => fits 2 carrier && fits 8 addr && fits 8 boundary
  | .carrierRemove _ carrier boundary => fits 2 carrier && fits 8 boundary
  | .vfAssign _ func tenant => fits 2 func && fits 2 tenant
  | .vfRelease _ func => fits 2 func
  | .keyInstall _ slot addr => fits 1 slot && fits 8 addr
  | .attest _ part dest _ => fits 1 part && fits 8 dest
  | .certGet _ which dest => fits 1 which && fits 8 dest
  | .ctxReset _ ctx => fits 2 ctx
  | .ctxResetDone ctx => ctxId ctx
  | .partReset _ part => fits 1 part
  | .partResetCollectEnd part => partId part
  | .partResetDone part => partId part
  | .resetOvertime part => partId part
  | .deviceReset _ => true
  | .levelDrop _ level => fits 1 level
  | .hbmRetrain _ pc => fits 1 pc
  | .hbmCopyDone pc => pcId pc
  | .hbmRetrainDone pc _ => pcId pc
  | .smUpdate _ image len => fits 8 image && fits 4 len
  | .scUpdate _ image len => fits 8 image && fits 4 len
  | .serdesRecal _ port => fits 1 port
  | .serdesRecalDone port _ => etherOrTrunk port
  | .dieRetire _ die => fits 1 die
  | .admitRebuild _ => true
  | .fabricIdSet _ id => fits 4 id
  | .routeSwap _ => true
  | .resetPinMask _ mask => fits 1 mask
  | .trkPortCtrlWrite _ port _ => trunkPort port
  | .trkPortSkewRead _ port => trunkPort port
  | .trunkTrainingDone port _ => trunkPort port
  | .trunkIdentify port peerId _ _ => trunkPort port && deviceId peerId
  | .trunkAgree port peerEphemeral _ => trunkPort port && coordinate peerEphemeral.1 && coordinate peerEphemeral.2
  | .trunkMeasure port _ => trunkPort port
  | .trunkRetry port => trunkPort port
  | .trunkLinkDown port _ => trunkPort port
  | .trunkCellSend port slot => trunkPort port && trunkSlot slot
  | .trunkCellReceive port _ _ _ => trunkPort port
  | .vc0Delivery port slot => trunkPort port && trunkSlot slot
  | .keyRatchet port _ => trunkPort port
  | .messageForward port => trunkPort port
  | .brakeReceived port _ _ _ member off => trunkPort port && fits 1 member && inTick off
  | .readyReceived _ member chips period _ run => fits 1 member && fits 1 chips && fits 1 period && fits 4 run
  | .goReceived _ _ off => inTick off
  | .barrierTimeout ctx => ctxId ctx
  | .hostTimeout func addr _ => funcId func && fits 8 addr
  | .functionLevelReset func => funcId func
  | .fltEscWrite _ which _ => windowKind which
  | .railPowerGood group => railGroup group
  | .railPgTimeout group => railGroup group
  | .bootTrain _ => true
  | .bootRestore _ => true
  | .bootDone _ => true
  | .thermalAlarm unit _ => sensorUnit unit
  | .thermalAlarmClear temps => temps.all fun x => sensorUnit x.1
  | .thermalHot unit _ => sensorUnit unit
  | .thermalTrip unit _ => sensorUnit unit
  | .vfEnableSet numVfs => vfCount numVfs
  | .stationManagerEnrolment _ => true
  | .powerGoodDeassert group => railGroup group
  | .escalationWindowExpiry kind part => windowKind kind && partId part
  | .stbTransmitOpportunity _ => true
  | .lockTimerExpiry => true
  | .lostTimerExpiry => true
  | .announceReceiptTimeout => true
  | .servoUpdateTimeout => true
  | .holdoverExpiry => true
  | .memScrubDue => true
  | .scrubDone => true
  | .srtCopyDone => true
  | .stbCollision => true
  | .stbBackoffExpiry => true
  | .plcaLost => true
  | .resetHeldNotice => true
  | .smMirrorDone => true
  | .smUpdateDone => true
  | .scUpdateDone => true
  | .routeDrainEnd => true
  | .heartbeatWatchdog => true
  | .mgmtWatchdog => true
  | .scWatchdog => true
  | .quarantineReplay => true
  | .vfEnableClear => true
  | .perstNAssert => true
  | .powerOn => true
  | .bootScRom => true
  | .bootScFw => true
  | .bootMgmt => true
  | .powerOff => true
  | .pwrOkFall => true
  | .resetNAssert => true
  | .resetNRelease => true
  | .resetNHeld => true
  | .scHeartbeat => true
  | .sigClkLoss => true
  | .sigClkReturn => true
  | .plcaBeacon => true

end Sys2Proof
end

