-- ==== Sys2Proof/Tests/Slice0.lean ====
section
/-!
SUPPORT. The model's own tests: an ill-formed command for each check of WellFormed, and for each statement of
Obligations a concrete state and operands that meet its hypotheses, with what the spec says comes of them.
Expected values are the spec's own examples and tables, or worked from them by hand.
-/

namespace Sys2Proof.Tests

set_option Elab.async false

open Sys2Proof Sys2Proof.Machine

/-! ## Well-formedness: each check refuses an ill-formed command -/

theorem test_illFormed_accessShape :
    wellFormed (.registerWrite { view := .c, bar := .pf, via := .pcie } 2 4 0) = false := by decide +kernel

theorem test_illFormed_tileAt :
    wellFormed (.seqFire 40 0) = false := by decide +kernel

theorem test_illFormed_netDie :
    wellFormed (.replySeqGrant 8 0) = false := by decide +kernel

theorem test_illFormed_hubId :
    wellFormed (.epochGrant 8 0) = false := by decide +kernel

theorem test_illFormed_dieNumber :
    wellFormed (.tickBoundary [(64, 0)]) = false := by decide +kernel

theorem test_illFormed_macPort :
    wellFormed (.macLinkChange 16 0 true) = false := by decide +kernel

theorem test_illFormed_trunkPort :
    wellFormed (.trunkRetry 40) = false := by decide +kernel

theorem test_illFormed_etherOrTrunk :
    wellFormed (.serdesRecalDone 56 false) = false := by decide +kernel

theorem test_illFormed_fecPort :
    wellFormed (.fecReturn 0 8) = false := by decide +kernel

theorem test_illFormed_engineUnit :
    wellFormed (.enginePeriod 0 12) = false := by decide +kernel

theorem test_illFormed_ctxId :
    wellFormed (.ctxResetDone 2048) = false := by decide +kernel

theorem test_illFormed_partId :
    wellFormed (.partResetDone 32) = false := by decide +kernel

theorem test_illFormed_quadId :
    wellFormed (.scanComplete 0 160) = false := by decide +kernel

theorem test_illFormed_pcId :
    wellFormed (.rekeyStart 256) = false := by decide +kernel

theorem test_illFormed_pageId :
    wellFormed (.pageClearDone 0 384) = false := by decide +kernel

theorem test_illFormed_funcId :
    wellFormed (.functionLevelReset 1024) = false := by decide +kernel

theorem test_illFormed_domainId :
    wellFormed (.epochGrant 0 1025) = false := by decide +kernel

theorem test_illFormed_queueId :
    wellFormed (.txFrame 8192) = false := by decide +kernel

theorem test_illFormed_entryId :
    wellFormed (.libInstallDone 4096) = false := by decide +kernel

theorem test_illFormed_carrierId :
    wellFormed (.cplaneSend 384 ⟨0, 0⟩) = false := by decide +kernel

theorem test_illFormed_hartId :
    wellFormed (.monitorHartSwitch 128) = false := by decide +kernel

theorem test_illFormed_sliceId :
    wellFormed (.sliceBoundary 16) = false := by decide +kernel

theorem test_illFormed_inTick :
    wellFormed (.entryOffset 0 1500000) = false := by decide +kernel

theorem test_illFormed_trunkSlot :
    wellFormed (.vc0Delivery 0 1000000) = false := by decide +kernel

theorem test_illFormed_deviceId :
    wellFormed (.trunkIdentify 0 262144 0 0) = false := by decide +kernel

theorem test_illFormed_coordinate :
    wellFormed (.trunkAgree 0 (2 ^ 384, 0) true) = false := by decide +kernel

theorem test_illFormed_railGroup :
    wellFormed (.railPowerGood 4) = false := by decide +kernel

theorem test_illFormed_sensorUnit :
    wellFormed (.thermalAlarm 72 0) = false := by decide +kernel

theorem test_illFormed_hartWord :
    wellFormed (.partHartRsvWrite .c 4 0) = false := by decide +kernel

theorem test_illFormed_cellByteOff :
    wellFormed (.partCellSWrite .c 2560 0) = false := by decide +kernel

theorem test_illFormed_ruleByte :
    wellFormed (.srtShadowRuleWrite .c 128 1 0) = false := by decide +kernel

theorem test_illFormed_quotaId :
    wellFormed (.vfQuotaWrite .c 1 5 0) = false := by decide +kernel

theorem test_illFormed_windowKind :
    wellFormed (.escalationWindowExpiry 3 0) = false := by decide +kernel

theorem test_illFormed_vfCount :
    wellFormed (.vfEnableSet 1024) = false := by decide +kernel

theorem test_illFormed_blockSamples :
    wellFormed (.uplaneReceive 0 0 0 0 0 [] 0 0 0 false) = false := by decide +kernel

theorem test_illFormed_fits :
    wellFormed (.partClose {} 256) = false := by decide +kernel

/-- Boundary values that the part has. -/
theorem test_wellFormed_boundaries :
    wellFormed (.seqFire 39 255) = true ∧ wellFormed (.entryOffset 2047 1499999) = true ∧
      wellFormed (.vfQuotaWrite .c 1023 4 0) = true ∧ wellFormed (.trunkRetry 39) = true ∧
      wellFormed (.pageClearDone 255 383) = true ∧ wellFormed (.epochGrant 7 1024) = true := by decide +kernel

/-- The table gives no bits to any row. -/
theorem test_decodeTableWord_none :
    decodeTableWord 32 0 = none ∧ decodeTableWord 0 0 = none := by decide +kernel

/-! ## States for the tests -/

/-- A part that has booted: the agents run (R402). -/
def ready : State := { State.reset with life := { State.reset.life with stage := .done, alive := true, pwrOk := true } }

/-- The header of a command packet with an opcode, from the station bus. -/
def hdr (op : BitVec 16) : CmdHdr := { opcode := op }

/-- The kind 3 frame that brings a command packet from the station bus (R244). -/
def frameOf (mac : BitVec 48) (h : CmdHdr) : List Byte :=
  beBytes 6 0 ++ beBytes 6 mac.toNat ++ [0, 0, 3, 0, 0, 0] ++ leBytes 2 h.opcode.toNat ++ leBytes 2 (ofBool h.fence) ++
    leBytes 4 h.postmark.toNat ++ leBytes 8 h.token.toNat

/-- s with the packet of a command of the station bus in the station queue. -/
def posted (c : Instr) (s : State) : State :=
  match commandRow c with
  | some (h, _) =>
    match h.src with
    | .station mac => { s with station := { s.station with rxq := [frameOf mac h] } }
    | .ring _ => s
  | none => s

/-- The command, posted in s, is taken and passes the general checks. -/
def posts (c : Instr) (s : State) : Bool := takes (posted c s) c

/-- The command completes in s, and what it leaves meets p. -/
def yields (c : Instr) (s : State) (p : State → Bool) : Bool :=
  match exec c (posted c s) with
  | .next t => p t
  | _ => false

/-- A page of the host pool behind frame 0 of PF, on a plain pseudo-channel (R197). -/
def pooled (s : State) : State :=
  { s with
    pcs := put s.pcs 0 { owner := .hostPool }
    pages := put s.pages 0 { kind := .function, frame := some 0 } }

/-- One register at a value. -/
def withReg (s : State) (a v : Nat) : State := setReg s a v

/-- The tick generator in a state with a filtered time error in ps. -/
def ticking (s : State) (st : TickState) (te : Int) : State :=
  { s with tick := { s.tick with state := st, te := te } }

/-! ## The queue, the invariants, the general checks -/

/-- A front command runs and leaves the queue. -/
theorem test_step_front :
    (match step { ready with pending := [.nop (hdr 0)] } with | .next t => t.pending == [] | _ => false) = true := by decide +kernel

/-- An empty queue. -/
theorem test_step_idle :
    (match step State.reset with | .next t => t == State.reset | _ => false) = true := by decide +kernel

/-- The hypotheses of the invariants: a canonical state whose step answers a next state. -/
theorem test_step_invariant :
    Memory.wf ready.mem = true ∧ yields (.nop (hdr 0)) ready (fun t => t.disabled == []) = true := by decide +kernel

/-- LOCKED unmasked: the TCK bit of DEV_INT_SUMMARY goes from 0 to 1 (R330). -/
theorem test_summary_fires :
    let s := ticking (withReg ready (bTck + 0x34) 0) .acquiring 0
    (let t := takeTickState { s with tick := { s.tick with next := some .locked } }
     decide (intSummary t &&& intSummary s ≠ intSummary t)) = true := by decide +kernel

/-- Each general check has a command that fails it first (R433). -/
theorem test_general_checks :
    commandRow (.partReturn (hdr 0x203) 0) = some (hdr 0x203, { opcode := 0x0203, agent := 1 }) ∧
      mayTake (posted (.partReturn (hdr 0x203) 0) ready) (hdr 0x203) 1 = true ∧ (hdr 0x203).postmark = (vfOf ready 0).postmark ∧
      (({ hdr 0x203 with postmark := 1 } : CmdHdr).postmark ≠ (vfOf ready 0).postmark) ∧
      (hdr 0x202).opcode.toNat ≠ 0x0203 ∧ ({ hdr 0x203 with clean := false } : CmdHdr).clean = false := by decide +kernel

/-- A tenant's ring may not post PART_RETURN: NOT_PERMITTED takes the command and writes its status (R333). -/
theorem test_general_notPermitted :
    let s := { ready with queues := [(0, { kind := 3, enabled := true, func := 1, log2 := 6, prod := 1, peer := 1 }), (1, { kind := 4, enabled := true, func := 1, log2 := 6 })] }
    let h := { hdr 0x203 with src := .ring 0 }
    mayTake s h 1 = true ∧ cmdFunc (taken s h) h.src = 1 ∧
    yields (.partReturn h 0) s (fun t => decide ((queueOf t 1).prod = 1 ∧ (queueOf t 0).cons = 1)) = true := by decide +kernel

/-- Before the boot no agent takes a command. -/
theorem test_waits_for_agent :
    mayTake State.reset (hdr 0) 3 = false ∧ stallsRing State.reset (hdr 0) = false := by decide +kernel

/-- A full completion ring stalls its CMD ring (R329). -/
theorem test_waits_stalled :
    let s := { ready with queues := [(0, { kind := 3, enabled := true, log2 := 1, prod := 1, peer := 1 }), (1, { kind := 4, enabled := true, log2 := 1, prod := 2 })] }
    mayTake s { src := .ring 0 } 3 = false ∧ stallsRing s { src := .ring 0 } = true := by decide +kernel

/-! ## Registers, the tick generator, the signal bus -/

def viaC : Access := { view := .c, bar := .pf, via := .pcie }
def viaT : Access := { view := .t, bar := .pf, via := .pcie }

theorem test_register_noAccess :
    reachesVf ready viaT = none ∧ reachesPf viaT = false := by decide +kernel

/-- FLT_INT_MASK is rw in views C and O (R394). -/
theorem test_register_rw :
    let a := bFlt + 0x18
    reachesPf viaC = true ∧ a % 4 = 0 ∧ within a (bMbx + 0x300) (bMbx + 0x3FF) = false ∧ indexIn a 0x8000C 16 2048 = none ∧
    (rowOf a).isSome = true ∧ yields (.registerWrite viaC a 4 0x155) ready (fun t => reg t a == 0x155) = true := by decide +kernel

/-- FLT_WDOG takes 10 to 1,000 and discards other values (R394). -/
theorem test_register_rejected :
    let a := bFlt + 0x4
    (rowOf a).isSome = true ∧ yields (.registerWrite viaC a 4 5) ready (fun t => reg t a == 0x64) = true ∧
      yields (.registerWrite viaC a 4 1000) ready (fun t => reg t a == 1000) = true := by decide +kernel

theorem test_register_unmapped :
    rowOf 0x3FFFFFC = none ∧ yields (.registerWrite viaC 0x3FFFFFC 4 1) ready (fun t => t == ready) = true := by decide +kernel

theorem test_register_typed :
    writeTyped ready .c (bFlt + 0x18) 0x155 = ready := by decide +kernel

/-- STB_RX (R235). -/
theorem test_counter_latch :
    halfRows.any (·.hits (bStb + 0x100)) = true ∧ (bStb + 0x100) % 8 = 0 ∧
    yields (.counterLowWordRead viaC (bStb + 0x100)) (bump ready (bStb + 0x100) 7) (fun t => t.wire == [.regData 7]) = true := by decide +kernel

/-- A kept PERIOD, a legal code and a reserved one (R19). -/
theorem test_tckCtrl :
    let s := ready
    let old := reg s bTck
    hasAccess .c = true ∧ hasAccess .t = false ∧ ptpMoved old (ctrlFields old (old + 8)) = false ∧
    bits (old + 8) 2 0 = bits old 2 0 ∧ bits (old + 1) 2 0 ≠ bits old 2 0 ∧
    periodTaken (setReg s bTck (ctrlFields old (old + 1))) (bits (old + 1) 2 0) = true ∧
    periodTaken (setReg s bTck (ctrlFields old (old + 6))) (bits (old + 6) 2 0) = false := by decide +kernel

theorem test_tckPhase :
    noneRuns ready = true ∧ 5 ≠ reg ready (bTck + 0xC) ∧ 5 < periodNs (periodCode ready) ∧
    noneRuns { ready with tts := [(0, { state := .running })] } = false ∧
    yields (.tckPhaseWrite .c 5) ready (fun t => decide (t.tick.state = .stepping ∧ reg t (bTck + 0xC) = 5)) = true := by decide +kernel

/-- The change waits for the boundary (R32). -/
theorem test_timing_locked :
    let s := ticking ready .acquiring 0
    inLock s = true ∧ comingState s = .acquiring ∧ inLock (ticking ready .acquiring (10 ^ 9)) = false ∧
    yields .lockTimerExpiry s (fun t => decide (t.tick.state = .acquiring ∧ t.tick.next = some .locked)) = true := by decide +kernel

/-- A change of state is pending. -/
def coming (s : State) (st : TickState) : State := { s with tick := { s.tick with next := some st } }

/-- R32, second. -/
theorem test_timing_takes :
    let l := ticking ready .locked 0
    (takeTickState (coming l .holdover)).tick.state = .holdover ∧ (takeTickState (coming l .acquiring)).tick.state = .acquiring ∧
    inLock (coming l .acquiring) = true ∧ bitOf (reg (takeTickState (coming l .acquiring)) (bTck + 0x30)) 2 = true ∧
    (takeTickState l).tick.state = .locked ∧ bitOf (reg (takeTickState (coming (ticking ready .acquiring 0) .locked)) (bTck + 0x30)) 0 = true := by decide +kernel

theorem test_timing_lost :
    let s := ticking ready .locked (10 ^ 9)
    lostPs s < s.tick.te.natAbs ∧ bitOf (reg s bTck) 4 = false ∧
    bitOf (reg (withReg s bTck (reg s bTck + 16)) bTck) 4 = true ∧
    yields .lostTimerExpiry s (fun t => decide (t.tick.next = some .acquiring ∧ t.level = .full)) = true := by decide +kernel

/-- LOSS_ACT 1 (R22). -/
theorem test_timing_lossAct :
    let s := withReg (ticking ready .holdover 0) bTck (reg ready bTck + 16)
    let s := { s with tick := { s.tick with holdNs := holdLimit s * 1000000000 + 1 } }
    bitOf (reg s bTck) 4 = true ∧ yields .holdoverExpiry s (fun t => decide ((takeTickState t).tick.state = .expired ∧ (takeTickState t).level = .beacon)) = true := by decide +kernel

theorem test_timing_reference :
    followEn (ticking ready .locked 0) = false ∧ yields .servoUpdateTimeout (ticking ready .locked 0) (fun t => decide (t.tick.next = some .holdover)) = true := by decide +kernel

/-- The PTP and SyncE ports of reset with one subport each. -/
def split : State := ready

/-! ## PTP, SyncE, the signal bus, refresh -/

/-- The PTP port and subport of reset. -/
def ptpPort : Nat := bits (reg ready bTck) 11 8
def ptpSub : Nat := bits (reg ready bTck) 7 5
def syncPort : Nat := bits (reg ready bTck) 15 12
def syncSub : Nat := bits (reg ready bTck) 27 25
/-- A master is selected. -/
def mastered : State := { ready with tick := { ready.tick with state := .locked, ptpOk := true, selected := some {} } }

/-- The first master heard in Free-run (R17). -/
theorem test_ptp_announce :
    let a : Announce := { domain := bits (reg ready bTck) 23 16 }
    isPtpPort ready ptpPort ptpSub = true ∧ isPtpPort ready 15 7 = false ∧ followEn ready = false ∧
    yields (.ptpAnnounce ptpPort ptpSub a) ready (fun t => decide (t.tick.next = some .acquiring ∧ t.tick.selected = some a)) = true := by decide +kernel

theorem test_ptp_sync :
    mastered.tick.ptpOk = true ∧ followEn mastered = false ∧ mastered.tick.state = .locked ∧ mastered.tick.next = none ∧
    yields (.ptpSync ptpPort ptpSub 5) mastered (fun t => t.tick.slew == 0) = true ∧ ready.tick.ptpOk = false := by decide +kernel

theorem test_ptp_synce :
    isSyncePort ready syncPort syncSub = true ∧ isSyncePort ready 15 7 = false ∧
    yields (.esmcMessage syncPort syncSub 2) ready (fun t => t.tick.synceQl == 2) = true ∧
    yields (.synceStatusChange true) ready (fun t => t.tick.synceOk) = true := by decide +kernel

theorem test_ptp_delayReq :
    yields (.ptpDelayReq 9) mastered (fun t => ((look t.egress (8 * ptpPort + ptpSub)).timing).isSome) = true := by decide +kernel

/-- R39: absent, full and tick-locked, beacon, reset held. -/
theorem test_signal_answers :
    answerNow State.reset = 0 ∧ answerNow (ticking ready .locked 0) = 12 ∧
    answerNow { ready with level := .beacon } = 10 ∧ answerNow { ready with life := { ready.life with held := true } } = 3 := by decide +kernel

theorem test_signal_poll :
    yields (.sigPoll 7) ready (fun t => decide (reg t (bSig + 4) = 1 ∧ reg t (bSig + 0xC) = 7)) = true := by decide +kernel

/-- Phase 732 of pseudo-channel 1, its second beat, an ac before it, and the last beat of the tick (R29). -/
theorem test_refresh :
    yields (.refreshBeat 1 732) ready (fun t => t.wire == [.refresh 1 732]) = true ∧
    yields (.refreshBeat 1 (732 + 5856)) ready (fun t => t.wire.length == 1) = true ∧
    yields (.refreshBeat 1 731) ready (fun t => t == ready) = true ∧
    beatStarts (tickLen ready) 0 (tickLen ready - tickLen ready % 5856) = decide (128 ≤ tickLen ready % 5856) := by decide +kernel

/-! ## Queues -/

/-- R327; a queue in use is refused. -/
theorem test_queAssign :
    let s := pooled ready
    posts (.queAssign (hdr 0x701) 8191 0 1 6 2 0 0 0) s = true ∧ vecOk 0 2 = true ∧ peerOk s 0 1 0 = true ∧ hostOk s 0 0 (entrySize 1 * 2 ^ 6) = true ∧
    slotHeld s 0 0 = false ∧
    yields (.queAssign (hdr 0x701) 8191 0 1 6 2 0 0 0) s (fun t => decide ((queueOf t 8191).kind = 1 ∧ (queueOf t 8191).armed = true)) = true ∧
    yields (.queAssign (hdr 0x701) 8191 0 1 6 2 0 0 0) (pooled { ready with queues := [(8191, { kind := 2 })] }) (fun t => (queueOf t 8191).kind == 2) = true := by decide +kernel

/-- A function without queue quota (R306). -/
theorem test_queAssign_quota :
    let s := pooled { ready with vfs := [(1, { assigned := true })] }
    let s := { s with pages := [(0, { kind := .function, owner := 1, frame := some 0 })] }
    (vfOf s 1).assigned = true ∧ slotHeld s 1 0 = false ∧ hostOk s 1 0 (entrySize 1 * 2 ^ 6) = true ∧
    (vfOf s 1).qQueues < useQueues s 1 + 1 ∧ peerOk s 1 1 0 = true := by decide +kernel

theorem test_queEnable :
    let s := { ready with queues := [(0, { kind := 1 })] }
    posts (.queEnable (hdr 0x703) 0) s = true ∧ posts (.queDisable (hdr 0x704) 0) s = true ∧ posts (.queRelease (hdr 0x702) 0) s = true ∧ queueEmpty (queueOf s 0) = true ∧
    (queueOf s 0).enabled = false ∧ (queueOf s 1).kind = 0 ∧
    yields (.queEnable (hdr 0x703) 0) s (fun t => (queueOf t 0).enabled) = true ∧
    yields (.queRelease (hdr 0x702) 0) s (fun t => (queueOf t 0).kind == 0) = true := by decide +kernel

theorem test_queDisable :
    let s := { ready with queues := [(0, { kind := 4, enabled := true })] }
    namedPeer s 0 = false ∧ (queueOf s 0).kind = 4 ∧
    yields (.queDisable (hdr 0x704) 0) s (fun t => (queueOf t 0).enabled == false) = true ∧ posts (.nop (hdr 0)) s = true := by decide +kernel

/-- A full ring of 64 (R328). -/
theorem test_doorbell :
    let s := { ready with queues := [(3, { kind := 2, enabled := true, log2 := 6 })] }
    rungQueue s 0 3 = some 3 ∧ rungQueue s 0 4 = none ∧ boundEntry s 3 = false ∧ doorbellBad (queueOf s 3) 64 = false ∧
    drivesProd 2 = true ∧ unannounced { queueOf s 3 with prod := 64, armed := true } = false ∧
    yields (.queueDoorbell 0 3 64) s (fun t => decide ((queueOf t 3).prod = 64 ∧ (queueOf t 3).armed = true)) = true := by decide +kernel

theorem test_doorbell_consumer :
    let s := { ready with queues := [(3, { kind := 4, enabled := true, log2 := 6, prod := 1 })] }
    drivesProd 4 = false ∧ doorbellBad (queueOf s 3) 1 = false ∧ unannounced { queueOf s 3 with cons := 1, armed := true } = false ∧
    yields (.queueDoorbell 0 3 1) s (fun t => (queueOf t 3).cons == 1) = true := by decide +kernel

/-- Beyond the ring, and beyond twice the ring (R328). -/
theorem test_doorbell_bad :
    let s := { ready with queues := [(3, { kind := 2, enabled := true, log2 := 6 })] }
    doorbellBad (queueOf s 3) 65 = true ∧ doorbellBad (queueOf s 3) 128 = true ∧
    yields (.queueDoorbell 0 3 128) s (fun t => decide ((queueOf t 3).dbErr = true ∧ t.fltLog.length = 1)) = true := by decide +kernel

theorem test_resume :
    let s := { ready with queues := [(0, { kind := 3, enabled := true, log2 := 6, peer := 1, stalled := true }), (1, { kind := 4, enabled := true, log2 := 6 })] }
    cplRoom s 0 = true ∧ cplRoom ready 0 = false ∧ yields (.cmdRingResume 0) s (fun t => (queueOf t 0).stalled == false) = true := by decide +kernel

theorem test_deferred :
    let s := { ready with queues := [(0, { kind := 3, enabled := true, log2 := 6, peer := 1, waitStatus := [List.replicate 64 0] }), (1, { kind := 4, enabled := true, log2 := 6 })] }
    ringFull (queueOf s 1) = false ∧ yields (.deferredCommandStatus 0) s (fun t => decide ((queueOf t 0).waitStatus = [] ∧ (queueOf t 1).prod = 1)) = true ∧
    (queueOf s 1).waitStatus = [] := by decide +kernel

theorem test_barrier :
    let s := { ready with queues := [(0, { kind := 6, enabled := true, log2 := 6, barrier := [List.replicate 32 0] })] }
    yields (.barrierEntryDeferred 0) s (fun t => decide ((queueOf t 0).barrier = [] ∧ (queueOf t 0).prod = 1)) = true ∧ (queueOf ready 0).barrier = [] := by decide +kernel

/-- Indices wrap at twice the ring; a CPL ring keeps one entry free (R328). -/
theorem test_ring :
    let x : Queue := { kind := 4, enabled := true, log2 := 16, prod := 2 ^ 17 - 1, cons := 2 ^ 17 - 1 }
    nextIndex x x.prod = 0 ∧ x.log2 ≤ 16 ∧ 1 ≤ ringLen x ∧ ringFull x = false ∧
    ringFull { x with prod := 2 ^ 16 - 2 } = true ∧ offer { ready with queues := [(0, x)] } 0 (fun _ => []) = writeProd { ready with queues := [(0, x)] } 0 [] := by decide +kernel

/-! ## Partitions, contexts, functions, seeds -/

theorem test_partOpen :
    let s := { ready with vfs := [(1, { assigned := true })] }
    posts (.partOpen (hdr 0x201) 31 1 0) s = true ∧ (part s 31).state = .free ∧ (vfOf s 1).assigned = true ∧
    yields (.partOpen (hdr 0x201) 31 1 0) s (fun t => decide ((part t 31).state = .opened ∧ (part t 31).radio = true)) = true ∧
    yields (.partOpen (hdr 0x201) 31 0 1) s (fun t => decide ((part t 31).func = 1)) = true := by decide +kernel

/-- Partition 0 is open for PF. -/
def opened : State := { ready with parts := [(0, { state := .opened, radio := true })] }

theorem test_partClose :
    posts (.partClose (hdr 0x202) 0) opened = true ∧ partHolds opened 0 = false ∧
    yields (.partClose (hdr 0x202) 0) opened (fun t => decide ((part t 0).state = .free)) = true := by decide +kernel

theorem test_partReturn :
    let s := { ready with parts := [(0, { state := .outOfService })] }
    posts (.partReturn (hdr 0x203) 0) s = true ∧ yields (.partReturn (hdr 0x203) 0) s (fun t => decide ((part t 0).state = .opened)) = true := by decide +kernel

theorem test_ctxCreate :
    posts (.ctxCreate (hdr 0x205) 0 63 7) opened = true ∧ foreign opened (hdr 0).src 0 = false ∧ (ctxOf opened 63).state = .free ∧
    yields (.ctxCreate (hdr 0x205) 0 63 7) opened (fun t => decide ((ctxOf t 63).state = .ready ∧ (ctxOf t 63).seed = 7)) = true := by decide +kernel

theorem test_ctxRemove :
    let s := { opened with ctxs := [(63, { state := .ready, postmark := 9 })] }
    posts (.ctxRemove (hdr 0x206) 63) s = true ∧ posts (.ctxSeed (hdr 0x207) 63 5) s = true ∧ (ctxOf s 63).state = .ready ∧ foreign s (hdr 0).src 0 = false ∧
    yields (.ctxRemove (hdr 0x206) 63) s (fun t => decide ((ctxOf t 63).state = .free ∧ (ctxOf t 63).postmark = 9)) = true ∧
    yields (.ctxSeed (hdr 0x207) 63 5) s (fun t => (ctxOf t 63).seed == 5) = true := by decide +kernel

/-- Both words of a view apply together (R134). -/
theorem test_seed :
    let s := { ready with ctxs := [(0, { state := .ready })] }
    (ctxOf s (bits (reg s (bAri + 0x4)) 10 0)).state = .ready ∧ (ctxOf ready 0).state ≠ .ready ∧
    yields (.ariSeedHighWrite .o 1) { s with seedStage := (9, 2) } (fun t => decide ((ctxOf t 0).seed = 0x100000002 ∧ t.seedStage = (9, 0))) = true ∧
    yields (.ariSeedWrite .c 1) ready (fun t => bitOf (reg t (bAri + 0x18)) 4) = true := by decide +kernel

/-- PART 3 is open, PART 2 is not (R293). -/
theorem test_cells :
    let s := { ready with parts := [(3, { state := .opened })] }
    cellWriteOk s 0 0x23 = true ∧ cellWriteOk s 0 0x22 = false ∧
    yields (.partCellSWrite .c 2559 0x23) s (fun t => look t.cellS 2559 == 0x23) = true ∧
    yields (.partCellSWrite .c 2559 0x22) s (fun t => decide (look t.cellS 2559 = 0 ∧ bitOf (reg t (bPart + 4)) 0 = true)) = true := by decide +kernel

theorem test_hartRsv :
    let s := { ready with harts := [(127, 1)] }
    guestOn s 3 0x80000000 = true ∧ guestOn s 3 1 = false ∧
    yields (.partHartRsvWrite .c 3 1) s (fun t => t.store.hartRsv.getLsbD 96) = true := by decide +kernel

theorem test_guest :
    coresRun ready = true ∧ look ready.harts 127 = 0 ∧ ready.store.hartRsv.getLsbD 127 = false ∧
    yields (.guestEntry 127 1023) ready (fun t => look t.harts 127 == 1023) = true ∧
    yields (.guestExit 127 0 [1]) { ready with harts := [(127, 1)] } (fun t => look t.harts 127 == 0) = true := by decide +kernel

theorem test_guest_reserved :
    ({ ready.store with hartRsv := 1 } : ScStore).hartRsv.getLsbD 0 = true := by decide +kernel

/-- The last hart puts the new version in force (R412). -/
theorem test_monitor :
    let s := { ready with life := { ready.life with monNew := some 5, monHarts := List.range 127 } }
    look s.harts 127 = 0 ∧ 127 ∉ s.life.monHarts ∧ s.life.monHarts.length = 127 ∧
    yields (.monitorHartSwitch 127) s (fun t => t.life.versions.getD 2 0 == 5) = true ∧
    yields (.monitorHartSwitch 127) { s with life := { s.life with monHarts := [] } } (fun t => t.life.monHarts == [127]) = true := by decide +kernel

/-- A cut below the use gives a notice; 8,193 queues are rejected (R306, R308). -/
theorem test_quota :
    let s := { ready with queues := [(0, { kind := 1, func := 1 })] }
    let t := { s with vfs := upd s.vfs 1 fun x => withQuota x 3 (quotaValue 3 0) }
    quotaValue 3 0 < useOf t 1 3 ∧ useOf t 1 4 ≤ quotaValue 4 0 ∧ (vfOf s 1).cutPending = false ∧ quotaValue 3 8192 ≤ 8192 ∧
    8192 < quotaValue 3 8193 ∧ yields (.vfQuotaWrite .c 1 3 0) s (fun t => decide ((vfOf t 1).mbx.nhead = 1)) = true ∧
    yields (.vfQuotaWrite .c 1 3 8193) s (fun t => bitOf (reg t (bPart + 4)) 0) = true := by decide +kernel

theorem test_tctrl :
    yields (.vfTctrlWrite .t 1 7) ready (fun t => (vfOf t 1).tctrl == 7) = true ∧
    yields (.vfTctrlWrite .o 1 7) ready (fun t => t == ready) = true := by decide +kernel

/-- Lengths 1 to 256 (R303). -/
theorem test_mailbox :
    let b := { ready with vfs := [(1023, { mbx := { outBusy := true } })] }
    isVf 1023 = true ∧ isVf 0 = false ∧ bits (256 : BitVec 32).toNat 8 0 = 256 ∧
    yields (.mbxTSend 1023 256) ready (fun t => decide ((vfOf t 1023).mbx.outLen = 256 ∧ (vfOf t 1023).mbx.outSeq = 1)) = true ∧
    yields (.mbxTSend 1023 1) b (fun t => (vfOf t 1023).mbx.refused) = true ∧
    yields (.mbxTSend 1023 257) ready (fun t => t == ready) = true ∧
    yields (.mbxTimeoutExpiry 1023 true) b (fun t => (vfOf t 1023).mbx.outTimeout) = true := by decide +kernel

theorem test_mailbox_in :
    let g := mbxSel ready
    let f := { ready with vfs := put ready.vfs g { mbx := { inFull := true } } }
    let n := { ready with vfs := [(1, { mbx := { nhead := 8, inFull := true } })] }
    yields (.mbxInPost .o 256) ready (fun t => decide ((vfOf t g).mbx.inLen = 256)) = true ∧
    yields (.mbxInPost .o 1) f (fun t => bitOf (reg t (bMbx + 0x118)) 3) = true ∧
    yields (.mbxTInAck 1 1) n (fun t => (vfOf t 1).mbx.inFull == false) = true ∧
    ntailOk (vfOf n 1).mbx 0 = true ∧ yields (.mbxTNtailWrite 1 8) n (fun t => (vfOf t 1).mbx.ntail == 8) = true ∧
    yields (.mbxTimeoutExpiry 1 false) n (fun t => (vfOf t 1).mbx.inTimeout) = true := by decide +kernel

theorem test_mailbox_ack :
    let g := mbxSel ready
    let b := { ready with vfs := put ready.vfs g { mbx := { outBusy := true } } }
    (vfOf b g).mbx.outBusy = true ∧ yields (.mbxOutAck .c 1) b (fun t => (vfOf t g).mbx.outDone) = true := by decide +kernel

theorem test_vfAssign :
    posts (.vfAssign (hdr 0x901) 1023 65535) ready = true ∧ (vfOf ready 1023).assigned = false ∧
    (ready.vfs.any fun kv => kv.2.assigned && decide (kv.2.tenant = 65535)) = false ∧
    yields (.vfAssign (hdr 0x901) 1023 65535) ready (fun t => decide ((vfOf t 1023).tenant = 65535 ∧ (look t.domains 1023).state = .active)) = true := by decide +kernel

theorem test_vfRelease :
    let s := { ready with vfs := [(1, { assigned := true, tenant := 3 })] }
    posts (.vfRelease (hdr 0x902) 1) s = true ∧ vfHolds s 1 = false ∧
    yields (.vfRelease (hdr 0x902) 1) s (fun t => (vfOf t 1).assigned == false) = true := by decide +kernel

/-- A readable buffer; whether it unwraps rests on the part's key, which is free. -/
theorem test_keyInstall :
    let s := pooled ready
    posts (.keyInstall (hdr 0x903) 4 0) s = true ∧ hostOk s 0 0 (keyBufLen 4) = true ∧
    ((hostRead s (.function 0) 0 0 (keyBufLen 4)).2.map fun x => (x.1.length, x.2)) = some (136, false) := by decide +kernel

theorem test_attest :
    let s := pooled opened
    posts (.attest (hdr 0x904) 0 0 7) s = true ∧ hostOk s 0 0 (attestLen s 0) = true ∧ foreign s (hdr 0).src 0 = false ∧
    yields (.attest (hdr 0x904) 0 0 7) s (fun t => t.effects.length == 1) = true := by decide +kernel

/-- The length of the certificate is free. -/
theorem test_certGet :
    fieldsOk (.certGet (hdr 0x905) 1 0) = true ∧
    passes (posted (.certGet (hdr 0x905) 1 0) ready) (hdr 0x905) { opcode := 0x0905, agent := 2, fromT := true, atBeacon := true } = true := by
  decide +kernel

/-! ## HBM -/

/-- Pseudo-channel 0 belongs to partition 0, sealed; its page 383 is a context page. -/
def sealedPc : State :=
  { opened with
    pcs := [(0, { owner := .partition, sealed := true })]
    domains := [(0, { state := .active })] }

/-- To a radio partition, plain; to the host pool, sealed (R195). -/
theorem test_pcAssign :
    allocatable 254 = true ∧ allocatable 255 = false ∧ posts (.pcAssign (hdr 0x501) 254 0 0) opened = true ∧ (pcOf opened 254).owner = .free ∧
    yields (.pcAssign (hdr 0x501) 254 0 0) opened (fun t => decide ((pcOf t 254).owner = .partition)) = true ∧
    yields (.pcAssign (hdr 0x501) 254 0x80 1) opened (fun t => decide ((pcOf t 254).owner = .hostPool ∧ (pcOf t 254).sealed = true)) = true := by decide +kernel

theorem test_pcFree :
    posts (.pcFree (hdr 0x502) 0) sealedPc = true ∧ pcNamed sealedPc 0 = false ∧ (pcOf sealedPc 0).freeing = false ∧
    yields (.pcFree (hdr 0x502) 0) sealedPc (fun t => decide ((pcOf t 0).owner = .free)) = true := by decide +kernel

/-- The last page of a sealed pseudo-channel (R196). -/
theorem test_pageAssign_sealed :
    posts (.pageAssign (hdr 0x503) 0 2 335 0 0) sealedPc = true ∧ pageAssignable sealedPc 0 2 335 0 0 = true ∧ pageFunc sealedPc 0 2 0 = 0 ∧
    yields (.pageAssign (hdr 0x503) 0 2 335 0 0) sealedPc (fun t => decide ((pageAt t 0 335).kind = .clearing)) = true := by decide +kernel

/-- The last page of a plain one (R196). -/
theorem test_pageAssign_plain :
    let s := { ready with pcs := [(0, { owner := .hostPool })] }
    pageAssignable s 0 3 383 0 9 = true ∧
    yields (.pageAssign (hdr 0x503) 0 3 383 0 9) s (fun t => decide ((pageAt t 0 383).frame = some 9)) = true := by decide +kernel

theorem test_pageRelease :
    let s := { sealedPc with pages := [(335, { kind := .shared })] }
    posts (.pageRelease (hdr 0x504) 0 335) s = true ∧ posts (.regionRekey (hdr 0x506) 0 335) s = true ∧ releasable (pageAt s 0 335) = true ∧ conflictAct s 3 (335 * 256) 0 = none ∧
    (pageAt s 0 335).rekeying = false ∧ (pageAt s 0 335).rekeyWaiting = false ∧
    yields (.pageRelease (hdr 0x504) 0 335) s (fun t => decide ((pageAt t 0 335).kind = .clearing)) = true ∧
    yields (.regionRekey (hdr 0x506) 0 335) s (fun t => (pageAt t 0 335).rekeyWaiting) = true := by decide +kernel

theorem test_scrubPass :
    posts (.scrubPass (hdr 0x505) 0 1) ready = true ∧ (1 : BitVec 256) &&& ~~~allPcs = 0 ∧ conflictAct ready 2 0 1 = none ∧
    yields (.scrubPass (hdr 0x505) 0 1) ready (fun t => t.scrub.isSome) = true := by decide +kernel

theorem test_epochGrant :
    grantDue sealedPc 0 0 = true ∧ grantDue sealedPc 8 0 = false ∧ (look sealedPc.domains 0).state ≠ .empty ∧
    yields (.epochGrant 7 0) sealedPc (fun t => decide ((look t.domains 0).epoch = 2048 ∧ blockLeft (look t.blocks (blockKey 7 0)) = 2048)) = true := by decide +kernel

/-- Region 5 of pseudo-channel 0 waits for a rekey, with epochs at hand; in `rekeying` it is under way. -/
def rekeyDue : State :=
  { sealedPc with
    pages := [(5, { kind := .shared, blank := false, rekeyWaiting := true })]
    blocks := [(blockKey 0 0, { left := 1 })] }
def rekeying : State :=
  { sealedPc with pages := [(5, { kind := .shared, blank := false, rekeying := true, rekeyPtr := 32767 })] }

theorem test_rekeyStart :
    isRekeying rekeyDue 0 = false ∧ (nextRegion rekeyDue 0).map (·.1) = some 5 ∧ nextRegion sealedPc 0 = none ∧
    0 < blockLeft (look rekeyDue.blocks (blockKey 0 0)) ∧ yields (.rekeyStart 0) rekeyDue (fun t => (pageAt t 0 5).rekeying) = true := by decide +kernel

/-- The last line of a region (R203). -/
theorem test_rekeyLine :
    isRekeying rekeying 0 = true ∧ (rekeyPage rekeying 0).map (·.1) = some 5 ∧ rekeyPage sealedPc 0 = none ∧
    lineRead rekeying 0 (32768 * 5 + 32767) = .good ∧
    yields (.engineAccess 0) rekeying (fun t => (pageAt t 0 5).rekeyPtr == 32768) = true ∧
    yields (.rekeyDone 0) rekeying (fun _ => true) = true := by decide +kernel

theorem test_clearDone :
    let s := { ready with pcs := [(0, { owner := .hostPool })], pages := [(383, { kind := .clearing, clearStarted := true })], mem := [(byteKey 0 (32768 * 383) 0, 7)] }
    (pageAt s 0 383).kind = .clearing ∧ (pageAt s 0 383).waiting = none ∧ (clearStart s 0 383).isSome = true ∧ (pcOf s 0).freeing = false ∧
    yields (.pageClearDone 0 383) s (fun t => decide (t.mem = [] ∧ (pageAt t 0 383).kind = .free)) = true := by decide +kernel

theorem test_scrub :
    let s := { ready with scrub := some { mask := 1, act := 2 } }
    let z := withReg ready (bMem + 0x50) 0
    reg z (bMem + 0x50) = 0 ∧ reg (withReg ready (bMem + 0x50) 3600) (bMem + 0x50) ≠ 0 ∧ activities ready < 32 ∧ conflictAct ready 2 0 allPcs = none ∧
    ready.scrub = none ∧ s.scrubDue = false ∧ (s.scrub.map (scrubRest s)) = some [] ∧ yields .scrubDone s (fun t => t.scrub.isNone) = true := by decide +kernel

/-- COUNTER 0xFF_FFFE waits (R205). -/
theorem test_stall :
    let w : Stall := { pc := 0, line := 0, func := 0, ctx := none, addr := 0, bytes := [1] }
    let s := { pooled ready with stalls := [w] }
    let x := { s with
      pcs := [(0, { owner := .hostPool, sealed := true })]
      lines := [(0, { counter := 0xFFFFFE })] }
    wouldStall s 0 0 = false ∧ wouldStall x 0 0 = true ∧ ready.stalls = [] ∧
    yields (.stalledWriteResume 0) s (fun t => decide (t.stalls = [] ∧ look t.mem 0 = 1)) = true := by decide +kernel

/-- The last byte of a line; another function's access is rejected (R207). -/
theorem test_hostPool :
    let s := pooled ready
    hostPlace s 0 63 = some (0, 0, 63) ∧ wouldStall s 0 0 = false ∧ lineRead s 0 0 = .good ∧ hostPlace s 1 63 = none ∧
    yields (.hostPoolWrite 0 none 63 [9]) s (fun t => t.mem == [(63, 9)]) = true ∧
    yields (.hostPoolRead 1 none 63 1) s (fun t => t.wire.head? == some (.readData 1 63 [0] true)) = true := by decide +kernel

/-! ## Tiles -/

/-- Words at byte offsets, as a set's image (R77). -/
def image (l : List (Nat × Nat)) : Table Byte := l.foldl (fun m x => storeBytes m x.1 (leBytes 4 x.2)) []

/-- Tile 0 of A0 (compute), or 17 (memory), runs a set of partition 0 whose header word and first sequencer
entry are given (R77, R80). -/
def running (tile head entry : Nat) (more : List (Nat × Nat)) : State :=
  { opened with
    cellA := [(0, 0x20)]
    tts := [(0, { state := .running, ran := true })]
    tiles := [(tile, { sets := [{ main := image ([(0, head), (0x140, entry)] ++ more) }] })] }

/-- The tile is a site whose core is not busy and which p holds of. -/
def sited (s : State) (tile : Nat) (p : Site → Bool) : Bool :=
  match siteOf s (tileKey 0 tile) with
  | some x => p x && !coreBusy s x
  | none => false

/-- An entry with an action, of one ac. -/
def entry (action : Nat) : Nat := action * 2 ^ 6 + 2 ^ 25

/-- Each action of R80 stands in bits 8:6; FOLD goes to slot ARG; a FIRE command leaves a WAIT entry alone. -/
theorem test_seq_actions :
    (List.range 8).all (fun a => sited (running 0 1 (entry a) []) 0 fun x => decide (x.e.action = a ∧ entryLen x = 1)) = true ∧
    yields (.seqWait 0 0) (running 0 1 (entry 0) []) (fun t => (tileOf t 0).ac == 1) = true ∧
    yields (.seqFold 0 0) (running 0 1 (entry 3 + 5 * 2 ^ 9) []) (fun t => (tileOf t 0).active == 5) = true ∧
    yields (.seqFire 0 0) (running 0 1 (entry 0) []) (fun t => (tileOf t 0).ac == 0) = true := by decide +kernel

/-- Counter 0 starts at 1, or at 0. -/
theorem test_seq_fireIf :
    sited (running 0 1 (entry 2) [(0x14, 1)]) 0 (fun x => decide (x.d.ctrs.getD x.e.ctr 0 ≠ 0)) = true ∧
    sited (running 0 1 (entry 2) []) 0 (fun x => decide (x.d.ctrs.getD x.e.ctr 0 = 0)) = true := by decide +kernel

/-- A counter takes the token (R80). -/
theorem test_seq_load :
    let s := running 0 1 (entry 4) [(8, 1)]
    let s := { s with tiles := upd s.tiles 0 fun t => { t with queues := [(0, [{ payload := 7 }])] } }
    yields (.seqLoad 0 0) s (fun t => (siteOf t 0).any fun x => x.d.ctrs.getD 0 0 == 7) = true := by decide +kernel

theorem test_seq_read :
    sited (running 0 1 (entry 6) []) 0 (fun x => bitOf (descWord x x.e.arg 8) 3 == false) = true := by decide +kernel

/-- MERGE is bit 6 of PARAM, tag firing bit 3 of the header. -/
theorem test_fire_multiplier :
    sited (running 0 1 (entry 1) []) 0 (fun x => fires x && decide (x.kind = 0 ∧ x.sl.pers = 0 ∧ x.sl.mergeEn = false) && !suppressed (running 0 1 (entry 1) []) x) = true ∧
    sited (running 0 1 (entry 1) [(0x20, 0x40)]) 0 (fun x => fires x && x.sl.mergeEn) = true ∧
    sited (running 0 9 (entry 1) []) 0 (fun x => x.sl.tagFiring) = true := by decide +kernel

theorem test_fire_special :
    sited (running 0 3 (entry 1) []) 0 (fun x => decide (x.sl.pers = 1 ∧ sfCode x = 0)) = true := by decide +kernel

/-- Tile (1,1) is a memory tile (R52). -/
theorem test_fire_memory :
    sited (running 17 1 (entry 1) []) 17 (fun x => decide (x.kind = 1) && fires x && decide (mtPort x < 2)) = true := by decide +kernel

theorem test_fire_core :
    sited (running 0 5 (entry 1) [(0xC, 65535)]) 0 (fun x => fires x && decide (x.sl.pers = 2 ∧ x.sl.budget = 65535)) = true ∧
    yields (.coreFiring 0 0) (running 0 5 (entry 1) [(0xC, 65535)]) (fun t => (look (tileOf t 0).cores 0).left == 65535) = true := by decide +kernel

/-- A firing of the core of tile 0 is under way, with an instruction at its program counter, x1 = 7, x2 = 3 and
a window of 256 bytes (R89). -/
def coreAt (w : Nat) : State :=
  let s := running 0 5 (entry 1) [(4, 0x100), (8, 0xFF), (0xC, 100), (0x200, w)]
  { s with tiles := upd s.tiles 0 fun t =>
      { t with cores := [(0, { running := true, left := 50, regs := [7, 3] ++ List.replicate 13 0 })], queues := [(0, [{ payload := 7 }])] } }

def coreReadyFor (k : CoreClass) (w : Nat) : Bool :=
  match siteOf (coreAt w) 0 with
  | some x => coreReady (coreAt w) x k
  | none => false

def reg1 (t : State) (r : Nat) : Nat := (readX (look (tileOf t 0).cores 0) r).toNat

/-- Each word is of its class: RV32E, Zmmul, RDCYCLE, and the custom-0 rows of R90. -/
theorem test_core_words :
    ([(CoreClass.alu, 0x00500093), (.mul, 0x022081B3), (.branch, 0x00000463), (.jump, 0x008000EF), (.load, 0x00002083),
      (.store, 0x00102023), (.rdcycle, 0xC00020F3), (.illegal, 0), (.sPop, 0x0000000B), (.sPush, 0x0000100B),
      (.sGet, 0x0000208B), (.sPut, 0x0010300B), (.sLdw, 0x0000400B), (.sStw, 0x0000500B), (.sCtr, 0x0000608B),
      (.sTag, 0x0000708B), (.sSettag, 0x0210700B), (.sEnd, 0x0400700B)].all fun x => coreReadyFor x.1 x.2) = true := by decide +kernel

/-- addi x1, x0, 5 -/
theorem test_core_alu :
    yields (.coreAlu 0 0) (coreAt 0x00500093) (fun t => decide (reg1 t 1 = 5 ∧ reg1 t 2 = 3 ∧ (look (tileOf t 0).cores 0).pc = 4 ∧ (look (tileOf t 0).cores 0).left = 49)) = true := by decide +kernel

/-- mul x3, x1, x2 -/
theorem test_core_mul :
    yields (.coreMul 0 0) (coreAt 0x022081B3) (fun t => decide (reg1 t 3 = 21 ∧ (look (tileOf t 0).cores 0).left = 48)) = true := by decide +kernel

/-- jal x1, 8; beq x0, x0, 8 -/
theorem test_core_jump :
    yields (.coreJump 0 0) (coreAt 0x008000EF) (fun t => decide (reg1 t 1 = 4 ∧ (look (tileOf t 0).cores 0).pc = 8)) = true ∧
    yields (.coreBranch 0 0) (coreAt 0x00000463) (fun t => decide ((look (tileOf t 0).cores 0).pc = 8)) = true := by decide +kernel

/-- sw x1, 0(x0); sw x1, 0(x2) is misaligned: the address fault, and nothing stored. -/
theorem test_core_store :
    yields (.coreStore 0 0) (coreAt 0x00102023) (fun t => decide (look (tileOf t 0).ls 0 = 7 ∧ look (tileOf t 0).ls 4 = 0)) = true ∧
    yields (.coreStore 0 0) (coreAt 0x00112023) (fun t => decide ((tileOf t 0).ls = [] ∧ (tileOf t 0).faulted = [0])) = true := by decide +kernel

/-- s.pop into word buffer 0 -/
theorem test_core_pop :
    yields (.sPop 0 0) (coreAt 0x0000000B) (fun t => decide ((wbOf (look (tileOf t 0).cores 0) 0).payload = 7 ∧ look (tileOf t 0).queues 0 = [])) = true := by decide +kernel

theorem test_core_end :
    yields (.sEnd 0 0) (coreAt 0x0400700B) (fun t => (look (tileOf t 0).cores 0).ended) = true ∧
    (match siteOf (coreAt 0) 0 with | some x => (coreAt 0).tiles.all fun kv => budgetDone { coreAt 0 with tiles := [(0, { kv.2 with cores := [(0, { running := true, left := 1, ended := true })] })] } x | none => false) = true := by decide +kernel

/-- The last register and lane (R89, R90). -/
theorem test_core_registers :
    let c : CoreCtx := {}
    readX (writeX c 15 9) 15 = 9 ∧ readX (writeX c 0 9) 0 = 0 ∧ readX (writeX c 1 9) 15 = 0 ∧ c.regs.length = 15 ∧
    laneOf (setLane 0 4 9) 4 = 9 ∧ laneOf (setLane 0 4 9) 0 = 0 := by decide +kernel

/-- lw at 252, the last word of the window; at 253, misaligned; at 256, beyond it (R79). -/
theorem test_core_window :
    (match siteOf (coreAt 0x0FC02083) 0 with
      | some x => decide (x.sl.lsLen = 256 ∧ memAddr (coreOf (coreAt 0) x) 0x0FC02083 = 252 ∧ memSize 0x0FC02083 = 4 ∧
          memAddr (coreOf (coreAt 0) x) 0x0FD02083 % 4 = 1 ∧ memAddr (coreOf (coreAt 0) x) 0x10002083 + 4 = 260 ∧ bitOf x.sl.qmask 0 = true)
      | none => false) = true := by decide +kernel

/-- The part has dies 0–39 and tiles 0–255 of each (R13, R51). -/
theorem test_no_such_tile :
    (match exec (.seqFire 40 0) ready with | .fault (.noSuchTile 40 0) => true | _ => false) = true ∧
    (match exec (.coreAlu 0 256) ready with | .fault (.noSuchTile 0 256) => true | _ => false) = true ∧ siteOf ready (tileKey 39 255) = none := by decide +kernel

/-- A17.Q2 is quadrant 70 (R51). -/
theorem test_tile_address :
    quadOfTile (tileKey 17 (16 * 8 + 0)) = 70 ∧ quadOfTile (tileKey 39 255) = 159 ∧ besideTile 15 0 = none ∧ besideTile 240 3 = none := by decide +kernel

/-! ## Timetables -/

/-- Context 0 of partition 0 has a timetable in its pass. -/
def passing (r : Report) : State :=
  { opened with
    tts := [(0, { state := .running, ran := true, report := r, entryQ := some 9 })]
    ctxs := [(0, { state := .active })]
    pcs := [(0, { owner := .partition })]
    pages := [(0, { kind := .shared })] }

/-- On time, and off the report (R160, R161). -/
theorem test_tickClose :
    let s := passing { closeAc := 1 }
    mayClose s 0 1 = true ∧ mayClose s 0 2 = false ∧ mayClose ready 0 1 = false ∧ (ttOf s 0).schedCount = (ttOf s 0).report.schedTotal ∧
    yields (.tickClose 0 1) s (fun t => decide ((ttOf t 0).closed = true ∧ t.fltLog = [])) = true ∧
    yields (.tickClose 0 1) (passing { closeAc := 6 }) (fun t => t.fltLog.head?.any fun r => r.code == 15) = true := by decide +kernel

theorem test_hbmSlot :
    let d : HbmDesc := { valid := true, count := 1 }
    let s := passing { descs := [d, { d with write := true }] }
    (liveDesc s 0 0).isSome = true ∧ (liveDesc s 0 1).map (·.1.write) = some true ∧ liveDesc s 0 2 = none ∧
    inView s 0 0 (descLine d 0) = true ∧
    yields (.hbmSlotRead 0 0) s (fun t => decide ((ttOf t 0).hbmRd = 1 ∧ (ttOf t 0).schedCount = 1)) = true ∧
    yields (.hbmSlotWrite 0 1) s (fun t => (ttOf t 0).hbmWr == 1) = true := by decide +kernel

/-- A page that is not in the timetable's view (R148). -/
theorem test_hbmSlot_fault :
    let s := { passing { descs := [{ valid := true, count := 1 }] } with pages := [] }
    yields (.hbmSlotRead 0 0) s (fun t => t.fltLog.head?.any fun r => r.code == 36) = true := by decide +kernel

/-- Offsets E0 + k × II (R157); with no request the port carries FILL. -/
theorem test_entry :
    let w : TWord := { payload := 7 }
    let s := { passing { entry := { f := 1, e0 := 5, ii := 3 }, fill := [{}] } with
      queues := [(9, { kind := 5, ready := [{ words := [w] }] })] }
    mayEnter s 0 5 = true ∧ mayEnter s 0 8 = true ∧ mayEnter s 0 6 = false ∧ replaying s 0 = false ∧
    yields (.entryOffset 0 5) s (fun t => decide ((ttOf t 0).entered = 1 ∧ (queueOf t 9).ready = [])) = true ∧
    yields (.entryOffset 0 5) { s with queues := [] } (fun t => (ttOf t 0).idle == 1) = true := by decide +kernel

theorem test_requestReady :
    let s := { passing {} with queues := [(9, { kind := 5 })] }
    bindingOfQ s 9 = none ∧ ctxOfEntryQ s 9 = some 0 ∧
    bindingOfQ { s with binds := [(3, { valid := true, entryQ := 9 })] } 9 = some 3 := by decide +kernel

theorem test_exitResult :
    (ttOf (passing {}) 0).ran = true ∧ (ttOf ready 0).ran = false ∧
    yields (.exitResult 0 {} 5) (passing {}) (fun t => t.tick.off == 5) = true := by decide +kernel

/-- DLB_EN of a radio partition's context is not set. -/
theorem test_traceArm :
    yields (.ttbTraceArm .c 31 5) ready (fun t => reg t (ttbBase 31 + 0x24) == 5) = true ∧
    yields (.dlbEnWrite .c 0 1) ready (fun t => (ttOf t 0).dlbEn) = true ∧
    yields (.dlbEnWrite .c 0 1) opened (fun t => t == opened) = true ∧ bitOf (reg ready (ttbBase 31 + 0x24)) 31 = false := by decide +kernel

/-- A report of no tile, in the encoding of R434. -/
def reportBytes : List Byte :=
  [0xAA, 0x63, 0x48, 0x42, 0x4D, 0xA2, 0x68, 0x53, 0x4C, 0x4F, 0x54, 0x5F, 0x55, 0x53, 0x45, 0x80, 0x6B, 0x44, 0x45, 0x53, 0x43, 0x52, 0x49, 0x50] ++
  [0x54, 0x4F, 0x52, 0x53, 0x80, 0x64, 0x54, 0x61, 0x67, 0x73, 0xA1, 0x6C, 0x54, 0x41, 0x47, 0x5F, 0x53, 0x43, 0x48, 0x45, 0x44, 0x55, 0x4C, 0x45] ++
  [0x80, 0x65, 0x43, 0x6C, 0x6F, 0x73, 0x65, 0xA1, 0x68, 0x43, 0x4C, 0x4F, 0x53, 0x45, 0x5F, 0x41, 0x43, 0x00, 0x65, 0x50, 0x6F, 0x77, 0x65, 0x72] ++
  [0xA1, 0x68, 0x41, 0x43, 0x54, 0x49, 0x56, 0x49, 0x54, 0x59, 0x80, 0x65, 0x54, 0x72, 0x75, 0x6E, 0x6B, 0xA1, 0x6B, 0x54, 0x52, 0x55, 0x4E, 0x4B] ++
  [0x5F, 0x57, 0x4F, 0x52, 0x44, 0x53, 0xA0, 0x66, 0x46, 0x69, 0x72, 0x69, 0x6E, 0x67, 0xA3, 0x68, 0x53, 0x43, 0x48, 0x45, 0x44, 0x55, 0x4C, 0x45] ++
  [0x80, 0x69, 0x4D, 0x41, 0x58, 0x5F, 0x54, 0x52, 0x49, 0x50, 0x53, 0x80, 0x6B, 0x53, 0x43, 0x48, 0x45, 0x44, 0x5F, 0x54, 0x4F, 0x54, 0x41, 0x4C] ++
  [0x00, 0x66, 0x48, 0x65, 0x61, 0x64, 0x65, 0x72, 0xAD, 0x64, 0x4D, 0x4F, 0x44, 0x45, 0x00, 0x65, 0x43, 0x48, 0x49, 0x50, 0x53, 0x01, 0x65, 0x43] ++
  [0x4C, 0x41, 0x53, 0x53, 0x00, 0x66, 0x4D, 0x45, 0x4D, 0x42, 0x45, 0x52, 0x00, 0x66, 0x50, 0x45, 0x52, 0x49, 0x4F, 0x44, 0x01, 0x68, 0x41, 0x52] ++
  [0x49, 0x54, 0x48, 0x5F, 0x49, 0x44, 0x1A, 0x00, 0x01, 0x00, 0x00, 0x69, 0x53, 0x54, 0x41, 0x54, 0x45, 0x4C, 0x45, 0x53, 0x53, 0xF4, 0x6A, 0x4D] ++
  [0x41, 0x50, 0x5F, 0x44, 0x49, 0x47, 0x45, 0x53, 0x54, 0x58, 0x30, 0x28, 0xFB, 0x78, 0x74, 0xF0, 0x13, 0x1B, 0x5A, 0xBA, 0xA9, 0x42, 0x93, 0x0B] ++
  [0x54, 0x50, 0xBD, 0x27, 0x16, 0x3B, 0xF2, 0x2B, 0x88, 0x6C, 0x0A, 0x5E, 0xA7, 0x78, 0x3C, 0x89, 0x57, 0x37, 0xF2, 0xCE, 0x96, 0x01, 0x17, 0x00] ++
  [0xC5, 0xB8, 0xD1, 0x18, 0xA2, 0x70, 0xC3, 0x34, 0x4A, 0x3E, 0xF9, 0x6C, 0x4D, 0x4F, 0x44, 0x45, 0x4C, 0x5F, 0x44, 0x49, 0x47, 0x45, 0x53, 0x54] ++
  [0x58, 0x30, 0x00, 0x00, 0x00, 0x00, 0x00, 0x00, 0x00, 0x00, 0x00, 0x00, 0x00, 0x00, 0x00, 0x00, 0x00, 0x00, 0x00, 0x00, 0x00, 0x00, 0x00, 0x00] ++
  [0x00, 0x00, 0x00, 0x00, 0x00, 0x00, 0x00, 0x00, 0x00, 0x00, 0x00, 0x00, 0x00, 0x00, 0x00, 0x00, 0x00, 0x00, 0x00, 0x00, 0x00, 0x00, 0x00, 0x00] ++
  [0x00, 0x00, 0x6D, 0x4B, 0x52, 0x45, 0x41, 0x4C, 0x5F, 0x56, 0x45, 0x52, 0x53, 0x49, 0x4F, 0x4E, 0x00, 0x6E, 0x46, 0x4F, 0x52, 0x4D, 0x41, 0x54] ++
  [0x5F, 0x56, 0x45, 0x52, 0x53, 0x49, 0x4F, 0x4E, 0x01, 0x6F, 0x45, 0x58, 0x41, 0x43, 0x54, 0x5F, 0x52, 0x45, 0x44, 0x55, 0x43, 0x54, 0x49, 0x4F] ++
  [0x4E, 0xF4, 0x70, 0x54, 0x49, 0x4D, 0x45, 0x54, 0x41, 0x42, 0x4C, 0x45, 0x5F, 0x44, 0x49, 0x47, 0x45, 0x53, 0x54, 0x58, 0x30, 0x38, 0xB0, 0x60] ++
  [0xA7, 0x51, 0xAC, 0x96, 0x38, 0x4C, 0xD9, 0x32, 0x7E, 0xB1, 0xB1, 0xE3, 0x6A, 0x21, 0xFD, 0xB7, 0x11, 0x14, 0xBE, 0x07, 0x43, 0x4C, 0x0C, 0xC7] ++
  [0xBF, 0x63, 0xF6, 0xE1, 0xDA, 0x27, 0x4E, 0xDE, 0xBF, 0xE7, 0x6F, 0x65, 0xFB, 0xD5, 0x1A, 0xD2, 0xF1, 0x48, 0x98, 0xB9, 0x5B, 0x66, 0x51, 0x75] ++
  [0x65, 0x75, 0x65, 0x73, 0xA3, 0x64, 0x45, 0x58, 0x49, 0x54, 0xA8, 0x61, 0x44, 0x00, 0x61, 0x46, 0x00, 0x62, 0x45, 0x30, 0x00, 0x62, 0x49, 0x49] ++
  [0x01, 0x63, 0x48, 0x55, 0x42, 0x00, 0x64, 0x50, 0x4F, 0x52, 0x54, 0x00, 0x66, 0x46, 0x49, 0x45, 0x4C, 0x44, 0x53, 0x80, 0x67, 0x4F, 0x46, 0x46] ++
  [0x53, 0x45, 0x54, 0x53, 0x80, 0x64, 0x46, 0x49, 0x4C, 0x4C, 0x80, 0x65, 0x45, 0x4E, 0x54, 0x52, 0x59, 0xA7, 0x61, 0x44, 0x00, 0x61, 0x46, 0x00] ++
  [0x62, 0x45, 0x30, 0x00, 0x62, 0x49, 0x49, 0x01, 0x63, 0x48, 0x55, 0x42, 0x00, 0x64, 0x50, 0x4F, 0x52, 0x54, 0x00, 0x66, 0x46, 0x49, 0x45, 0x4C] ++
  [0x44, 0x53, 0x80, 0x66, 0x52, 0x6F, 0x75, 0x74, 0x65, 0x73, 0xA1, 0x69, 0x43, 0x52, 0x4F, 0x53, 0x53, 0x49, 0x4E, 0x47, 0x53, 0x80, 0x69, 0x4F] ++
  [0x63, 0x63, 0x75, 0x70, 0x61, 0x6E, 0x63, 0x79, 0xA2, 0x65, 0x43, 0x45, 0x4C, 0x4C, 0x53, 0x80, 0x65, 0x54, 0x49, 0x4C, 0x45, 0x53, 0x80]

/-- It reads. -/
theorem test_report :
    ((readReport reportBytes).map fun r => (r.closeAc, r.chips, r.period)) = some (0, 1, 1) := by decide +kernel

/-- A report whose digests are the part's meets the rows of LIB_INSTALL (R184). -/
theorem test_libInstall_rows :
    failedRow opened { ctx := 0, report := { period := 1, mapDigest := mapDigest opened, arithId := 65536, digest := sha384 [] }, image := [], tick := 0 }
      installRows = none ∧ freeEntry opened = some 0 := by
  constructor
  · have h : periodCode opened = 1 ∧ reg opened (bAri + 0x20) = 65536 := by decide +kernel
    simp [failedRow, installRows, rowHolds, h, row6, row7, imageItems]
  · decide +kernel

/-- In Free-run no report is admitted: row 1 (R155). -/
theorem test_ttAdmit_refused :
    posts (.ttAdmit (hdr 0x301) 2047 0 0 0 0 0 0) opened = true ∧ hostOk opened 0 0 0 = true ∧
    failedRow opened { ctx := 2047, report := {}, image := [], tick := 0 } [1, 2, 3, 4, 5, 6, 7, 8, 9, 10, 11, 12, 13] = some 1 := by decide +kernel

/-- The rows that rest on no digest, no FEC load and none of the image's queue bindings hold of a report of no tile. -/
theorem test_ttAdmit_rows :
    let s := ticking { opened with ctxs := [(0, { state := .ready })] } .locked 0
    let x : Candidate := { ctx := 0, report := { radio := true }, image := [], tick := 1 }
    failedRow s x [1, 2, 5, 6, 8, 9, 11, 12, 13] = none := by decide +kernel

theorem test_ttWithdraw :
    let s := passing {}
    posts (.ttWithdraw (hdr 0x302) 0) s = true ∧ mayWithdraw s 0 = true ∧
    yields (.ttWithdraw (hdr 0x302) 0) s (fun t => decide ((ttOf t 0).state = .withdrawing ∧ t.effects.length = 1)) = true := by decide +kernel

/-- A function without tick share (R309). -/
theorem test_ttResume :
    let s := { passing {} with tts := [(0, { state := .suspended, report := { cells := [(0, [(0, 9)])] } })] }
    let v := { s with parts := [(0, { state := .opened, func := 1 })] }
    posts (.ttResume (hdr 0x303) 0) s = true ∧ (ctxOf s 0).state ≠ .resetting ∧ resumePending s 0 = false ∧ tenantHalted v 0 = false ∧
    resumeFits s 0 = true ∧ resumeFits v 0 = false ∧ yields (.ttResume (hdr 0x303) 0) s (fun t => t.effects.length == 1) = true := by decide +kernel

theorem test_quotaForce :
    let s := { ready with vfs := [(1023, { assigned := true })] }
    posts (.quotaForce (hdr 0x304) 1023 5) s = true ∧ (vfOf s 1023).cutPending = false ∧
    yields (.quotaForce (hdr 0x304) 1023 5) s (fun t => decide ((vfOf t 1023).qTick = 5 ∧ (vfOf t 1023).cutPending = true)) = true := by decide +kernel

/-- A shadow of no slice breaks a rule (R26). -/
theorem test_planSwap :
    posts (.planSwap (hdr 0x101)) ready = true ∧ planCode ready (swapPlan ready) (nextTick ready) = 0 ∧
    (let s := withReg ready (bTck + 0x40) 0x001
     planCode s (swapPlan s) (nextTick s) ≠ 0) ∧ yields (.planSwap (hdr 0x101)) ready (fun t => t.effects.length == 1) = true := by decide +kernel

/-- A free cell, another radio partition's cell, and a boundary gone by (R28). -/
theorem test_radioReserve :
    posts (.radioReserve (hdr 0x102) 0 1 0 1) opened = true ∧ reserveCode opened 0 (tickAfter4096 opened) 1 1 = 0 ∧ late4096 opened 0 = false ∧
    late4096 opened (2 ^ 64 - 1) = false ∧
    (let o := { opened with parts := [(0, { state := .opened, radio := true }), (1, { state := .opened, radio := true })], cellA := [(0, 0x21)] }
     reserveCode o 0 (tickAfter4096 o) 1 1 = 3) ∧
    yields (.radioReserve (hdr 0x102) 0 1 0 1) opened (fun t => t.effects.length == 1) = true ∧
    late4096 { opened with tick := { opened.tick with count := 5 } } 5 = true := by decide +kernel

/-! ## Siding, library, scans -/

def tenant : State :=
  { ready with
    parts := [(0, { state := .opened, func := 1 })]
    cellA := [(0, 0x20)]
    siding := [(0, .ready)] }

theorem test_sdgFill :
    let s := { tenant with siding := [(0, .stale)] }
    posts (.sdgFill (hdr 0x401) 0 2 0 4095 1) s = true ∧ sidingBusy (sidingOf s 0 0) = false ∧ entryServes s 0 2 0 4095 1 = true ∧ tenantHalted s 0 = false ∧
    yields (.sdgFill (hdr 0x401) 0 2 0 4095 1) s (fun t => t.fills.length == 1) = true := by decide +kernel

theorem test_sdgSwap :
    posts (.sdgSwap (hdr 0x402) 0 1 0 0 1) tenant = true ∧ groupReadyAt tenant 0 1 = some 0 ∧ entriesAdmissible tenant 0 1 1 = true ∧
    yields (.sdgSwap (hdr 0x402) 0 1 0 0 1) tenant (fun t => decide (sidingOf t 0 0 = .armed)) = true := by decide +kernel

theorem test_shunt :
    let r := { tenant with sdg := [(0, { shuntOn := true })] }
    posts (.shuntStart (hdr 0x403) 0 0 1) tenant = true ∧ posts (.shuntStop (hdr 0x404) 0) r = true ∧ (0 : BitVec 16).getLsbD 0 = false ∧ (look tenant.sdg 0).shuntOn = false ∧
    shuntOk tenant 0 0 1 = true ∧ (setBitsOf 160 1).all (shuntable tenant 0) = true ∧
    yields (.shuntStart (hdr 0x403) 0 0 1) tenant (fun t => t.effects.length == 1) = true ∧
    yields (.shuntStop (hdr 0x404) 0) r (fun t => t.effects.length == 1) = true := by decide +kernel

/-- Nine frames of the host pool hold a bundle. -/
def scannable : State :=
  { tenant with
    siding := [(0, .stale)]
    sdg := [(0, { dumpable := [0] })]
    pcs := [(0, { owner := .hostPool })]
    pages := (List.range 9).map fun i => (i, { kind := .function, frame := some i }) }

theorem test_scanOut :
    let s := scannable
    posts (.scanOut (hdr 0x409) 0 0 0) s = true ∧ posts (.scanDump (hdr 0x40A) 0 0 0) s = true ∧ hostOk s 0 0 (bundleLength (scanLength s 0)) = true ∧ scanAllowed s 0 0 = true ∧
    sidingBusy (sidingOf s 0 0) = false ∧ 0 ∈ (look s.sdg 0).dumpable ∧
    yields (.scanOut (hdr 0x409) 0 0 0) s (fun t => decide (sidingOf t 0 0 = .scanning)) = true ∧
    yields (.scanDump (hdr 0x40A) 0 0 0) s (fun t => t.scans.length == 1) = true := by decide +kernel

/-- A header without format 1 does not verify (R186). -/
theorem test_scanIn :
    let s := scannable
    posts (.scanIn (hdr 0x40B) 0 0 0 128) s = true ∧ hostOk s 0 0 128 = true ∧ checkBundle s 0 0 (List.replicate 128 0) = .badTag ∧
    yields (.scanIn (hdr 0x40B) 0 0 0 128) s (fun t => decide (sidingOf t 0 0 = .stale ∧ t.scans = [])) = true := by decide +kernel

theorem test_libDone :
    let s := { ready with lib := [(4095, { writing := true })] }
    (look s.lib 4095).writing = true ∧ yields (.libInstallDone 4095) s (fun t => decide ((look t.lib 4095).used = true ∧ (look t.lib 4095).writing = false)) = true := by decide +kernel

theorem test_libRemove :
    let s := { ready with lib := [(4095, { used := true })] }
    let b := { s with fills := [{ source := 0, entry := 4095 }] }
    posts (.libRemove (hdr 0x406) 4095) s = true ∧ entryInUse s 4095 = false ∧ entryInUse b 4095 = true ∧
    yields (.libRemove (hdr 0x406) 4095) s (fun t => t.lib == []) = true := by decide +kernel

theorem test_libtile :
    posts (.libtileAssign (hdr 0x407) 0 0 0xFFF) tenant = true ∧ posts (.libtileRelease (hdr 0x408) 0 1) tenant = true ∧ ownsAll (planNow tenant) 0 0 = true ∧ (0xFFF : BitVec 16).toNat < 2 ^ 12 ∧
    (setBitsOf 12 0xFFF).all (fun i => tileFree tenant ((memTiles 0).getD i 0)) = true ∧
    yields (.libtileAssign (hdr 0x407) 0 0 0xFFF) tenant (fun t => (look t.libTiles 0).tiles == 0xFFF) = true ∧
    yields (.libtileRelease (hdr 0x408) 0 1) { tenant with libTiles := [(0, { tiles := 3 })] } (fun t => (look t.libTiles 0).tiles == 2) = true := by decide +kernel

theorem test_fill :
    let f : Fill := { part := 0, quad := 0, source := 2 }
    let s := { tenant with siding := [(0, .stale)], fills := [f] }
    findFill s 0 0 false = some f ∧ fillMayStart s f = true ∧ findFill s 0 0 true = none ∧
    yields (.fillStart 0 0 5) s (fun t => decide (sidingOf t 0 0 = .filling)) = true ∧
    yields (.fillComplete 0 0) { s with fills := [{ f with running := true }] } (fun t => t.fills == []) = true := by decide +kernel

theorem test_scanComplete :
    let x : Scan := { part := 0, quad := 0, isIn := true }
    let s := { tenant with scans := [x] }
    s.scans.find? (fun x => decide (x.part = 0 ∧ x.quad = 0)) = some x ∧
    tenant.scans.find? (fun x => decide (x.part = 0 ∧ x.quad = 0)) = none := by decide +kernel

/-! ## Boundaries, jobs, resets -/

/-- A tick of one slice; the draw saturates (R64). -/
theorem test_boundary_last :
    let s := ticking { ready with tick := { ready.tick with slice := 0, count := 5 } } .locked 0
    (activeStarts s).length = 1 ∧ yields (.tickBoundary [(0, 70000)]) s (fun t => decide (t.tick.count = 6 ∧ reg t (bDie + 0xA00) = 65535)) = true ∧
    s.tick.state ≠ .stepping ∧ (activeStarts (withReg ready (bTck + 0x80) 1)).length = 1 := by decide +kernel

/-- A step ends at its aligned time, without a master in Free-run (R24), and shortens no tick (R23). -/
theorem test_boundary_stepEnd :
    let s := ticking ready .stepping 0
    let p := periodNs (periodCode s)
    aligned s (7 * p) = true ∧ aligned s (7 * p + 1) = false ∧ notShort s (7 * p) = true ∧ notShort s (p - 1) = false ∧
    yields (.stepEnd ⟨7 * p, []⟩) s (fun t => decide (t.tick.state = .freeRun ∧ t.tick.count = 1)) = true := by decide +kernel

/-- Quadrant 0 changes hands in the slice it is in. -/
def changing : State := { ready with changing := [0], tiles := [(0, {})] }

/-- 256 ac after the slice begins (R177). -/
theorem test_changeoverEnd :
    (0 : Nat) = changing.tick.slice ∧ changing.changing ≠ [] ∧
    yields (.changeoverEnd 0) changing (fun t => decide (t.changing = [] ∧ t.tick.off = 256)) = true := by decide +kernel

/-- Each clause's premise (R18, R116, R389). -/
theorem test_boundaryBegins :
    let s := passing {}
    ttOf (beginPasses s) 0 = freshPass (ttOf s 0) ∧ (ttOf s 0).state = .running ∧ (part s (partOfCtx 0)).state = .opened ∧
    ttOf (beginPasses ready) 0 = ttOf ready 0 ∧ look? s.ctxs 0 ≠ none ∧ (ctxOf (beginPasses s) 0).ticks = 1 ∧
    (let b := { s with level := .beacon }
     coresRun b = true ∧ (ttOf (levelStops b) 0).state = .suspended ∧ (ttOf (levelStops { b with tts := [(0, { state := .withdrawing })] }) 0).state = .withdrawing) ∧
    (countTick ready 63).tick.count = 1 ∧ (countTick ready 63).tick.boundaryNs = 63 ∧ (tickEnded (ticking ready .holdover 0) 5).tick.holdNs = 5 ∧
    reg (powerReading ready 63 65536) (bDie + 0xA00 + 252) = 65535 := by decide +kernel

/-- Context 0 leads a job of two chips that waits for its READYs. -/
def waiting : State :=
  { passing {} with
    tts := [(0, { state := .running, report := { chips := 2, jobId := 9 }, job := { state := .waiting } })] }
def braked : State :=
  { waiting with tts := [(0, { state := .running, report := { chips := 2, jobId := 9 }, job := { state := .braked } })] }

/-- A READY that agrees, one that names three chips, and one of no job (R361). -/
theorem test_readyReceived :
    let r := (ownReady waiting (ttOf waiting 0)).2
    ctxOfJob waiting 9 = some 0 ∧ ctxOfJob ready 9 = none ∧ (ttOf waiting 0).report.member = 0 ∧
    (let a := setJob waiting 0 fun j => addReady j (1, r)
     readyMatch a (ttOf a 0) = true) ∧
    yields (.readyReceived 9 1 3 0 0 0) waiting (fun t => decide ((ttOf t 0).job.cause = 5)) = true ∧
    yields (.readyReceived 9 1 0 0 0 0) ready (fun t => t.earlyReady.length == 1) = true ∧ (ttOf braked 0).job.state ≠ .waiting := by decide +kernel

/-- The next boundary, which the time to it still allows, and a time that is none (R362). -/
theorem test_goReceived :
    tickAtNs waiting 0 = none ∧ (tickAtNs waiting (periodNs (periodCode waiting))) = some (nextTick waiting) ∧ 5 + 256 ≤ tickLen waiting ∧
    yields (.goReceived 9 (periodNs (periodCode waiting)) 5) waiting (fun t => decide ((ttOf t 0).job.startNs = some (periodNs (periodCode waiting)))) = true ∧
    yields (.goReceived 9 1 5) waiting (fun t => decide ((ttOf t 0).job.cause = 5)) = true := by decide +kernel

/-- A first brake and a later one (R363). -/
theorem test_brakeReceived :
    (ttOf braked 0).job.state = .braked ∧ (ttOf waiting 0).job.state ≠ .braked ∧
    yields (.brakeReceived 0 9 4 6 1 5) waiting (fun t => decide ((ttOf t 0).job.cause = 6) && t.fltLog.head?.any fun r => r.code == 45) = true ∧
    yields (.brakeReceived 0 9 4 6 1 5) braked (fun t => decide (t.fltLog = [])) = true := by decide +kernel

theorem test_barrierTimeout :
    (ttOf waiting 0).job.startNs = none ∧ allReady (ttOf waiting 0) = false ∧
    yields (.barrierTimeout 0) waiting (fun t => decide ((ttOf t 0).job.cause = 5)) = true ∧
    allReady { ttOf waiting 0 with job := { state := .waiting, ready := [(0, 0, 0, 0, 0), (1, 0, 0, 0, 0)] } } = true := by decide +kernel

theorem test_ctxReset :
    let s := passing {}
    posts (.ctxReset (hdr 0xA01) 0) s = true ∧ (ctxOf (taken s (hdr 0)) 0).state = .active ∧ (ctxOf (taken ready (hdr 0)) 0).state ≠ .active ∧
    yields (.ctxReset (hdr 0xA01) 0) s (fun t => decide ((ctxOf t 0).state = .resetting)) = true := by decide +kernel

theorem test_partReset :
    posts (.partReset (hdr 0xA02) 0) opened = true ∧ (part opened 0).state = .opened ∧
    yields (.partReset (hdr 0xA02) 0) opened (fun t => decide ((part t 0).state = .resetting)) = true := by decide +kernel

/-- Also while a device reset runs (R408). -/
theorem test_partIsolate :
    posts (.partIsolate (hdr 0x204) 0) opened = true ∧ (taken opened (hdr 0)).life.resetting = false ∧
    yields (.partIsolate (hdr 0x204) 0) opened (fun t => decide ((part t 0).state = .isolated)) = true ∧
    (let r := { opened with life := { opened.life with resetting := true } }
     posts (.partIsolate (hdr 0x204) 0) r = true ∧ posts (.levelDrop (hdr 0xA04) 1) r = true) := by decide +kernel

theorem test_deviceReset :
    posts (.deviceReset (hdr 0xA03)) opened = true ∧ opened.life.resetting = false ∧
    yields (.deviceReset (hdr 0xA03)) opened (fun t => decide (t.life.resetting = true ∧ t.tick.count = 0)) = true := by decide +kernel

theorem test_levelDrop :
    let r := { ready with level := .radioOnly }
    posts (.levelDrop (hdr 0xA04) 1) ready = true ∧ levelCode ready.level < 1 ∧ 1 ≤ levelCode r.level ∧ posts (.levelDrop (hdr 0xA04) 1) r = true ∧
    yields (.levelDrop (hdr 0xA04) 1) ready (fun t => decide (t.level = .radioOnly)) = true ∧
    yields (.levelDrop (hdr 0xA04) 2) ready (fun t => decide (t.level = .beacon)) = true ∧
    yields (.levelDrop (hdr 0xA04) 0) r (fun t => t.effects.length == 1) = true := by decide +kernel

theorem test_resetStages :
    let s := { passing {} with ctxs := [(0, { state := .resetting, stage := 2 })] }
    let p := { opened with parts := [(0, { state := .resetting, stage := 2 })] }
    let q := { opened with parts := [(0, { state := .resetting, stage := 4 })] }
    (ctxOf s 0).state = .resetting ∧ (ctxOf s 0).stage = 2 ∧ (ctxOf ready 0).state ≠ .resetting ∧ (part ready 0).state ≠ .resetting ∧
    yields (.ctxResetDone 0) s (fun t => decide ((ctxOf t 0).state ≠ .resetting)) = true ∧
    yields (.partResetCollectEnd 0) p (fun t => decide ((part t 0).stage ≠ 2)) = true ∧
    yields (.partResetDone 0) q (fun t => decide ((part t 0).state = .opened)) = true ∧
    yields (.resetOvertime 0) q (fun t => decide ((part t 0).state = .outOfService) && t.fltLog.head?.any fun r => r.code == 59) = true := by decide +kernel

theorem test_functions :
    let s := { ready with life := { ready.life with vfEnable := true, numVfs := 1023 } }
    s.life.vfEnable = true ∧ ready.life.vfEnable = false ∧ yields (.functionLevelReset 1023) s (fun _ => true) = true ∧
    yields (.vfEnableSet 1023) ready (fun t => decide (t.life.numVfs = 1023)) = true := by decide +kernel

/-- With AUTO_DEV the device resets (R368). -/
theorem test_watchdogs :
    coresRun ready = true ∧ yields .heartbeatWatchdog ready (fun t => t.fltLog.head?.any fun r => r.code == 56) = true ∧
    yields .mgmtWatchdog ready (fun t => decide (t.level = .beacon ∧ t.life.resetting = bitOf (reg ready bFlt) 16)) = true ∧
    yields .scWatchdog (withReg ready bFlt (2 ^ 16)) (fun t => t.life.resetting) = true ∧
    yields (.escalationWindowExpiry 2 31) (withReg ready (bFlt + 0x54) 2) (fun t => decide (reg t (bFlt + 0x54) = 1)) = true := by decide +kernel

theorem test_hostTimeout :
    let s := pooled ready
    hostOk s 0 0 64 = true ∧ hostOk s 0 (2 ^ 30) 64 = false ∧
    yields (.hostTimeout 0 0 64) s (fun t => decide (s.fresh + 64 ≤ t.fresh) && t.fltLog.head?.any fun r => r.code == 49) = true := by decide +kernel

theorem test_quarantineReplay :
    let q : Quarantine := { active := true, stopped := true, collected := true, suspects := [0, 1] }
    let s := { opened with quarantines := [(0, q)] }
    quarantineDue s = some (0, q) ∧ quarantineDue ready = none ∧
    yields .quarantineReplay s (fun t => !(look t.quarantines 0).armed && decide ((ctxOf t 0).state ≠ .active)) = true := by decide +kernel

/-- A lower count is taken, a shorter window and one out of range are not (R398). -/
theorem test_escalation :
    let s := withReg ready (bFlt + 0x40) (3 + 16 * 600)
    hasAccess .c = true ∧ reg ready (bFlt + 0x40) = 3 + 16 * 60 ∧
    yields (.fltEscWrite .c 0 (2 + 16 * 600)) s (fun t => decide (reg t (bFlt + 0x40) = 2 + 16 * 600)) = true ∧
    yields (.fltEscWrite .c 0 (3 + 16 * 599)) s (fun t => decide (reg t (bFlt + 0x40) = 3 + 16 * 600)) = true ∧
    yields (.fltEscWrite .c 2 (1 + 16 * 14400)) s (fun t => decide (reg t (bFlt + 0x48) = 1 + 16 * 14400)) = true ∧
    yields (.fltEscWrite .c 2 (1 + 16 * 14401)) s (fun t => decide (reg t (bFlt + 0x48) = 2 + 16 * 3600)) = true := by decide +kernel

/-- The next slice opens, another does not (R26). -/
theorem test_sliceBoundary :
    let s := withReg (withReg ready (bTck + 0x40) 2) (bTck + 0x104) 600000
    s.tick.slice + 1 < (activeStarts s).length ∧
    yields (.sliceBoundary 1) s (fun t => decide (t.tick.slice = 1 ∧ t.tick.off = 600000)) = true ∧
    yields (.sliceBoundary 2) s (fun t => t == s) = true := by decide +kernel

/-! ## Power, boot, maintenance -/

/-- A part at a stage of its life. -/
def at_ (st : Stage) : State := { State.reset with life := { State.reset.life with stage := st, pwrOk := true } }
def rails : State := { at_ .rails with life := { (at_ .rails).life with enables := [true, false, false, false] } }

/-- Core, PHY, HBM and IO in turn (R400). -/
theorem test_rails :
    railAwaited rails.life 0 = true ∧ railAwaited rails.life 1 = false ∧ State.reset.life.pwrOk = false ∧
    railAwaited { rails.life with enables := [true, true, true, true] } 3 = true ∧
    yields .powerOn State.reset (fun t => decide (t.life.enables = [true, false, false, false])) = true ∧
    yields (.railPowerGood 0) rails (fun t => decide (t.life.enables = [true, true, false, false])) = true ∧
    yields (.railPgTimeout 0) rails (fun t => decide (t.life.fail = 1)) = true := by decide +kernel

/-- Down in reverse order (R399). -/
theorem test_powerOff :
    let s := { ready with life := { ready.life with enables := [true, true, false, false], goods := [true, true, false, false], poweringOff := true } }
    ready.life.poweringOff = false ∧ yields .powerOff ready (fun t => t.life.poweringOff) = true ∧
    (let t := { s with life := { s.life with enables := [true, false, false, false] } }
     yields (.powerGoodDeassert 1) t (fun t => decide (t.life.enables = [false, false, false, false])) = true) ∧
    yields .pwrOkFall ready (fun t => decide (t.life.pwrOk = false)) = true := by decide +kernel

/-- Stage by stage (R402, R403). -/
theorem test_boot :
    (at_ .scRom).life.resetHolding = false ∧
    yields .bootScRom (at_ .scRom) (fun t => decide (t.life.stage = .scFw)) = true ∧
    yields .bootScFw (at_ .scFw) (fun t => decide (t.life.stage = .mgmt)) = true ∧
    yields .bootMgmt (at_ .mgmt) (fun t => decide (t.life.stage = .train)) = true ∧
    yields (.bootTrain true) (at_ .train) (fun t => decide (t.life.stage = .restore)) = true ∧
    yields (.bootTrain false) (at_ .train) (fun t => decide (t.life.stage = .failed ∧ t.life.fail = 5)) = true ∧
    yields (.bootRestore false) (at_ .restore) (fun t => decide (t.life.fail = 6)) = true ∧
    yields (.bootRestore true) (at_ .restore) (fun t => decide (t.life.stage = .done)) = true ∧
    yields (.bootDone 70000) (at_ .done) (fun t => decide (t.life.alive = true ∧ t.life.bootMs = 65535)) = true := by decide +kernel

/-- R407, R409. -/
theorem test_resetPin :
    let m := { ready with life := { ready.life with mask := true } }
    let h := { ready with life := { ready.life with resetHolding := true } }
    pinWatched ready = true ∧ ready.life.mask = false ∧
    yields .resetNAssert ready (fun t => decide (t.life.resetting = true ∧ t.life.resetHolding = true)) = true ∧
    yields .resetNAssert m (fun t => decide (t.life.resetting = false)) = true ∧
    yields .resetNHeld h (fun t => t.life.held) = true ∧ yields .resetNRelease h (fun t => decide (t.life.resetHolding = false)) = true ∧
    scRuns ready = true ∧ noneOpen ready = true ∧ noneOpen opened = false ∧
    yields (.stationManagerEnrolment 7) ready (fun t => decide (t.store.stationMac = 7)) = true := by decide +kernel

/-- Pseudo-channel 0 retrains. -/
def act (code scope : Nat) (s : State) : State := startAct s (freeAct s) code scope false

theorem test_hbmRetrain :
    posts (.hbmRetrain (hdr 0xB01) 0) ready = true ∧ allocatable 0 = true ∧ allocatable 31 = false ∧ conflictAct (taken ready (hdr 0)) 1 0 0 = none ∧
    0 / 32 ∉ ready.spareBad ∧ (let b := act 1 0 ready
     posts (.hbmRetrain (hdr 0xB01) 0) b = true ∧ (conflictAct (taken b (hdr 0)) 1 0 0).isSome = true) ∧
    yields (.hbmRetrain (hdr 0xB01) 0) ready (fun t => decide ((pcOf t 0).copy = some 0) && (findAct t 1 0).isSome) = true := by decide +kernel

/-- Whether given bytes are an accepted image is the configuration's signature check; both outcomes exist. -/
theorem test_updates :
    posts (.smUpdate (hdr 0xB02) 0 4096) (pooled ready) = true ∧ posts (.scUpdate (hdr 0xB03) 0 4096) (pooled ready) = true ∧ conflictAct (taken ready (hdr 0)) 4 0 0 = none ∧
    conflictAct (taken ready (hdr 0)) 8 0 0 = none ∧ hostOk (pooled ready) 0 0 4096 = true ∧
    imageAccepted ready.life 1 {} = true ∧ imageAccepted ready.life 1 { signed := false } = false := by decide +kernel

theorem test_maintenance :
    posts (.serdesRecal (hdr 0xB04) 55) ready = true ∧ posts (.dieRetire (hdr 0xB05) 39) ready = true ∧ posts (.admitRebuild (hdr 0xB06)) ready = true ∧
    conflictAct (taken ready (hdr 0)) 5 55 0 = none ∧ conflictAct (taken ready (hdr 0)) 6 39 0 = none ∧ conflictAct (taken ready (hdr 0)) 7 0 0 = none ∧
    dieUsed (taken ready (hdr 0)) 39 = false ∧ dieUsed (passing { chips := 1, tiles := [{ die := 39, tile := 0 }] }) 39 = true ∧
    yields (.serdesRecal (hdr 0xB04) 55) ready (fun t => (findAct t 5 55).isSome) = true ∧
    yields (.dieRetire (hdr 0xB05) 39) ready (fun t => bitOf t.store.retired.toNat 39 || bitOf t.retired.toNat 39) = true ∧
    yields (.admitRebuild (hdr 0xB06)) ready (fun t => t.acts.length == 1) = true := by decide +kernel

theorem test_resetPinMask :
    let s := { ready with life := { ready.life with permit := true, auth := 5 } }
    posts (.resetPinMask { hdr 0xD01 with src := .station 5 } 1) s = true ∧ mayMask s (.station 5) = true ∧ mayMask s (.station 6) = false ∧
    yields (.resetPinMask { hdr 0xD01 with src := .station 5 } 1) s (fun t => t.life.mask) = true ∧
    yields (.resetPinMask { hdr 0xD01 with src := .station 6 } 1) s (fun t => decide (t.life.mask = false)) = true := by decide +kernel

theorem test_hbmRetrainEnds :
    let s := { act 1 0 ready with pcs := [(0, { copy := some 0 })] }
    (pcOf s 0).copy = some 0 ∧ (pcOf ready 0).copy = none ∧ retrainWaits (act 1 0 ready) 0 = true ∧ retrainWaits ready 0 = false ∧
    yields (.hbmCopyDone 0) s (fun t => (pcOf t 0).switching) = true ∧
    yields (.hbmRetrainDone 0 true) (act 1 0 ready) (fun t => (findAct t 1 0).isNone) = true ∧
    yields (.hbmRetrainDone 0 false) (act 1 0 ready) (fun t => decide (look t.retiredPcs 0 = 1)) = true := by decide +kernel

theorem test_updatesEnd :
    let u : Update := { active := true, image := { version := 3 }, act := 0 }
    let s := { ready with life := { ready.life with updating := true, smUpdate := u } }
    let d := { s with life := { s.life with smUpdate := { u with handedOver := true } } }
    let c := { ready with life := { ready.life with scPaused := true, scUpdate := u } }
    yields .smMirrorDone s (fun t => t.life.smUpdate.mirrored) = true ∧ yields .smUpdateDone s (fun t => t == s) = true ∧
    yields .smUpdateDone d (fun t => decide (t.life.updating = false)) = true ∧
    yields .scUpdateDone c (fun t => decide (t.life.scPaused = false ∧ t.life.versions.getD 0 0 = 3)) = true ∧
    yields (.serdesRecalDone 55 true) (act 5 55 ready) (fun t => decide ((look t.acts 0).outcome = 2)) = true := by decide +kernel

/-- The thresholds of R426 in 1/16 °C. -/
theorem test_thermal :
    alarmAt 0 = 16 * 100 ∧ hotAt 0 = 16 * 108 ∧ alarmAt 71 = 16 * 85 ∧ hotAt 71 = 16 * 90 ∧
    yields (.thermalAlarm 0 1600) ready (fun t => decide (reg t bTherm % 16 = 1)) = true ∧
    yields (.thermalAlarm 0 1599) ready (fun t => t == ready) = true ∧
    yields (.thermalHot 71 (hotAt 71)) ready (fun t => decide (t.level = .beacon)) = true ∧
    yields (.thermalTrip 71 (tripAt 71)) ready (fun t => t.life.poweringOff) = true ∧
    yields (.thermalAlarmClear []) (withReg ready bTherm 3) (fun t => decide (reg t bTherm % 4 = 0)) = true := by decide +kernel

/-! ## Trunk -/

/-- Trunk port 39 in a state. -/
def trunked (x : TrunkPort) : State := { ready with fabricId := 5, trunk := [(39, x)] }
/-- The generator of P-384, the point of order n (FIPS 186). -/
def basePoint : Nat × Nat :=
  (0xAA87CA22BE8B05378EB1C71EF320AD746E1D3B628BA79B9859F741E082542A385502F25DBF55296C3A545E3872760AB7,
   0x3617DE4A96262C6F5D9E98BF9292DC29F8F41DBD289A147CE9DA3113B5F0B8C00A60B1CE1D7E819D7A431D7C90EA0E5F)

/-- R349. -/
theorem test_trunkTraining :
    let s := trunked { state := .training }
    yields (.trunkTrainingDone 39 0) s (fun t => decide ((portAt t 39).state = .identify)) = true ∧
    yields (.trunkTrainingDone 39 1) s (fun t => decide ((portAt t 39).state = .failed ∧ (portAt t 39).cause = 1)) = true ∧
    yields (.trunkTrainingDone 39 0) { s with fabricId := 250000 } (fun t => decide ((portAt t 39).state = .noId)) = true := by decide +kernel

/-- Its own identity and a reserved one (R349). -/
theorem test_trunkIdentify :
    let s := trunked { state := .identify }
    let lat := portLat s 39
    yields (.trunkIdentify 39 6 0 lat) s (fun t => decide ((portAt t 39).state = .agree ∧ (portAt t 39).peerId = 6)) = true ∧
    yields (.trunkIdentify 39 6 0 (lat + 1)) s (fun t => decide ((portAt t 39).cause = 5)) = true ∧
    yields (.trunkIdentify 39 5 0 lat) s (fun t => decide ((portAt t 39).cause = 6)) = true ∧
    yields (.trunkIdentify 39 250000 0 lat) s (fun t => decide ((portAt t 39).cause = 6)) = true := by decide +kernel

theorem test_trunkAgree :
    let s := trunked { state := .agree, peerId := 6 }
    onCurve basePoint.1 basePoint.2 = true ∧ onCurve 1 1 = false ∧
    yields (.trunkAgree 39 basePoint true) s (fun t => decide ((portAt t 39).state = .measure ∧ s.fresh < t.fresh)) = true ∧
    yields (.trunkAgree 39 (1, 1) true) s (fun t => decide ((portAt t 39).cause = 7)) = true ∧
    yields (.trunkAgree 39 basePoint false) s (fun t => decide ((portAt t 39).cause = 3)) = true := by decide +kernel

/-- LAT_FIX − 8 comes up with 64 credits; one more fails (R349). -/
theorem test_trunkMeasure :
    let s := trunked { state := .measure }
    let lat := portLat s 39
    followEn s = false ∧ yields (.trunkMeasure 39 (2 * (lat - 8))) s (fun t => decide ((portAt t 39).state = .up ∧ look (portAt t 39).credits 5 = 64)) = true ∧
    yields (.trunkMeasure 39 (2 * (lat - 8) + 1)) s (fun t => decide ((portAt t 39).cause = 4)) = true := by decide +kernel

theorem test_trunkEvents :
    let s := withReg (trunked { state := .failed }) (portWindow 39) (reg ready (portWindow 39) ||| 1)
    portEn s 39 = true ∧ yields (.trunkRetry 39) s (fun t => decide ((portAt t 39).state = .training)) = true ∧
    yields (.trunkLinkDown 39 2) (trunked { state := .up }) (fun t => decide ((portAt t 39).state = .failed)) = true ∧
    yields (.keyRatchet 39 true) (trunked { state := .up, rxCount := 2 ^ 31 }) (fun t => (portAt t 39).rxGen) = true ∧
    yields (.keyRatchet 39 false) (trunked { state := .up, txCount := 2 ^ 31 }) (fun t => (portAt t 39).txGen) = true ∧
    yields .routeDrainEnd { ready with drain := 1 } (fun t => t.drain == 0) = true := by decide +kernel

/-- LAT_FIX is 256 to 8,191 (R366). -/
theorem test_trunkRegisters :
    hasAccess .c = true ∧
    yields (.trkPortSkewRead .c 39) (trunked { skewMax := 7 }) (fun t => (portAt t 39).skewMax == 0) = true ∧
    yields (.trkPortCtrlWrite .c 39 (BitVec.ofNat 32 (reg ready (portWindow 39)))) ready (fun t => t == ready) = true ∧
    yields (.trkPortCtrlWrite .c 39 (1 + 256 * 2 ^ 16)) ready (fun t => decide (portLat t 39 = 256)) = true ∧
    yields (.trkPortCtrlWrite .c 39 (1 + 255 * 2 ^ 16)) ready (fun t => decide (portLat t 39 = portLat ready 39)) = true := by decide +kernel

/-- 250,000 and above are reserved (R348). -/
theorem test_trunkCommands :
    posts (.fabricIdSet (hdr 0xC01) 249999) ready = true ∧ posts (.routeSwap (hdr 0xC02)) ready = true ∧ (taken ready (hdr 0)).drain = 0 ∧ routePending (taken ready (hdr 0)) = false ∧
    ctxsWhere (taken ready (hdr 0)) (fun t => decide (1 < t.report.chips)) = [] ∧
    (let u := taken { ready with fabricId := 5 } (hdr 0)
     shadowValid u (bTrk + 0x20000) = false ∧ shadowValid u (bTrk + 0x30100 + 20) = false) ∧
    yields (.fabricIdSet (hdr 0xC01) 249999) ready (fun t => t.fabricId == 249999) = true ∧
    yields (.fabricIdSet (hdr 0xC01) 250000) ready (fun t => t.fabricId == ready.fabricId) = true := by decide +kernel

/-- An idle cell, and a cell of a message for one credit (R354, R356). -/
theorem test_cellSend :
    let s := trunked { state := .up }
    let m := trunked { state := .up, credits := [(2, 64)], out := [{ vc := 2 }] }
    0 < slotsInTick s ∧ standingWords s 39 0 = [] ∧ nextVc (portAt s 39) = none ∧ slotUser s 39 0 = none ∧
    nextVc (portAt m 39) = some 2 ∧ (headOf (portAt m 39) 2).isSome = true ∧
    yields (.trunkCellSend 39 0) s (fun t => t.wire.length == 1) = true ∧
    yields (.trunkCellSend 39 0) m (fun t => decide (look (portAt t 39).credits 2 = 63)) = true := by decide +kernel

/-- A slot a timetable uses (R351). -/
theorem test_cellSend_words :
    let s := { passing { trunkWords := [{ port := 39, slot := 4, word := 0 }] } with
      trunk := [(39, { state := .up })] }
    slotUser s 39 4 = some 0 ∧ (listedWords s 0 39 4) = [0] := by decide +kernel

/-- A cell altered on the way does not open (R348, R350). -/
theorem test_cellReceive :
    let s := trunked { state := .up, rxKey := List.replicate 32 0 }
    (portAt s 39).state = .up ∧ openCell (List.replicate 32 0) 0 0 = none := by decide +kernel

/-- Its cells return as credits (R356). -/
theorem test_messageForward :
    let s := trunked { state := .up, inbox := [{ vc := 2 }] }
    yields (.messageForward 39) s (fun t => decide ((portAt t 39).inbox = [] ∧ 0 < look (portAt t 39).toReturn 2)) = true ∧
    yields (.messageForward 39) ready (fun t => t == ready) = true := by decide +kernel

/-! ## Frames -/

/-- Ethernet port 0 is up on subport 0, with a transmit ring 3 of the PF bound to it in the radio class. -/
def linked : State :=
  let s := { ready with queues := [(3, { kind := 2, enabled := true })] }
  let s := withReg s bMac (reg s bMac ||| 1)
  let s := withReg s (bMac + 4) (reg s (bMac + 4) ||| 1)
  withReg s (bEgs + 0x10000 + 24) (2 ^ 15 + 2 ^ 7)

theorem test_txFrame :
    ringBound linked 3 = true ∧ (queueOf linked 3).kind = 2 ∧ ringBound ready 3 = false ∧ linkUp linked 0 0 = true ∧
    radioRingOf linked (subKey 0 0) = some 3 ∧ frameOver linked 0 0 0 = true ∧
    frameOver { linked with egress := [(0, { current := some { bytes := List.replicate 64 0 } })] } 0 0 0 = false ∧
    yields (.egressChoice 0 0 5) linked (fun t => t.tick.off == 5) = true := by decide +kernel

/-- One entry of ring 3 with EOP, of a postmark, in the host pool. -/
def sent (postmark : Nat) : State :=
  let s := { linked with
    pcs := [(0, { owner := .hostPool })]
    pages := [(0, { kind := .function, frame := some 0 })]
    queues := [(3, { kind := 2, enabled := true, log2 := 6, prod := 1 })] }
  hostWrite s 0 none 0 (leBytes 8 4096 ++ leBytes 4 64 ++ leBytes 4 1 ++ leBytes 8 0 ++ leBytes 2 postmark ++ leBytes 6 0)

/-- A fresh send, and one of an earlier postmark (R232). -/
theorem test_txFrame_send :
    let es := fun s => sendEntries s (queueOf s 3) (takeIndex (queueOf s 3)) (occupancy (queueOf s 3) - (queueOf s 3).inFlight)
    (es (sent 0)).length = 1 ∧ hasEop (es (sent 0)) = true ∧ staleSend (sent 0) 0 (es (sent 0)) = false ∧
    staleSend (sent 1) 0 (es (sent 1)) = true ∧ malformed (sent 0) 0 (es (sent 0)) (List.replicate 64 0) = false ∧
    (readSend (sent 0) 0 (es (sent 0))).2.isSome = true ∧
    yields (.txFrame 3) (sent 0) (fun t => decide ((queueOf t 3).inFlight = 1)) = true ∧
    yields (.txFrame 3) (sent 1) (fun t => decide ((queueOf t 3).inFlight = 0)) = true := by decide +kernel

/-- At and above the weight of the function (R246). -/
theorem test_egsRing :
    let w := 2 ^ 15 + 2 ^ 8 + 5 * 2 ^ 16
    let s := { ready with queues := [(3, { kind := 2, func := 1 })], vfs := [(1, { assigned := true, qWeight := 5 })] }
    egsWordOk (queueOf s 3) w = true ∧ egsWordOk (queueOf s 3) (w - 2 ^ 8) = false ∧ egsWordOk (queueOf s 4) w = false ∧
    weightWith s 1 3 w ≤ (vfOf s 1).qWeight.toNat ∧ (vfOf s 1).qWeight.toNat < weightWith s 1 3 (w + 2 ^ 16) ∧
    yields (.egsRingWrite .c 3 (BitVec.ofNat 64 w)) s (fun t => decide (egsWord t 3 = w)) = true ∧
    yields (.egsRingWrite .c 3 (BitVec.ofNat 64 (w + 2 ^ 16))) s (fun t => decide (egsWord t 3 = 0 ∧ reg t (bEgs + 0x40) = 1)) = true := by decide +kernel

theorem test_macPorts :
    0 < subportsOf linked 0 ∧ portPowered linked 0 = true ∧ bitOf (reg linked (bMac + 4)) 0 = true ∧ bitOf (reg ready (bMac + 4)) 0 = false ∧
    splitTaken ready 3 = true ∧ splitTaken (withReg linked bTck 0) 0 = false ∧
    yields (.macLinkChange 0 0 false) linked (fun t => decide (linkUp t 0 0 = false)) = true := by decide +kernel

/-- The staging memory of a port is 1 MiB (R221). -/
theorem test_frameSfd :
    let n := maxLen linked 0
    receiving linked 0 = false ∧ (look linked.egress 0).quiet = false ∧
    yields (.frameSfd 0 0 5) linked (fun t => decide ((look t.rx 0).length = 1 ∧ look t.staging 0 = n)) = true ∧
    yields (.frameSfd 0 0 5) { linked with staging := [(0, 1048577 - n)] } (fun t => decide (reg t (bMac + 0x10) = 8)) = true ∧
    yields (.frameSfd 0 0 5) { linked with staging := [(0, 1048576 - n)] } (fun t => decide (look t.staging 0 = 1048576)) = true := by decide +kernel

/-- A runt fails; 64 bytes with a good FCS pass (R223). -/
theorem test_frames :
    let f : RxFrame := {}
    let s := { linked with rx := [(0, [f])] }
    undecided s 0 = some f ∧ f.ended = none ∧ (look s.rx 0).find? (·.ended.isNone) = some f ∧ f.dropped = false ∧
    (endCheck s 0 0 []).isSome = true ∧ endCheck s 0 0 (List.replicate 60 0 ++ fcsBytes (List.replicate 60 0)) = none := by decide +kernel

theorem test_srt :
    hasAccess .c = true ∧ ready.srtCopying = false ∧
    yields (.srtShadowRuleWrite .c 0 1 1) ready (fun t => t.srtS.length == 1) = true ∧
    yields .srtCopyDone { ready with srtCopying := true } (fun t => decide (t.srtCopying = false ∧ bitOf (reg t (bSrt + 0xC)) 1 = true)) = true := by decide +kernel

theorem test_srtSwap :
    posts (.srtSwap (hdr 0x601)) ready = true ∧ (taken ready (hdr 0)).srtPending = false ∧ badRule (taken ready (hdr 0)) = none ∧
    posts (.macsecSak (hdr 0x604) 0 0 0 0 3 0) (pooled ready) = true ∧ hostOk (pooled ready) 0 0 (sakBufLen 3) = true ∧
    yields (.srtSwap (hdr 0x601)) ready (fun t => t.srtPending) = true := by decide +kernel

/-! ## Cut-through, engines, station bus, radio -/

/-- Binding 0 holds a request of subport 0 at place 0. -/
def holding (h : Hold) : State := { ready with binds := [(0, { valid := true, holds := [(0, { h with used := true })] })] }

theorem test_requests :
    let s := holding {}
    oldestHold s 0 0 (fun h => !h.descOk) = some (0, 0) ∧ oldestHold s 0 0 (fun h => h.verdict.isNone) = some (0, 0) ∧
    oldestHold (holding { verdict := some 0 }) 0 0 (fun h => h.verdict.isNone) = none ∧
    (look s.seqBlocks (seqKey 7 1023)).left + (look s.seqBlocks (seqKey 7 1023)).left2 ≤ 2 ^ 29 ∧ agentUp s 2 = true := by decide +kernel

theorem test_replySeqGrant :
    let s := { ready with domains := [(1023, { state := .active })] }
    (look s.domains 1023).state ≠ .empty ∧
    yields (.replySeqGrant 7 1023) s (fun t => decide ((look t.domains 1023).replySeq = 2 ^ 30)) = true := by decide +kernel

/-- No earlier than D + 23 ac after the entry (R264). -/
theorem test_replyHandover :
    let s := holding { reply := .produced, entryTick := 0, entryOff := 0 }
    let x := look (look s.binds 0).holds 0
    x.recallDue = false ∧ x.noReply = false ∧ handAc s (look s.binds 0) x ≤ absAc s 23 ∧ absAc s 22 < handAc s (look s.binds 0) x ∧
    yields (.replyHandover 0 0 22) s (fun t => (look (look t.binds 0).holds 0).reply == .produced) = true := by decide +kernel

/-- The conditions of R259 in order. -/
theorem test_bind :
    let s := { pooled ready with
      ctxs := [(0, { state := .active })]
      tts := [(0, { state := .running, entryQ := some 9, report := { standing := true, chips := 1 } })]
      queues := [(3, { kind := 2 }), (4, { kind := 1 })] }
    let s := withReg s (bEgs + 0x10000 + 24) (2 ^ 15 + 2 ^ 8 + 2 ^ 16)
    posts (.bind (hdr 0x602) 9 3 4 4 0 0 0 0 0 0) s = true ∧ hostOk s 0 0 4 = true ∧ standingOf s 9 = some 0 ∧ bindRefusal s 0 9 3 4 4 [0] = 0 ∧
    bindRefusal s 0 9 3 4 4 [0x10000] = 4 ∧ bindRefusal s 0 9 4 4 4 [0] = 2 ∧ bindRefusal s 0 9 3 3 4 [0] = 3 ∧ freeBinding s = some 0 := by decide +kernel

theorem test_unbind :
    let s := { ready with binds := [(2, { valid := true, entryQ := 9 })] }
    posts (.unbind (hdr 0x603) 9) s = true ∧ bindingAt (taken s (hdr 0)) 9 = some 2 ∧
    yields (.unbind (hdr 0x603) 9) s (fun t => (look t.binds 2).removing) = true := by decide +kernel

/-- A code block starts 10 ac after its last word (R280). -/
theorem test_engines :
    submitter (passing {}) 0 = true ∧ submitter ready 0 = false ∧ submitter ready 2048 = true ∧
    oldestJob {} 0 = none ∧ (oldestJob { jobs := [{ waiting := true, j := 5 }] } 15).isSome = true ∧ oldestJob { jobs := [{ waiting := true, j := 5 }] } 14 = none ∧
    yields (.cipherMessageSubmit 7 0 2048 64 0) ready (fun t => (look t.engines 7).waiting.length == 1) = true ∧
    yields (.enginePeriod 7 11) ready (fun t => decide (ready.fresh < t.fresh)) = true ∧
    (let s := { ready with engines := [(7, { jobs := [{ port := 3 }] })] }
     yields (.fecReturn 7 3) s (fun t => (look t.engines 7).jobs == []) = true) ∧
    yields (.segRadioWaitRead .c 7) ready (fun t => t.wire == [.regData 0]) = true := by decide +kernel

/-- A station node that may send one frame. -/
def bus : State :=
  let s := withReg ready bStb 0x10
  { s with
    life := { s.life with enables := [true, true, true, true] }
    station := { s.station with txq := [[1]] } }

/-- The sixteenth collision abandons the frame (R244). -/
theorem test_station :
    let good : List Byte := List.replicate 60 0 ++ fcsBytes (List.replicate 60 0)
    stbEn bus = true ∧ stbEn ready = false ∧ stbMaySend bus = true ∧ plcaEn bus = false ∧ plcaEn (withReg bus bStb 0x18) = true ∧
    good.length = 64 ∧ fcsOk good = true ∧ fcsOk (List.replicate 64 1) = false ∧
    yields (.stbFrame good) bus (fun t => decide (reg t (bStb + 0x120) = 1)) = true ∧
    yields (.stbFrame (List.replicate 64 1)) bus (fun t => decide (reg t (bStb + 0x108) = 1)) = true ∧
    yields (.stbTransmitOpportunity false) bus (fun t => decide (t.station.txq = [] ∧ t.wire = [.station [1]])) = true ∧
    yields .stbCollision { bus with station := { bus.station with attempts := 15 } } (fun t => decide (t.station.txq = [])) = true ∧
    yields .stbCollision bus (fun t => t.station.backoff.isSome) = true := by decide +kernel

/-- A command frame waits (R252). -/
theorem test_station_frame :
    let m := [0, 0, 0, 0, 0, 1, 0, 0, 0, 0, 0, 2] ++ beBytes 2 (stationEtype bus) ++ [3] ++ List.replicate 45 0
    yields (.stbFrame (m ++ fcsBytes m)) bus (fun t => decide (t.station.rxq.length = 1 ∧ reg t (bStb + 0x100) = 1)) = true := by decide +kernel

/-- Carrier 0 on subport 0 of port 0, one PRB of one layer, served by a radio timetable. -/
def airing (x : Carrier) : State :=
  { linked with
    parts := [(0, { state := .opened, radio := true })]
    tts := [(0, { state := .running, report := { radio := true } })]
    carriers := [(0, { x with valid := true, nPrb := 1 })] }

/-- One timetable serves it, so that the choice among several leaves none (R285). -/
theorem test_onAir (dl : Bool) : onAir (airing {}) 0 dl = true ∧ onAir { airing {} with parts := [] } 0 dl = false := by
  have h : radioTts (airing {}) (carrierOf (airing {}) 0) dl = [0] := by cases dl <;> decide +kernel
  have v : (carrierOf (airing {}) 0).valid = true ∧ (airing {}).level ≠ .beacon ∧
      (part (airing {}) (carrierOf (airing {}) 0).part).state = .opened := by decide +kernel
  constructor
  · unfold onAir radioTt
    simp only [h, v, List.length_singleton, Nat.mod_one]
    rfl
  · have p : (part { airing {} with parts := [] } (carrierOf { airing {} with parts := [] } 0).part).state ≠ .opened := by decide +kernel
    unfold onAir
    simp only [p, decide_false, Bool.and_false, Bool.false_and]

/-- In its window from RX_MIN on, early, past it, and once more (R277); words of a symbol before its air time. -/
theorem test_radio :
    let s := airing { rxMin := 3, rxMax := 9 }
    let iq := List.replicate 12 ((0 : Int), (0 : Int))
    let take := fun air now s => uplaneReceive s 0 0 0 0 0 iq 0 now air false
    fhRing s (carrierOf s 0) = some 3 ∧ fhRing (airing { port := 1 }) (carrierOf (airing { port := 1 }) 0) = none ∧
    uplaneOk (carrierOf s 0) 0 0 0 iq = true ∧ uplaneOk (carrierOf s 0) 0 0 1 iq = false ∧ hasPrb (carrierOf s 0) 0 5 0 = false ∧
    (carrierOf (take 5 8 s) 0).prbs.length = 1 ∧ (carrierOf (take 5 7 s) 0).prbs = [] ∧ (carrierOf (take 5 15 s) 0).prbs = [] ∧
    reg (take 5 8 (take 5 8 s)) (bRad + 0x10010) = 1 ∧ airOff s 6 = some 9 ∧ airOff s (-1) = none ∧
    afterWindow s (carrierOf s 0) 0 77 = false ∧ afterWindow s (carrierOf s 0) 0 78 = true := by decide +kernel

theorem test_carrierCfg :
    let b : Carrier := { valid := true, mu := periodCode opened, part := 0, eaxcWidths := 0x4444 }
    let s := { opened with carriers := [(383, b)] }
    posts (.carrierCfg (hdr 0x801) 0 0 0) (pooled opened) = true ∧ posts (.carrierRemove (hdr 0x802) 383 0) s = true ∧ hostOk (pooled opened) 0 0 64 = true ∧
    carrierFieldsOk b = true ∧ carrierFieldsOk { b with eaxcWidths := 0x4443 } = false ∧ unitsOn opened (carrierDie b) 0 = 0 ∧ offHub opened 0 (carrierDie b) = false ∧
    carrierCode opened 0 { b with mu := 7 } = 1 ∧ (carrierOf (taken s (hdr 0)) 383).valid = true ∧
    yields (.carrierRemove (hdr 0x802) 383 0) s (fun t => t.effects.length == 1) = true := by decide +kernel

/-! ## Clauses with premises of their own -/

/-- A buffer that no page backs, a command that beacon does not take, and full limits (R331, R332, R389). -/
theorem test_clauses_general :
    let beacon := { ready with level := .beacon }
    let held : Act := { valid := true, code := 5 }
    let s := { ready with acts := (List.range 32).map fun i => (i, held) }
    buffersOk ready (.smUpdate (hdr 0xB02) 0 4096) = false ∧ beacon.level = .beacon ∧
    (commandRow (.sdgFill (hdr 0x401) 0 0 0 0 0)).map (fun x => x.2.atBeacon) = some false ∧
    busyLimit s { opcode := 0xB06, agent := 1, activity := true } = 2 ∧
    busyLimit ready { opcode := 0xB06, agent := 1, activity := true } = 0 := by decide +kernel

/-- What a line reads as: poisoned, uncorrectable and sealed, uncorrectable and plain (R201, R208, R210). -/
theorem test_clauses_lines :
    let plain := pooled ready
    let s := { plain with pcs := [(0, { owner := .hostPool, sealed := true })] }
    lineRead { s with lines := [(0, { poisoned := true })] } 0 0 = .poisoned ∧
    lineRead { s with lines := [(0, { ue := true })] } 0 0 = .tagBad ∧
    lineRead { plain with lines := [(0, { ue := true })] } 0 0 = .plainUe ∧
    yields (.hostPoolRead 0 none 0 1) { plain with lines := [(0, { ue := true })] }
      (fun t => (t.fltLog.head?.any fun r => r.code == 37) && t.wire.head? == some (.readData 0 0 [0] true)) = true := by decide +kernel

/-- SyncE's subport leaves the split; Holdover at its limit and past it (R17, R435). -/
theorem test_clauses_tick :
    let old := reg ready bTck
    let s := ticking ready .holdover 0
    synceMoved old (old + 2 ^ 25) = true ∧ ptpMoved old (old + 2 ^ 16) = true ∧ synceInSplit ready = true ∧
    synceInSplit (withReg ready bTck (old + 2 ^ 25)) = false ∧ comingState s = .holdover ∧ followEn s = false ∧
    holdOver { s with tick := { s.tick with holdNs := holdLimit s * 1000000000 } } = false ∧
    holdOver { s with tick := { s.tick with holdNs := holdLimit s * 1000000000 + 1 } } = true := by decide +kernel

/-- From stage 4 on configuration requests are answered; before it they complete with Retry Status (R404). -/
theorem test_clauses_config :
    configServed ready = true ∧ configServed (at_ .scRom) = false ∧ pcieLinkUp (at_ .scRom) = true ∧ pcieLinkUp State.reset = false ∧
    yields (.vfEnableSet 1) (at_ .scRom) (fun t => t.wire == [.configRetry] && !t.life.vfEnable) = true ∧
    yields (.vfEnableSet 1) State.reset (fun t => t.wire == []) = true := by decide +kernel

/-- A shadow route to group 3,907, to the own group, and none (R14, R357). -/
theorem test_clauses_routes :
    let s := { ready with fabricId := 5 }
    routesReserved s = false ∧ routesReserved (withReg s (bTrk + 0x20000 + 4 * 3907) 0x80) = true ∧
    routesReserved (withReg s (bTrk + 0x20000 + 4 * 3906) 0x80) = false ∧
    shadowValid (withReg s (bTrk + 0x20000) 0x80) (bTrk + 0x20000) = true ∧
    yields (.routeSwap (hdr 0xC02)) (withReg s (bTrk + 0x20000) 0x80) (fun t => t.effects == []) = true := by decide +kernel

/-- A job in its pass, and one that waits (R363). -/
theorem test_clauses_brake :
    let j : Job := { state := .running, pass := 4 }
    brakePass { state := .running, job := j } 4 = (5, true) ∧ brakePass { state := .running, job := j } 5 = (5, false) := by decide +kernel

/-- A valid rule of port 0 that asks for nothing matches any frame; one that is not valid matches none (R226). -/
theorem test_clauses_rules :
    let p := parseFrame 0x88B5 1 (List.replicate 64 0)
    let r : BitVec 1024 := 1 + 2 ^ 16
    (findRule [(2, 0), (3, r)] 0 p []).map (·.1) = some 3 ∧ findRule [(2, 0), (3, r)] 1 p [] = none := by decide +kernel

/-- A frame of the timing class goes first; a ring of the radio class is found where it has a frame (R236). -/
theorem test_clauses_egress :
    let it : TxItem := { bytes := List.replicate 64 0 }
    let s := { linked with egress := [(0, { timing := some it })] }
    (look s.egress 0).timing = some it ∧ (look s.egress 0).quiet = false ∧ radioRing linked 0 = none ∧ fairRing linked 0 = none ∧
    radioRing { linked with txRings := [(3, { items := [{ it with ring := 3 }] })] } 0 = some 3 := by decide +kernel

/-- A job that waits on its FEC port, with its header (R280). -/
theorem test_clauses_fec :
    let s := { ready with hub := [(hubKey 0 (Config.fecPort 0 0 0), [(0, ({} : TWord))])] }
    submitted s 0 0 = [(0, {})] ∧ submitted ready 0 0 = [] ∧ (fecHdr {}).encode = false := by
  refine ⟨?_, by decide +kernel, by decide +kernel⟩
  simp [submitted, look]

/-- A status request, a command, a notice for other nodes, an unknown kind and an oversize frame (R244). -/
theorem test_clauses_station :
    let m := fun (kind : Byte) => [0, 0, 0, 0, 0, 1, 0, 0, 0, 0, 0, 2] ++ beBytes 2 (stationEtype bus) ++ [kind, 1, 2] ++ List.replicate 43 0
    let f := fun (kind : Byte) => m kind ++ fcsBytes (m kind)
    yields (.stbFrame (f 1)) bus (fun t => (t.station.txq.getLast?.map fun b => (b.drop 14).take 3) == some [2, 1, 2]) = true ∧
    yields (.stbFrame (f 5)) bus (fun t => decide (reg t (bStb + 0x100) = 1 ∧ t.station.rxq = [])) = true ∧
    yields (.stbFrame (f 6)) bus (fun t => decide (reg t (bStb + 0x120) = 1)) = true ∧
    yields (.stbFrame (f 3)) { bus with station := { bus.station with rxq := List.replicate 16 [] } } (fun t => decide (reg t (bStb + 0x118) = 1)) = true ∧
    yields (.stbFrame (List.replicate 1519 1)) bus (fun t => decide (reg t (bStb + 0x110) = 1)) = true := by decide +kernel

/-- Node 0 sends the beacon, another does not; its loss (R243, R252). -/
theorem test_clauses_plca :
    let s := withReg bus bStb 0x18
    yields .plcaBeacon s (fun t => t.station.plcaActive && t.wire == [.plcaBeacon]) = true ∧
    yields .plcaBeacon (withReg bus bStb 0x19) (fun t => t.station.plcaActive && t.wire == []) = true ∧
    yields .plcaLost s (fun t => bitOf (reg t (bStb + 0x18)) 2 && !t.station.plcaActive) = true := by decide +kernel

/-- A delay request, a follow-up, and neither (R273). -/
theorem test_clauses_delay :
    let m := fun (action : Byte) => List.replicate 12 0 ++ [0xAE, 0xFE, 0x10, 5, 0, 20, 7, action] ++ List.replicate 40 0
    delayRequest (m 0) = true ∧ delayFollowUp (m 5) = true ∧ delayRequest (m 3) = false ∧ delayFollowUp (m 3) = false ∧
    yields (.ecpriDelayMeasurement 0 0 (m 0) 5) linked (fun t => (look t.txRings 3).items.length == 1) = true := by decide +kernel

/-- The last declared byte and eight ac lie ahead (R262). -/
theorem test_clauses_verdict :
    let h : Hold := { used := true, declared := 64 }
    let s := holding h
    (holdAt s 0 0).used = true ∧ oldestHold s 0 0 (fun h => h.verdict.isNone) = some (0, 0) ∧
    absAc s 0 < byteAt s h 63 + 8 := by decide +kernel

/-- A request that is ready at the offset, and none; a result at the offset of an entry in flight (R150). -/
theorem test_clauses_entry :
    let w : TWord := { payload := 7 }
    let s := { passing { entry := { f := 1, e0 := 5, ii := 3 } } with queues := [(9, { kind := 5, ready := [{ words := [w] }] })] }
    (readyOf s (balanceGroup s 0) 5).length = 1 ∧ lowerMembers s 0 5 = 0 ∧ (readyOf ready (balanceGroup ready 0) 5) = [] ∧
    flightAt { flight := [{ off := 5 }], report := { exit := { offsets := [4] } } } 9 = some { off := 5 } ∧
    flightAt { flight := [{ off := 5 }], report := { exit := { offsets := [4] } } } 8 = none := by decide +kernel

/-- An active replay of the context carries what the overrun pass had (R373). -/
theorem test_clauses_replay :
    let q : Quarantine := { active := true, replaying := true, suspects := [0] }
    replaying { passing {} with quarantines := [(0, q)] } 0 = true ∧ replaying { passing {} with quarantines := [(0, q)] } 1 = false := by decide +kernel

/-! ## What registers read as -/

/-- Reset columns of the register tables. -/
theorem test_read_reset :
    ([(bTck, 0x181001), (bTck + 8, 0xB71B0), (bTck + 0x20, 0xFA0064), (bSig, 0), (bDie + 0xC00, 0x2EE0), (bAri, 0x303FF),
      (bMem, 0x18000F8), (bSeal, 0x18280400), (bMac, 1), (bMac + 0xF0008, 0x2400), (bSrt + 4, 0x88B5), (bEgs + 0x3C, 0x14),
      (bStb, 0x82010), (bCut, 0x400100), (bRad, 0x300180), (bFec + 4, 0x17D7840), (bFec + 8, 0x2FAF080), (bTrk + 4, 0x8100000),
      (portWindow 39, 0x2000001), (portWindow 39 + 8, 0x3FFFF), (bFlt, 0x50064), (bFlt + 0x48, 0xE102), (bCmd, 0x200200),
      (0x14, 0x3FFFF)].all fun x => readPfWord State.reset .c x.1 == x.2) = true := by decide +kernel

/-- The worked example of R269. -/
theorem test_read_bind :
    let b : Binding := { valid := true, d := 65, ii := 10, fIn := 1, fOut := 1, descN := 1 }
    bindWord b 0x18 = 186 + 2 ^ 16 * 102 ∧ [100, 200, 400, 800].map (minTail b) = [1661, 3211, 6311, 12511] := by decide +kernel

/-- A view with no access reads zero (R5). -/
theorem test_read_views :
    regRead ready viaC bTck = 0x181001 ∧ regRead ready viaT bTck = 0 ∧ regRead ready { viaC with view := .o } 4 = 1 ∧ regRead ready viaC 4 = 2 ∧
    regRead (withReg ready (bTil + 0x100) 5) { viaC with view := .o } (bTil + 0x100) = 0 ∧
    regRead { opened with level := .beacon, fabricId := 7 } viaC 0x14 = 7 ∧ regRead { opened with level := .beacon } viaC 0x18 = 2 ∧
    regRead opened viaC (bPart + 0x100) = 9 := by decide +kernel

/-- The high word is the latch of the reading view (R235). -/
theorem test_read_latch :
    let s := { bump ready (bStb + 0x100) (5 + 3 * 2 ^ 32) with latches := [(latchKey (bStb + 0x100) 0, 3)] }
    regRead s viaC (bStb + 0x100) = 5 ∧ regRead s viaC (bStb + 0x104) = 3 ∧ regRead s { viaC with view := .o } (bStb + 0x104) = 0 := by decide +kernel

/-- R158, R371, R382. -/
theorem test_read_records :
    (faultBytes {}).length = 64 ∧ (dumpPublic {}).length = 4096 ∧ (recBytes {}).length = 64 ∧
    (faultBytes { code := 59, attrib := 2, locKind := 0, part := some 3, seq := 9 }).take 16 = [59, 2, 0, 0, 0, 0x30, 2, 0, 9, 0, 0, 0, 0, 0, 0, 0] := by decide +kernel

end Sys2Proof.Tests
end

section
/-!
PROOFS. A command that no general check refuses, said through its body's reply: accepted it is carried out, refused
it is turned away.
-/

namespace Sys2Proof.Machine

/-- A body that accepts, with what it answers, has the command carried out. -/
theorem answer_acceptAt (s t : State) (h : CmdHdr) (row : OpRow) (r0 r1 : Nat) :
    answer (taken s h) h row (cmdIndex s h.src) (acceptAt t r0 r1) = fulfilled s t h row.agent r0 r1 :=
  answer_accept s t h row r0 r1

/-- A body that refuses, with one number to its status, has the command turned away. -/
theorem answer_refuseAt (s : State) (h : CmdHdr) (row : OpRow) {st : Nat} (r0 : Nat) (hst : st ≠ stBadOpcode) :
    answer (taken s h) h row (cmdIndex s h.src) (refuseAt (taken s h) st r0 0) = turnedAway s h row.agent st r0 :=
  answer_refuse s (taken s h) h row st r0 0 hst

/-- What a command that is no scan does, once no general check refuses it: its body's reply, answered. -/
theorem exec_of_answer {c : Instr} {h : CmdHdr} {row : OpRow} {s t : State} (hc : commandRow c = some (h, row))
    (hr : row.opcode ≠ 0x0A03) (hscan : isScan c = false) (ht : takes s c = true)
    (hbody : answer (taken s h) h row (cmdIndex s h.src) (cmdBody c (taken s h) (cmdIndex s h.src)) = t) :
    exec c s = .next (irq s t) := by
  rw [exec_takes s hc hr ht, shown, hscan, if_neg Bool.false_ne_true, hbody]

end Sys2Proof.Machine
end

section
/-!
PROOFS. What a write leaves of each bit of a word (R4, R5), and what the part holds at power-on reset (R12).
-/

namespace Sys2Proof.Machine

/-! ## Bits under a mask -/

/-- The bits of a number outside a mask. -/
theorem testBit_sub_and (x y i : Nat) : (x - (x &&& y)).testBit i = (x.testBit i && !y.testBit i) := by
  induction i generalizing x y with
  | zero =>
    have hle : x &&& y ≤ x := Nat.and_le_left
    have hlow := Nat.and_mod_two_eq_one (a := x) (b := y)
    rw [Bool.eq_iff_iff]
    simp only [Nat.testBit_zero, Bool.and_eq_true, Bool.not_eq_true', decide_eq_true_eq, decide_eq_false_iff_not]
    omega
  | succ i ih =>
    have hle : x &&& y ≤ x := Nat.and_le_left
    have hlow := Nat.and_mod_two_eq_one (a := x) (b := y)
    have hhalf : (x &&& y) / 2 = x / 2 &&& y / 2 := Nat.and_div_two
    have hsub : (x - (x &&& y)) / 2 = x / 2 - (x / 2 &&& y / 2) := by omega
    rw [Nat.testBit_succ, hsub, ih, ← Nat.testBit_succ, ← Nat.testBit_succ]

/-- New bits under a mask, old ones outside it. -/
theorem testBit_merge (old new m i : Nat) :
    ((old - (old &&& m)) ||| (new &&& m)).testBit i = if m.testBit i then new.testBit i else old.testBit i := by
  rw [Nat.testBit_or, testBit_sub_and, Nat.testBit_and]
  cases m.testBit i <;> simp

/-- Settles O12: the writable bits are merged in first, and of the outcome a 1 written clears the bits that it may. -/
theorem bitsAccessCodesGive : Obligations.BitsAccessCodesGive := by
  intro row v a old data i _ _ _ hfields m
  have hval : written row v a old data = (old - (old &&& m) ||| data &&& m) -
      ((old - (old &&& m) ||| data &&& m) &&& data &&& row.w1c) := by
    simp only [written, hfields, m]
  clear_value m
  rw [hval, Nat.and_assoc, testBit_sub_and, testBit_merge, Nat.testBit_and, Bool.and_comm (data.testBit i)]
  cases row.w1c.testBit i && data.testBit i <;> simp

/-! ## Power-on reset -/

/-- No register word is listed at reset, so each reads its row's value. -/
theorem reg_reset (a : Nat) : reg State.reset a = resetOf a := rfl

/-- Settles O3: every table of the reset state is empty, and an unlisted entry reads as the type's default. -/
theorem resetValues : Obligations.ResetValues :=
  ⟨rfl, rfl, rfl, reg_reset, fun _ => rfl, fun _ => rfl, fun _ => rfl, fun _ => rfl, rfl, rfl, rfl, rfl⟩

end Sys2Proof.Machine
end

section
/-!
PROOFS. Register writes, register by register (R3 to R5, R301, R303): what each word operation of REGISTER_WRITE
does in each of its cases, and from them what the command does.
-/

namespace Sys2Proof.Machine

/-! ## The commands -/

theorem exec_registerWrite (acc : Access) (a size : Nat) (data : BitVec 64) (s : State) :
    exec (.registerWrite acc a size data) s = .next (irq s (regWrite s acc a size data)) := rfl

theorem exec_counterLowWordRead (acc : Access) (a : Nat) (s : State) :
    exec (.counterLowWordRead acc a) s = .next (irq s (latchRead s acc a)) := rfl

/-! ## Where an access arrives -/

/-- An access that reaches PF BAR0 goes through no function's BAR. -/
theorem reachesVf_of_reachesPf {s : State} {acc : Access} (hpf : reachesPf acc = true) : reachesVf s acc = none := by
  have hbar : acc.bar = .pf := by
    simp only [reachesPf, Bool.and_eq_true, decide_eq_true_eq] at hpf
    exact hpf.1
  simp only [reachesVf, hbar]

/-- An access with no way to a counter finds none. -/
theorem counterFor_of_unreached {s : State} {acc : Access} (hvf : reachesVf s acc = none)
    (hpf : reachesPf acc = false) (a : Nat) : counterFor s acc a = none := by
  unfold counterFor
  cases acc.bar with
  | pf => simp only [hpf, true_or, if_true]
  | vf f => simp only [hvf]

/-! ## Word by word -/

theorem eachWord_four (w : State → Nat → Nat → State) (s : State) {a : Nat} (data : Nat) (ha : a % 4 = 0) :
    eachWord w s a 4 data = w s a (data % 2 ^ 32) := by
  simp [eachWord, ha]

theorem eachWord_eight (w : State → Nat → Nat → State) (s : State) {a : Nat} (data : Nat) (ha : a % 4 = 0) :
    eachWord w s a 8 data = w (w s a (data % 2 ^ 32)) (a + 4) (data / 2 ^ 32) := by
  simp [eachWord, ha]

/-- A misaligned access, or one of less than a word, writes nothing. -/
theorem eachWord_of_shape (w : State → Nat → Nat → State) (s : State) {a size : Nat} (data : Nat)
    (h : a % 4 ≠ 0 ∨ (size ≠ 4 ∧ size ≠ 8)) : eachWord w s a size data = s := by
  unfold eachWord
  rcases h with ha | ⟨h4, h8⟩
  · rw [if_pos ha]
  · rw [if_neg h8, if_neg h4, ite_self]

/-! ## The four ways a write goes -/

theorem regWrite_of_unreached {s : State} {acc : Access} (hvf : reachesVf s acc = none) (hpf : reachesPf acc = false)
    (a size : Nat) (data : BitVec 64) : regWrite s acc a size data = s := by
  simp only [regWrite, hvf, hpf, if_true]

theorem regWrite_inData {acc : Access} (hpf : reachesPf acc = true) {a : Nat}
    (ha : within a (bMbx + 0x300) (bMbx + 0x3FF) = true) (s : State) (size : Nat) (data : BitVec 64) :
    regWrite s acc a size data = writeInData s a ((leBytes size data.toNat).take (bMbx + 0x400 - a)) := by
  simp only [regWrite, reachesVf_of_reachesPf hpf, hpf, ha, Bool.true_eq_false, if_false, if_true]

theorem regWrite_pfWords {acc : Access} (hpf : reachesPf acc = true) {a : Nat}
    (ha : within a (bMbx + 0x300) (bMbx + 0x3FF) = false) (s : State) (size : Nat) (data : BitVec 64) :
    regWrite s acc a size data = eachWord (fun s a d => writePfWord s acc.view a d) s a size data.toNat := by
  simp only [regWrite, reachesVf_of_reachesPf hpf, hpf, ha, Bool.true_eq_false, Bool.false_eq_true, if_false]

theorem regWrite_outData {s : State} {acc : Access} {f : Nat} (hvf : reachesVf s acc = some f) (hv : acc.view = .t)
    {a : Nat} (ha : within a 0x400 0x4FF = true) (size : Nat) (data : BitVec 64) :
    regWrite s acc a size data = writeOutData s f a ((leBytes size data.toNat).take (0x500 - a)) := by
  simp only [regWrite, hvf, ha, hv, and_self, if_true]

theorem regWrite_vfWords {s : State} {acc : Access} {f : Nat} (hvf : reachesVf s acc = some f) {a : Nat}
    (ha : acc.view = .c ∨ within a 0x400 0x4FF = false) (size : Nat) (data : BitVec 64) :
    regWrite s acc a size data = eachWord (fun s a d => writeVfWord s acc.view f a d) s a size data.toNat := by
  have hout : ¬(within a 0x400 0x4FF = true ∧ acc.view = .t) := by
    rintro ⟨hin, ht⟩
    rcases ha with hc | hno
    · exact absurd (hc.symm.trans ht) (by decide)
    · exact absurd (hin.symm.trans hno) (by decide)
  simp only [regWrite, hvf, if_neg hout]

/-! ## A word of PF BAR0 -/

theorem writeMapped_of_row {a : Nat} {row : RegRow} (hrow : rowOf a = some row) (t : State) (v : View) (x : Nat) :
    writeMapped t v a x =
      if wordAccepted t a (written row v a (reg t a) x) = true then
        setReg t a (written row v a (reg t a) x)
      else t := by
  simp only [writeMapped, hrow]

theorem writeMapped_of_noRow {a : Nat} (hrow : rowOf a = none) (t : State) (v : View) (x : Nat) :
    writeMapped t v a x = t := by
  simp only [writeMapped, hrow]

theorem plcaFollows_of_on {t : State} (h : bitOf (reg t bStb) 3 = true) : plcaFollows t = t := by
  simp only [plcaFollows, h, Bool.and_true]

theorem plcaFollows_of_off {t : State} (h : bitOf (reg t bStb) 3 = false) :
    plcaFollows t = { t with station := { t.station with plcaActive := false } } := by
  simp only [plcaFollows, h, Bool.and_false]

theorem writeTyped_vfCfg {a f : Nat} (ha : indexIn a bVf 0x40 1024 = some f) (t : State) (v : View) (x : Nat) :
    writeTyped t v a x = { t with vfs := upd t.vfs f fun n => { n with pcieT := bitOf x 2 } } := by
  simp only [writeTyped, ha]

/-- PERMIT and the station address stand outside VF_CFG, each at its own word. -/
theorem writeTyped_permit (t : State) (v : View) (x : Nat) : writeTyped t v (bRst + 0x204) x =
    if v = .c then { t with life := { t.life with permit := bitOf x 3 } } else t := by
  have hcfg : indexIn (bRst + 0x204) bVf 0x40 1024 = none := by decide
  cases v <;> simp [writeTyped, hcfg]

theorem writeTyped_authLow (t : State) (v : View) (x : Nat) : writeTyped t v (bRst + 0x208) x =
    if v = .c then
      { t with life := { t.life with auth := BitVec.ofNat 48 (t.life.auth.toNat / 2 ^ 32 * 2 ^ 32 + x) } }
    else t := by
  have hcfg : indexIn (bRst + 0x208) bVf 0x40 1024 = none := by decide
  cases v <;> simp [writeTyped, hcfg]

theorem writeTyped_authHigh (t : State) (v : View) (x : Nat) : writeTyped t v (bRst + 0x20C) x =
    if v = .c then
      { t with life := { t.life with auth := BitVec.ofNat 48 (t.life.auth.toNat % 2 ^ 32 + x % 2 ^ 16 * 2 ^ 32) } }
    else t := by
  have hcfg : indexIn (bRst + 0x20C) bVf 0x40 1024 = none := by decide
  cases v <;> simp [writeTyped, hcfg]

/-! ## A word of a function's BAR -/

theorem writeVfWord_qsel (t : State) (v : View) (f x : Nat) :
    writeVfWord t v f 0x80 x = (if (queueOf t (bits x 12 0)).kind ≠ 0 ∧ (queueOf t (bits x 12 0)).func = f then
      { t with vfs := upd t.vfs f fun n => { n with qsel := bits x 12 0 } } else t) := by
  simp only [writeVfWord, if_true]

/-- MBX_T_STATUS is the tenant's alone (R322). -/
theorem writeVfWord_mbxStatus (t : State) (v : View) (f x : Nat) :
    writeVfWord t v f 0x704 x = (if v = .t then { t with vfs := upd t.vfs f fun n => { n with mbx := { n.mbx with
      outDone := n.mbx.outDone && !bitOf x 1
      outTimeout := n.mbx.outTimeout && !bitOf x 2
      refused := n.mbx.refused && !bitOf x 3
      inTimeout := n.mbx.inTimeout && !bitOf x 5 } } } else t) := by
  cases v <;> simp [writeVfWord, within]

/-- VF_FLT_TAIL is the tenant's alone (R397). -/
theorem writeVfWord_fltTail (t : State) (v : View) (f x : Nat) :
    writeVfWord t v f 0x3004 x = (if v = .t then { t with vfs := upd t.vfs f fun n =>
      { n with flt := { n.flt with tail := BitVec.ofNat 16 x } } } else t) := by
  cases v <;> simp [writeVfWord, within]

theorem writeVfWord_msix {a : Nat} (ha : within a 0x2000 0x23FC = true) (t : State) (v : View) (f x : Nat) :
    writeVfWord t v f a x = releaseVec t (writeMapped t v (vfBase f + a) x) f ((a - 0x2000) / 16) := by
  have hrange := ha
  simp only [within, Bool.and_eq_true, decide_eq_true_eq] at hrange
  have h80 : a ≠ 0x80 := by omega
  have h704 : a ≠ 0x704 := by omega
  have h3004 : a ≠ 0x3004 := by omega
  simp only [writeVfWord, h80, h704, h3004, false_and, if_false, ha, if_true]

theorem writeVfWord_of_other {a : Nat} (hname : a ∉ [0x80, 0x704, 0x3004]) (ha : within a 0x2000 0x23FC = false)
    (t : State) (v : View) (f x : Nat) : writeVfWord t v f a x = t := by
  simp only [List.mem_cons, List.not_mem_nil, or_false, not_or] at hname
  obtain ⟨h80, h704, h3004⟩ := hname
  simp only [writeVfWord, h80, h704, h3004, false_and, if_false, ha, Bool.false_eq_true]

/-- Settles O11: a write is split by where its access arrives, and each word of it by what stands at its address. -/
theorem registerWriteStores : Obligations.RegisterWriteStores := by
  intro s acc a data v d lo hi
  refine ⟨?unreached, ?inData, ?pfWords, ?pfWord, ?vfBar, ?vfWord⟩
  case unreached =>
    intro hvf hpf
    refine ⟨fun size => ?_, ?_⟩
    · rw [exec_registerWrite, regWrite_of_unreached hvf hpf]
    · rw [exec_counterLowWordRead, latchRead, counterFor_of_unreached hvf hpf]
  case inData =>
    intro hpf ha size
    rw [exec_registerWrite, regWrite_inData hpf ha, writeInData]
  case pfWords =>
    intro hpf ha
    simp only [exec_registerWrite, regWrite_pfWords hpf ha]
    refine ⟨fun h4 => ⟨?_, ?_⟩, fun size h => ?_⟩
    · rw [eachWord_four _ _ _ h4]
    · rw [eachWord_eight _ _ _ h4]
    · rw [eachWord_of_shape _ _ _ h]
  case pfWord =>
    intro t x
    refine ⟨rfl, fun row hrow => writeMapped_of_row hrow t v x, fun hrow => writeMapped_of_noRow hrow t v x,
      plcaFollows_of_on, plcaFollows_of_off, fun f hf => writeTyped_vfCfg hf t v x, ?_, ?_, ?_⟩
    · rintro rfl
      exact writeTyped_permit t v x
    · rintro rfl
      exact writeTyped_authLow t v x
    · rintro rfl
      exact writeTyped_authHigh t v x
  case vfBar =>
    intro f hvf
    refine ⟨fun hv ha size => ?_, fun ha => ?_⟩
    · rw [exec_registerWrite, regWrite_outData hvf hv ha, writeOutData]
    · simp only [exec_registerWrite, regWrite_vfWords hvf ha]
      refine ⟨fun h4 => ⟨?_, ?_⟩, fun size h => ?_⟩
      · rw [eachWord_four _ _ _ h4]
      · rw [eachWord_eight _ _ _ h4]
      · rw [eachWord_of_shape _ _ _ h]
  case vfWord =>
    exact fun t f x => ⟨writeVfWord_qsel t v f x, writeVfWord_mbxStatus t v f x, writeVfWord_fltTail t v f x,
      fun ha => writeVfWord_msix ha t v f x, fun hname ha => writeVfWord_of_other hname ha t v f x⟩

end Sys2Proof.Machine
end

section
/-!
PROOFS. Trunk ports (R348, R349, R366), the fabric identity (R14) and the exchange of routes (R357): what each
command does, said once, and the refusals of the two commands in their order.
-/

namespace Sys2Proof.Machine

/-! ## The events of a port -/

theorem exec_trkPortSkewRead (v : View) (p : Nat) (s : State) :
    exec (.trkPortSkewRead v p) s = .next (irq s (if hasAccess v = true ∧ p < 40 then
      emit (updPort s p fun x => { x with skewMax := 0 }) (.regData (BitVec.ofNat 64 (skewWord (portAt s p))))
      else emit s (.regData 0))) := rfl

theorem exec_trkPortCtrlWrite (v : View) (p : Nat) (d : BitVec 32) (s : State) :
    exec (.trkPortCtrlWrite v p d) s =
      .next (irq s (if hasAccess v = true ∧ p < 40 then trkPortCtrl s p d.toNat else s)) := rfl

theorem exec_trunkTrainingDone (p cause : Nat) (s : State) : exec (.trunkTrainingDone p cause) s =
    .next (irq s (if (portAt s p).state = .training then trainingDone s p cause else s)) := rfl

theorem exec_trunkIdentify (p peerId peerPort latFix : Nat) (s : State) :
    exec (.trunkIdentify p peerId peerPort latFix) s =
      .next (irq s (if (portAt s p).state = .identify then identify s p peerId peerPort latFix else s)) := rfl

theorem exec_trunkAgree (p : Nat) (peer : Nat × Nat) (genuine : Bool) (s : State) :
    exec (.trunkAgree p peer genuine) s =
      .next (irq s (if (portAt s p).state = .agree then agree s p peer genuine else s)) := rfl

theorem exec_trunkMeasure (p roundTrip : Nat) (s : State) : exec (.trunkMeasure p roundTrip) s =
    .next (irq s (if (portAt s p).state = .measure then measure s p roundTrip else s)) := rfl

theorem exec_trunkRetry (p : Nat) (s : State) : exec (.trunkRetry p) s =
    .next (irq s (if (portAt s p).state = .failed ∧ portEn s p = true then portTo s p .training 0 else s)) := rfl

theorem exec_trunkLinkDown (p cause : Nat) (s : State) : exec (.trunkLinkDown p cause) s =
    .next (irq s (if (portAt s p).state = .down then s else portTo s p .failed cause)) := rfl

theorem exec_keyRatchet (p : Nat) (rx : Bool) (s : State) :
    let x := portAt s p
    exec (.keyRatchet p rx) s = .next (irq s (
      if x.state ≠ .up ∨ (if rx = true then x.rxCount else x.txCount) < 2 ^ 31 then s
      else if rx = true then
        updPort s p fun x => { x with rxKey := ratcheted x.rxKey, rxCount := 0, rxGen := !x.rxGen }
      else updPort s p fun x => { x with txKey := ratcheted x.txKey, txCount := 0, txGen := !x.txGen })) := rfl

theorem exec_routeDrainEnd (s : State) :
    exec .routeDrainEnd s = .next (irq s (if s.drain = 1 then { s with drain := 0 } else s)) := rfl

/-! ## Identities and routes -/

theorem reservedId_iff (id : Nat) : reservedId id = true ↔ 250000 ≤ id := decide_eq_true_iff

/-- FABRIC_ID_SET, once no general check refuses it: a reserved identity, a job of several chips, or every port trained
again under the new identity. -/
theorem exec_fabricIdSet {s : State} {h : CmdHdr} {id : Nat} (ht : takes s (.fabricIdSet h id) = true) :
    let u := taken s h
    exec (.fabricIdSet h id) s = .next (irq s (
      if 250000 ≤ id then turnedAway s h 1 stReservedId 0
      else if ctxsWhere u (fun t => decide (1 < t.report.chips)) ≠ [] then turnedAway s h 1 stState 0
      else fulfilled s ((List.range 40).foldl portRetrain { u with fabricId := id }) h 1 0 0)) := by
  intro u
  refine exec_of_answer rfl (by decide) rfl ht ?_
  simp only [cmdBody, fabricIdBody, reservedId_iff]
  split_ifs
  · exact answer_refuseAt s h _ 0 (by decide)
  · exact answer_refuseAt s h _ 0 (by decide)
  · exact answer_acceptAt s _ h _ 0 0

/-- ROUTE_SWAP, once no general check refuses it: its refusals in their order, or the exchange at the next boundary. -/
theorem exec_routeSwap {s : State} {h : CmdHdr} (ht : takes s (.routeSwap h) = true) :
    let u := taken s h
    let g := u.fabricId / 64
    let m := u.fabricId % 64
    exec (.routeSwap h) s = .next (irq s (
      if routesReserved u = true then turnedAway s h 1 stReservedId 0
      else if u.drain ≠ 0 ∨ routePending u = true then turnedAway s h 1 stState 0
      else if shadowValid u (bTrk + 0x20000 + 4 * g) = true then turnedAway s h 1 stState g
      else if shadowValid u (bTrk + 0x30100 + 4 * m) = true then turnedAway s h 1 stState (0x10000 + m)
      else fulfilled s (addEffect u h (cmdIndex s h.src) (nextTick u) .routeSwap) h 1 (nextTick u) 0)) := by
  intro u g m
  refine exec_of_answer rfl (by decide) rfl ht ?_
  simp only [cmdBody, routeSwapBody]
  split_ifs
  · exact answer_refuseAt s h _ 0 (by decide)
  · exact answer_refuseAt s h _ 0 (by decide)
  · exact answer_refuseAt s h _ g (by decide)
  · exact answer_refuseAt s h _ (0x10000 + m) (by decide)
  · exact answer_acceptAt s _ h _ (nextTick u) 0

/-! ## A port's way up -/

/-- A write that changes TRK_PORT_CTRL retrains the port; one that does not changes nothing. -/
theorem trkPortCtrl_eq (s : State) (p data : Nat) :
    let old := reg s (portWindow p)
    let y := keepField old (data &&& 0x1FFF0001) 28 16 (within (bits data 28 16) 256 8191)
    trkPortCtrl s p data = if y ≠ old then portRetrain (setReg s (portWindow p) y) p else s :=
  (ite_not ..).symm

theorem trainingDone_eq (s : State) (p cause : Nat) :
    trainingDone s p cause =
      if cause ≠ 0 then portTo s p .failed cause
      else if 250000 ≤ s.fabricId then portTo s p .noId 0 else portTo s p .identify 0 := by
  simp only [trainingDone, reservedId_iff, apply_ite (portTo s p · 0)]

theorem identify_eq (s : State) (p peerId peerPort latFix : Nat) :
    let t := updPort s p fun x => { x with peerId := peerId, peerPort := peerPort }
    identify s p peerId peerPort latFix =
      if latFix ≠ portLat t p then portTo t p .failed 5
      else if 250000 ≤ peerId ∨ peerId = s.fabricId then portTo t p .failed 6 else portTo t p .agree 0 := by
  simp only [identify, reservedId_iff]
  rfl

/-- Settles O53: each event of a port by the state it belongs to, and the two commands by their refusals. -/
theorem trunkPortsComplete : Obligations.TrunkPortsComplete := by
  intro s p a b c v h d genuine rx x u there
  refine ⟨exec_trkPortSkewRead v p s, ?ctrl, ?training, ?identify, ?agree, ?measure, exec_trunkRetry p s,
    exec_trunkLinkDown p a s, exec_keyRatchet p rx s, exec_fabricIdSet, exec_routeSwap, exec_routeDrainEnd s⟩
  case ctrl =>
    intro old y
    rw [exec_trkPortCtrlWrite, trkPortCtrl_eq, ← ite_and]
  case training =>
    rw [exec_trunkTrainingDone, trainingDone_eq, ite_not (x.state = .training)]
  case identify =>
    intro t
    rw [exec_trunkIdentify, identify_eq, ite_not (x.state = .identify)]
  case agree =>
    intro key own keyed
    rw [exec_trunkAgree, ite_not (x.state = .agree)]
    rfl
  case measure =>
    intro lat t short
    rw [exec_trunkMeasure, ite_not (x.state = .measure)]
    rfl

end Sys2Proof.Machine
end

section
/-!
PROOFS. The station bus (R243, R244, R252): what each of its commands does, said once, and how a frame is taken.
-/

namespace Sys2Proof.Machine

/-! ## The commands -/

theorem exec_stbStatusRequest (src : BitVec 48) (seq : BitVec 16) (s : State) :
    exec (.stbStatusRequest src seq) s = .next (irq s (statusRequest s src.toNat seq.toNat)) := rfl

theorem exec_stbFrame (b : List Byte) (s : State) :
    exec (.stbFrame b) s = .next (irq s (if stbEn s = true then stbFrame s b else s)) := rfl

theorem exec_stbCollision (s : State) : exec .stbCollision s =
    .next (irq s (if stbMaySend s = true ∧ plcaEn s = false then stbCollide s else s)) := rfl

theorem exec_stbTransmitOpportunity (collides : Bool) (s : State) : exec (.stbTransmitOpportunity collides) s =
    .next (irq s (if stbMaySend s = false then s
      else if collides = true ∧ plcaEn s = false then stbCollide s else stbSent s)) := rfl

theorem exec_stbBackoffExpiry (s : State) : exec .stbBackoffExpiry s =
    .next (irq s { s with station := { s.station with backoff := none } }) := rfl

theorem exec_plcaBeacon (s : State) :
    exec .plcaBeacon s = .next (irq s (if stbEn s = true then plcaBeacon s else s)) := rfl

theorem exec_plcaLost (s : State) :
    let t := { s with station := { s.station with beaconSeen := false, plcaActive := false } }
    exec .plcaLost s = .next (irq s (if plcaEn s = true then orReg t (bStb + 0x18) 0x4 else t)) := rfl

theorem exec_resetHeldNotice (s : State) : exec .resetHeldNotice s = .next (irq s
    (if s.life.held = true ∧ stbEn s = true then stationQueue s (2 ^ 48 - 1) [5, 1] else s)) := rfl

/-! ## Frames received -/

theorem stbFrame_of_runt (s : State) {b : List Byte} (h : b.length < 64) : stbFrame s b = s := by
  simp only [stbFrame, h, if_true]

/-- A frame of a legal length whose FCS does not fit is counted and nothing else. -/
theorem stbFrame_of_badFcs (s : State) {b : List Byte} (hlo : 64 ≤ b.length) (hhi : b.length ≤ 1518)
    (hfcs : fcsOk b = false) : stbFrame s b = bump s (bStb + 0x108) 1 := by
  have hrunt : ¬b.length < 64 := by omega
  have htrunc : ¬1518 < b.length := by omega
  simp only [stbFrame, stbCount, hrunt, htrunc, hfcs, decide_false, if_false, and_self, if_true]

/-- A frame that is longer, counted as such, or whose FCS fits, is taken by its type and its kind. -/
theorem stbFrame_of_read (s : State) {b : List Byte} (hlo : 64 ≤ b.length)
    (hread : 1518 < b.length ∨ fcsOk b = true) :
    let t := if 1518 < b.length then bump s (bStb + 0x110) 1 else s
    stbFrame s b =
      if beAt b 12 2 ≠ stationEtype t then bump t (bStb + 0x120) 1 else stbKind t (b.take 1518) := by
  intro t
  have hrunt : ¬b.length < 64 := by omega
  have hbad : ¬(decide (1518 < b.length) = false ∧ fcsOk b = false) := by
    rintro ⟨hshort, hfcs⟩
    rcases hread with hlong | hok
    · exact absurd hlong (of_decide_eq_false hshort)
    · exact absurd (hok.symm.trans hfcs) (by decide)
  simp only [stbFrame, stbCount, hrunt, if_false, if_neg hbad, decide_eq_true_eq, t]

/-- What becomes of a frame of the right type: only a status request and a command need more than the count. -/
theorem stbKind_eq (s : State) (x : List Byte) :
    stbKind s x =
      if beAt x 14 1 = 0 ∨ 6 ≤ beAt x 14 1 then bump s (bStb + 0x120) 1
      else if beAt x 14 1 = 1 then statusRequest (bump s (bStb + 0x100) 1) (beAt x 6 6) (beAt x 15 2)
      else if beAt x 14 1 ≠ 3 then bump s (bStb + 0x100) 1
      else if 16 ≤ s.station.rxq.length then bump s (bStb + 0x118) 1
      else bump { s with station := { s.station with rxq := s.station.rxq ++ [x] } } (bStb + 0x100) 1 := by
  rw [ite_not]
  rfl

/-! ## Frames sent -/

theorem stbSent_cons {s : State} {x : List Byte} {l : List (List Byte)} (h : s.station.txq = x :: l) :
    stbSent s = emit (bump { s with station := { s.station with txq := l, attempts := 0 } } (bStb + 0x128) 1)
      (.station x) := by
  simp only [stbSent, h, stbCount]

/-- Settles O59: the frames by their shape, the sending by what the node may do, each other command as it stands. -/
theorem stationBusComplete : Obligations.StationBusComplete := by
  intro s src seq b f n c gone backed collided got reply
  have hcollide : stbCollide s = collided := rfl
  refine ⟨exec_stbStatusRequest src seq s, ?idle, ?badFcs, ?frame, ?collision, ?cannotSend, ?collides, ?sends,
    exec_stbBackoffExpiry s, ?beacon, exec_plcaLost s, exec_resetHeldNotice s⟩
  case idle =>
    intro h
    rw [exec_stbFrame]
    rcases h with hoff | hrunt
    · rw [if_neg (by simp [hoff])]
    · rw [stbFrame_of_runt s hrunt, ite_self]
  case badFcs =>
    intro hen hlo hhi hfcs
    rw [exec_stbFrame, if_pos hen, stbFrame_of_badFcs s hlo hhi hfcs]
  case frame =>
    intro hen hlo hread t x kind kept
    rw [exec_stbFrame, if_pos hen, stbFrame_of_read s hlo hread]
    by_cases htype : beAt b 12 2 ≠ stationEtype t
    · rw [if_pos htype, if_pos (Or.inl htype)]
    · rw [if_neg htype, stbKind_eq]
      simp only [htype, false_or]
      rfl
  case collision => rw [exec_stbCollision, hcollide]
  case cannotSend =>
    intro hno
    rw [exec_stbTransmitOpportunity, if_pos hno]
  case collides =>
    intro hmay hc
    rw [exec_stbTransmitOpportunity, if_neg (by simp [hmay]), if_pos hc, hcollide]
  case sends =>
    intro hmay hclear x l hx t
    have hno : ¬(f = true ∧ plcaEn s = false) := by
      rintro ⟨hf, hp⟩
      simp [hf, hp] at hclear
    rw [exec_stbTransmitOpportunity, if_neg (by simp [hmay]), if_neg hno, stbSent_cons hx]
  case beacon =>
    intro t
    rw [exec_plcaBeacon]
    cases stbEn s <;> rfl

end Sys2Proof.Machine
end

section
/-!
PROOFS. What a tick boundary begins (R32, R64, R116, R137, R321, R389): how a changed table reads, then each step of
the boundary said once.
-/

namespace Sys2Proof.Machine

/-- A read of a table is the value listed at the key, or the default. -/
theorem look_eq_getD {α : Type} [Inhabited α] (t : Table α) (k : Nat) : look t k = (look? t k).getD default := by
  induction t with
  | nil => rfl
  | cons x t ih =>
    obtain ⟨j, v⟩ := x
    simp only [look, look?]
    split
    · rfl
    · exact ih

/-- At a listed key, the changed table holds the changed value. -/
theorem look_mapT_of_listed {α : Type} [Inhabited α] [DecidableEq α] {t : Table α} {k : Nat} (f : Nat → α → α)
    (h : look? t k ≠ none) : look (mapT t f) k = f k (look t k) := by
  obtain ⟨v, hv⟩ := Option.ne_none_iff_exists'.1 h
  rw [look_mapT, look_eq_getD, hv]
  rfl

/-- At an unlisted key, the changed table holds the default. -/
theorem look_mapT_of_unlisted {α : Type} [Inhabited α] [DecidableEq α] {t : Table α} {k : Nat} (f : Nat → α → α)
    (h : look? t k = none) : look (mapT t f) k = default := by
  rw [look_mapT, h]

/-- A change that leaves the default alone is read at every key, listed or not. -/
theorem look_mapT_of_default {α : Type} [Inhabited α] [DecidableEq α] (t : Table α) {k : Nat} {f : Nat → α → α}
    (h : f k default = default) : look (mapT t f) k = f k (look t k) := by
  by_cases hk : look? t k = none
  · rw [look_mapT_of_unlisted f hk, look_eq_getD, hk]
    exact h.symm
  · exact look_mapT_of_listed f hk

/-! ## What a boundary begins (R32, R116, R137) -/

theorem makesPass_iff (s : State) (c : Nat) (t : Timetable) : makesPass s c t = true ↔
    (t.state = .running ∨ t.state = .withdrawing) ∧ (part s (partOfCtx c)).state = .opened := by
  simp only [makesPass, Bool.and_eq_true, Bool.or_eq_true, decide_eq_true_eq]

/-- A context without a timetable makes no pass. -/
theorem makesPass_default (s : State) (c : Nat) : makesPass s c default = false := rfl

theorem ttOf_beginPasses (s : State) (c : Nat) : ttOf (beginPasses s) c =
    if makesPass s c (ttOf s c) = true then freshPass (ttOf s c) else ttOf s c :=
  look_mapT_of_default s.tts (by rw [makesPass_default, if_neg Bool.false_ne_true])

theorem ctxOf_beginPasses_of_listed {s : State} {c : Nat} (htt : (ttOf s c).state ≠ .none)
    (h : look? s.ctxs c ≠ none) :
    ctxOf (beginPasses s) c = { ctxOf s c with ticks := (ctxOf s c).ticks + 1 } :=
  (look_mapT_of_listed _ h).trans (if_neg htt)

theorem ctxOf_beginPasses_of_noTimetable {s : State} {c : Nat} (h : (ttOf s c).state = .none) :
    ctxOf (beginPasses s) c = ctxOf s c :=
  (look_mapT_of_default s.ctxs (if_pos h)).trans (if_pos h)

/-- A timetable as the level beacon leaves it. -/
theorem ttOf_levelStops_of_beacon {s : State} (hb : s.level = .beacon) (hc : coresRun s = true) (c : Nat) :
    ttOf (levelStops s) c = if (ttOf s c).state = .running
      then { ttOf s c with state := .suspended, ran := false } else ttOf s c := by
  simp only [levelStops, hb, hc, if_true]
  exact look_mapT_of_default s.tts (if_neg (by decide))

theorem levelStops_of_full {s : State} (h : s.level = .full) : levelStops s = s := by
  simp only [levelStops, h]

theorem ctrlT_tenantSettings (s : State) (f : Nat) :
    (vfOf (tenantSettings s) f).ctrlT = if look? s.vfs f = none then 0 else (vfOf s f).tctrl := by
  unfold vfOf tenantSettings
  split
  · next h => rw [look_mapT_of_unlisted _ h]; rfl
  · next h => rw [look_mapT_of_listed _ h]

/-- A die's draw is shown in its register, whether or not it passes the die's limit. -/
theorem reg_powerReading (s : State) {d : Nat} (hd : d < 64) (mw : Nat) :
    reg (powerReading s d mw) (bDie + 0xA00 + 4 * d) = min mw 65535 := by
  have hword : (bDie + 0xA00 + 4 * d) / 4 ≠ (bDie + 0x18) / 4 := by omega
  have hfits : min mw 65535 % 2 ^ 32 = min mw 65535 := Nat.mod_eq_of_lt (by omega)
  simp only [powerReading, hd, if_true]
  split
  · rw [reg_orReg_ne _ _ hword, reg_setReg_self, hfits]
  · rw [reg_setReg_self, hfits]

/-- Settles O45: the passes, the level, the settings and the count, each by the lemma on the step that makes it. -/
theorem whatABoundaryBegins : Obligations.WhatABoundaryBegins := by
  intro s c f t runs
  have hpasses := makesPass_iff s c t
  refine ⟨fun h => ?fresh, fun h => ?kept, fun htt hc => ?ticks, ctxOf_beginPasses_of_noTimetable, levelStops_of_full,
    fun hb hc => ⟨fun h => ?stopped, fun h => ?left⟩, ctrlT_tenantSettings s f, fun p power => ?tick⟩
  case fresh => rw [ttOf_beginPasses, if_pos (hpasses.2 h)]
  case kept => rw [ttOf_beginPasses, if_neg (mt hpasses.1 h)]
  case ticks => rw [ctxOf_beginPasses_of_listed htt hc]
  case stopped => rw [ttOf_levelStops_of_beacon hb hc, if_pos h]; exact ⟨rfl, rfl⟩
  case left => rw [ttOf_levelStops_of_beacon hb hc, if_neg h]
  case tick => exact ⟨rfl, rfl, rfl, fun h => if_pos h, fun hd => reg_powerReading s hd p⟩

end Sys2Proof.Machine
end

section
/-!
PROOFS. The tick generator (R16–R24, R41, R435): writes of its configuration, its timers and its sources of time. Each
command is said once, then each change of the generator that several of them share.
-/

namespace Sys2Proof.Machine

/-! ## The commands -/

theorem exec_tckCtrlWrite (v : View) (data : BitVec 32) (s : State) : exec (.tckCtrlWrite v data) s =
    .next (irq s (if hasAccess v = true then tckCtrl s data.toNat else s)) := rfl

theorem exec_tckPhaseWrite (v : View) (data : BitVec 32) (s : State) : exec (.tckPhaseWrite v data) s =
    .next (irq s (if hasAccess v = true then tckPhase s (bits data.toNat 19 0) else s)) := rfl

theorem exec_lockTimerExpiry (s : State) : exec .lockTimerExpiry s =
    .next (irq s (if comingState s = .acquiring ∧ inLock s = true then changeState s .locked else s)) := rfl

theorem exec_lostTimerExpiry (s : State) : exec .lostTimerExpiry s =
    .next (irq s (if comingState s = .locked ∧ lostPs s < s.tick.te.natAbs then changeState s .acquiring else s)) := rfl

theorem exec_servoUpdateTimeout (s : State) : exec .servoUpdateTimeout s =
    .next (irq s (if comingState s = .locked then changeState s .holdover else s)) := rfl

theorem exec_announceReceiptTimeout (s : State) :
    exec .announceReceiptTimeout s = .next (irq s (forgetMasters s)) := rfl

theorem exec_holdoverExpiry (s : State) : exec .holdoverExpiry s =
    .next (irq s (if holdOver s = true then changeState s .expired else s)) := rfl

theorem exec_ptpAnnounce (port sub : Nat) (a : Announce) (s : State) :
    exec (.ptpAnnounce port sub a) s = .next (irq s (ptpAnnounce s port sub a)) := rfl

theorem exec_ptpSync (port sub : Nat) (err : Int) (s : State) : exec (.ptpSync port sub err) s =
    .next (irq s (if isPtpPort s port sub = true ∧ s.tick.ptpOk = true ∧ followEn s = false then
      servoUpdate s err else s)) := rfl

theorem exec_esmcMessage (port sub : Nat) (ssm : BitVec 4) (s : State) : exec (.esmcMessage port sub ssm) s =
    .next (irq s (if isSyncePort s port sub = true then
      { s with tick := { s.tick with synceQl := ssm } } else s)) := rfl

theorem exec_synceStatusChange (present : Bool) (s : State) :
    exec (.synceStatusChange present) s = .next (irq s (synceStatus s present)) := rfl

theorem exec_ptpDelayReq (off : Nat) (s : State) : exec (.ptpDelayReq off) s =
    .next (irq s (ptpDelayReq { s with tick := { s.tick with off := off } })) := rfl

/-! ## Masters and references -/

/-- No master is heard any more (R17). -/
def mastersGone (s : State) : State :=
  { s with tick := { s.tick with masters := [], selected := none, ptpOk := false } }

theorem forgetMasters_eq (s : State) : forgetMasters s =
    if followEn s = false ∧ comingState s = .locked then changeState (mastersGone s) .holdover else mastersGone s := by
  change (if followEn s = true then mastersGone s
    else if comingState s = .locked then changeState (mastersGone s) .holdover else mastersGone s) = _
  cases followEn s <;> simp

theorem referenceFound_eq (s : State) : referenceFound s =
    if comingState s = .freeRun ∨ comingState s = .expired then changeState s .acquiring
    else if comingState s = .holdover then changeState s (if inLock s = true then .locked else .acquiring)
    else s := by
  cases h : comingState s <;> simp [referenceFound, h]

@[simp] theorem referenceFound_te (s : State) : (referenceFound s).tick.te = s.tick.te := by
  cases h : comingState s <;> simp [referenceFound, h, changeState]

theorem holdOver_iff (s : State) : holdOver s = true ↔
    comingState s = .holdover ∧ holdLimit s * 1000000000 < s.tick.holdNs + acToNs s.tick.off := by
  simp only [holdOver, Bool.and_eq_true, decide_eq_true_eq]

/-! ## The state to come takes effect -/

/-- The generator in a state, with no change pending (R32). -/
def stateTaken (s : State) (st : TickState) : State :=
  { s with tick := { s.tick with
    state := st, next := none
    holdNs := if st = .holdover ∧ s.tick.state = .holdover then s.tick.holdNs else 0
    slew := if st = .acquiring ∨ st = .locked then s.tick.slew else 0 } }

/-- What entering a state does beside the change itself: its event bits, and the loss of timing (R22). -/
theorem enterState_nonePending (s : State) (st : TickState) : enterState (nonePending s) st =
    if st = .locked then orReg (stateTaken s st) (bTck + 0x30) 0x1
    else if st = .holdover then orReg (stateTaken s st) (bTck + 0x30) 0x2
    else if st = .expired ∨ (st = .acquiring ∧ (s.tick.state = .locked ∨ s.tick.state = .holdover)) then
      timingLost (stateTaken s st)
    else stateTaken s st := rfl

theorem takeTickState_of_none {s : State} (h : s.tick.next = none) : takeTickState s = s := by
  simp only [takeTickState, h]

/-- Only Acquiring can begin a step. -/
theorem takeTickState_of_ne_acquiring {s : State} {st : TickState} (h : s.tick.next = some st)
    (hst : st ≠ .acquiring) : takeTickState s = enterState (nonePending s) st := by
  simp only [takeTickState, h, hst, false_and, if_false]

theorem takeTickState_of_acquiring {s : State} (h : s.tick.next = some .acquiring) :
    let e := enterState (nonePending s) .acquiring
    takeTickState s = if inLock e = false ∧ noneRuns e = true then enterStepping e else e := by
  simp only [takeTickState, h, true_and]

/-- Settles O15: each timer by its condition, the state to come by the state it is. -/
theorem generatorTimersAndReferences : Obligations.GeneratorTimersAndReferences := by
  intro s c gone
  have hgone : gone = mastersGone s := rfl
  have hover := holdOver_iff s
  refine ⟨fun hc hl => ?lock, fun h => ?noLock, fun hc hl => ?lost, fun h => ?noLost, fun hc => ?servo,
    fun hc => ?noServo, fun hc hf => ?announce, fun h => ?noAnnounce, fun hc hl => ?expiry, fun h => ?noExpiry,
    takeTickState_of_none, fun st hn => ?taken⟩
  case lock => rw [exec_lockTimerExpiry, if_pos ⟨hc, hl⟩]
  case noLock =>
    rw [exec_lockTimerExpiry, if_neg]
    rintro ⟨hc, hl⟩
    rcases h with h | h
    · exact h hc
    · exact ne_true_of_eq_false h hl
  case lost => rw [exec_lostTimerExpiry, if_pos ⟨hc, hl⟩]
  case noLost =>
    rw [exec_lostTimerExpiry, if_neg]
    rintro ⟨hc, hl⟩
    rcases h with h | h
    · exact h hc
    · omega
  case servo => rw [exec_servoUpdateTimeout, if_pos hc]
  case noServo => rw [exec_servoUpdateTimeout, if_neg hc]
  case announce => rw [exec_announceReceiptTimeout, forgetMasters_eq, if_pos ⟨hf, hc⟩, hgone]
  case noAnnounce =>
    rw [exec_announceReceiptTimeout, forgetMasters_eq, if_neg, hgone]
    rintro ⟨hf, hc⟩
    rcases h with h | h
    · exact h hc
    · exact ne_true_of_eq_false hf h
  case expiry => rw [exec_holdoverExpiry, if_pos (hover.2 ⟨hc, hl⟩)]
  case noExpiry =>
    rw [exec_holdoverExpiry, if_neg]
    intro ho
    obtain ⟨hc, hl⟩ := hover.1 ho
    rcases h with h | h
    · exact h hc
    · omega
  case taken =>
    intro old t lost
    have hold : old = s.tick.state := rfl
    refine ⟨?locked, ?holdover, ?expired, ?quiet, ?acquiring⟩
    case locked => rintro rfl; exact (takeTickState_of_ne_acquiring hn (by decide)).trans (enterState_nonePending s _)
    case holdover => rintro rfl; exact (takeTickState_of_ne_acquiring hn (by decide)).trans (enterState_nonePending s _)
    case expired => rintro rfl; exact (takeTickState_of_ne_acquiring hn (by decide)).trans (enterState_nonePending s _)
    case quiet =>
      rintro (rfl | rfl) <;>
        exact (takeTickState_of_ne_acquiring hn (by decide)).trans (enterState_nonePending s _)
    case acquiring =>
      rintro rfl
      rw [takeTickState_of_acquiring hn, enterState_nonePending]
      simp only [reduceCtorEq, if_false, false_or, true_and]
      rfl

/-! ## Writes of the configuration -/

theorem tckCtrl_eq (s : State) (data : Nat) :
    let new := ctrlFields (reg s bTck) data
    let t := ctrlTaken s new
    tckCtrl s data =
      if bits data 2 0 = bits (reg s bTck) 2 0 then t
      else if periodTaken t (bits data 2 0) = true then
        enterStepping (setReg t bTck (new - bits new 2 0 + bits data 2 0))
      else orReg t (bTck + 0x30) 0x40 := rfl

theorem tckPhase_eq (s : State) (ph : Nat) : tckPhase s ph =
    if ph = reg s (bTck + 0xC) then s
    else if noneRuns s = true ∧ ph < periodNs (periodCode s) then enterStepping (setReg s (bTck + 0xC) ph)
    else orReg s (bTck + 0x30) 0x40 := by
  simp only [tckPhase, phaseTaken, Bool.and_eq_true, decide_eq_true_eq]

/-- Settles O14: the fields other than PERIOD by what forgetting the masters does, PERIOD and the phase by whether they
change and are taken. -/
theorem tickConfigurationWrites : Obligations.TickConfigurationWrites := by
  intro s v data old new code ph gone a b c t
  have htaken : ctrlTaken s new = t := by
    have hb : (if ptpMoved old new = true then forgetMasters a else a) = b := by rw [forgetMasters_eq]; rfl
    change holdCheck (if synceMoved old new = true then moveSynce _ else _) = t
    rw [hb]
    rfl
  refine ⟨fun hv => ⟨?ctrlShut, ?phaseShut⟩, fun hv => ?ctrl, fun hv => ?phase⟩
  case ctrlShut => rw [exec_tckCtrlWrite, if_neg (ne_true_of_eq_false hv)]
  case phaseShut => rw [exec_tckPhaseWrite, if_neg (ne_true_of_eq_false hv)]
  case ctrl =>
    rw [exec_tckCtrlWrite, if_pos hv, tckCtrl_eq, htaken]
    refine ⟨fun hsame => ?_, fun hne htake => ?_, fun hne hno => ?_⟩
    · rw [if_pos hsame]
    · rw [if_neg hne, if_pos htake]
    · rw [if_neg hne, if_neg (ne_true_of_eq_false hno)]
  case phase =>
    rw [exec_tckPhaseWrite, if_pos hv, tckPhase_eq]
    refine ⟨fun hsame => ?_, fun hne hnone hlt => ?_, fun hne hno => ?_⟩
    · rw [if_pos hsame]
    · rw [if_neg hne, if_pos ⟨hnone, hlt⟩]
    · rw [if_neg hne, if_neg]
      rintro ⟨hnone, hlt⟩
      rcases hno with hruns | hle
      · exact ne_true_of_eq_false hruns hnone
      · omega

/-! ## Messages -/

/-- What the servo does with a new error, once the reference it brings is seen. -/
theorem servoUpdate_eq (s : State) (err : Int) :
    let moved := { s with tick := { s.tick with te := Config.servoFilter s.tick.te err } }
    let u := if comingState s = .holdover then referenceFound moved else moved
    servoUpdate s err =
      if u.tick.state = .acquiring ∧ inLock u = false then
        (if noneRuns u = true then enterStepping u
          else { u with tick := { u.tick with slew := if u.tick.te < 0 then 1 else -1 } })
      else { u with tick := { u.tick with slew := 0 } } := by
  intro moved u
  have hte : u.tick.te = Config.servoFilter s.tick.te err := by
    simp only [u]
    split
    · exact referenceFound_te moved
    · rfl
  rw [hte]
  rfl

/-- Settles O16: each message by the port it comes on, and what a reference found makes of the generator. -/
theorem ptpAndSyncMessages : Obligations.PtpAndSyncMessages := by
  intro s port sub a err ssm present off ms heard found moved u ok at' k
  have hfound : ∀ t, found t = referenceFound t := fun t => (referenceFound_eq t).symm
  have hu : u = if comingState s = .holdover then referenceFound moved else moved := by simp only [u, hfound]
  refine ⟨fun hp hd => ?announce, fun h => ?noAnnounce, fun hp hok hf => ?sync, fun h => ?noSync, fun hp => ?esmc,
    fun hp => ?noEsmc, exec_synceStatusChange present s, exec_ptpDelayReq off s⟩
  case announce =>
    rw [exec_ptpAnnounce, ptpAnnounce, if_pos ⟨hp, hd⟩, hfound]
    rfl
  case noAnnounce =>
    rw [exec_ptpAnnounce, ptpAnnounce, if_neg]
    rintro ⟨hp, hd⟩
    rcases h with h | h
    · exact ne_true_of_eq_false h hp
    · exact h hd
  case sync => rw [exec_ptpSync, if_pos ⟨hp, hok, hf⟩, servoUpdate_eq, hu]
  case noSync =>
    rw [exec_ptpSync, if_neg]
    rintro ⟨hp, hok, hf⟩
    simp [hp, hok, hf] at h
  case esmc => rw [exec_esmcMessage, if_pos hp]
  case noEsmc => rw [exec_esmcMessage, if_neg (ne_true_of_eq_false hp)]

end Sys2Proof.Machine
end

section
/-!
PROOFS. The signal bus (R36–R39, R43) and the refresh beats (R29, R192).
-/

namespace Sys2Proof.Machine

/-! ## The answer of the signal bus -/

theorem exec_sigPollGapRead (v : View) (s : State) : exec (.sigPollGapRead v) s =
    .next (irq s (if hasAccess v = true then
      emit (setReg s (bSig + 0xC) 0) (.regData (BitVec.ofNat 64 (reg s (bSig + 0xC))))
      else emit s (.regData 0))) := rfl

theorem answerNow_of_poweringOff {s : State} (h : s.life.poweringOff = true) : answerNow s = 0 := if_pos h

theorem answerNow_of_held {s : State} (hp : s.life.poweringOff = false) (hh : s.life.held = true) :
    answerNow s = 3 := by
  simp [answerNow, hp, hh]

theorem answerNow_of_not_alive {s : State} (hp : s.life.poweringOff = false) (hh : s.life.held = false)
    (ha : s.life.alive = false) : answerNow s = 0 := by
  simp [answerNow, hp, hh, ha]

/-- After BOOT_DONE, the answer tells the generator's lock and the level (R39). -/
theorem answerNow_of_alive {s : State} (hp : s.life.poweringOff = false) (hh : s.life.held = false)
    (ha : s.life.alive = true) :
    answerNow s = BitVec.ofNat 4 (8 + (if s.tick.state = .locked ∨ s.tick.state = .holdover then 4 else 0)
      + levelCode s.level) := by
  have hlock : 4 * ofBool (tickLocked s) = if s.tick.state = .locked ∨ s.tick.state = .holdover then 4 else 0 := by
    simp [ofBool, tickLocked, mul_ite]
  simp only [answerNow, hp, hh, ha, Bool.false_eq_true, Bool.true_eq_false, if_false, hlock]

/-- Settles O17: the polls as they stand, the answer by the state of the part. -/
theorem signalBusAnswers : Obligations.SignalBusAnswers := by
  intro s gap v
  refine ⟨rfl, fun hv => ?read, fun hv => ?shut, rfl, rfl, answerNow_of_poweringOff,
    fun hp => ⟨answerNow_of_held hp, answerNow_of_not_alive hp, answerNow_of_alive hp⟩⟩
  case read => rw [exec_sigPollGapRead, if_pos hv]
  case shut => rw [exec_sigPollGapRead, if_neg (ne_true_of_eq_false hv)]

/-! ## Refresh beats -/

theorem exec_refreshBeat (pc off : Nat) (s : State) : exec (.refreshBeat pc off) s =
    .next (irq s (if pc < 256 ∧ beatStarts (tickLen s) pc off = true ∧ s.tick.state ≠ .stepping then
      emit { s with tick := { s.tick with off := off } } (.refresh pc off) else s)) := rfl

theorem beatStarts_iff (len pc off : Nat) : beatStarts len pc off = true ↔
    732 * (pc % 8) ≤ off ∧ (off - 732 * (pc % 8)) % 5856 = 0 ∧ off + 128 ≤ len := by
  simp only [beatStarts, Bool.and_eq_true, decide_eq_true_eq, and_assoc]
  rfl

/-- Settles O18, by when a beat starts. -/
theorem refreshBeats : Obligations.RefreshBeats := by
  intro s pc off
  have hstarts := beatStarts_iff (tickLen s) pc off
  refine ⟨fun hpc hphase hbeat hend hstep => ?beat, fun h => ?noBeat⟩
  case beat => rw [exec_refreshBeat, if_pos ⟨hpc, hstarts.2 ⟨hphase, hbeat, hend⟩, hstep⟩]
  case noBeat =>
    rw [exec_refreshBeat, if_neg]
    rintro ⟨hpc, hb, hstep⟩
    obtain ⟨hphase, hbeat, hend⟩ := hstarts.1 hb
    rcases h with h | h | h | h | h
    · omega
    · omega
    · exact h hbeat
    · omega
    · exact hstep h

end Sys2Proof.Machine
end

section
/-!
PROOFS. Boundaries of ticks and slices, ends of steps and changeovers (R18, R23, R24, R27, R32, R75, R120, R177).
-/

namespace Sys2Proof.Machine

theorem exec_tickBoundary (power : List (Nat × Nat)) (s : State) : exec (.tickBoundary power) s =
    .next (irq s (if s.tick.state ≠ .stepping ∧ (activeStarts s).length ≤ s.tick.slice + 1 then
      boundary s (s.tick.boundaryNs + periodNs (periodCode s)) power else s)) := rfl

theorem exec_stepEnd (close : StepClose) (s : State) : exec (.stepEnd close) s =
    .next (irq s (if s.tick.state = .stepping ∧ notShort s close.ns = true ∧ aligned s close.ns = true then
      afterStep (boundary s close.ns close.powerMw) else s)) := rfl

theorem exec_sliceBoundary (i : Nat) (s : State) : exec (.sliceBoundary i) s =
    .next (irq s (if s.tick.state ≠ .stepping ∧ i = s.tick.slice + 1 ∧ i < (activeStarts s).length then
      sliceOpens s i else s)) := rfl

theorem exec_changeoverEnd (i : Nat) (s : State) : exec (.changeoverEnd i) s =
    .next (irq s (if i = s.tick.slice ∧ s.changing ≠ [] then changeoverOver s else s)) := rfl

/-- A PTP time ends a lengthened tick where it is aligned and does not shorten it (R18, R23). -/
theorem notShort_and_aligned_iff (s : State) (ns : Nat) : notShort s ns = true ∧ aligned s ns = true ↔
    s.tick.boundaryNs + s.tick.openNs ≤ ns ∧
      ns % periodNs (periodCode s) = reg s (bTck + 0xC) % periodNs (periodCode s) := by
  simp only [notShort, aligned, decide_eq_true_eq]

/-- Settles O44: each command by the moment it acts at. -/
theorem boundariesComplete : Obligations.BoundariesComplete := by
  intro s power ns i p last ends
  have hends : notShort s ns = true ∧ aligned s ns = true ↔ ends := notShort_and_aligned_iff s ns
  refine ⟨fun hstep hlast => ?tick, fun h => ?noTick, fun hstep he => ?step, fun h => ?noStep,
    fun hstep hi hlt => ?slice, fun h => ?noSlice, fun hi hc => ?changeover, fun h => ?noChangeover⟩
  case tick => rw [exec_tickBoundary, if_pos ⟨hstep, hlast⟩]
  case noTick =>
    rw [exec_tickBoundary, if_neg]
    rintro ⟨hstep, hlast⟩
    exact h.elim hstep fun hno => hno hlast
  case step =>
    rw [exec_stepEnd, if_pos ⟨hstep, hends.2 he⟩]
    rfl
  case noStep =>
    rw [exec_stepEnd, if_neg]
    rintro ⟨hstep, he⟩
    exact h.elim (fun hno => hno hstep) fun hno => hno (hends.1 he)
  case slice =>
    rw [exec_sliceBoundary, if_pos ⟨hstep, hi, hlt⟩]
    rfl
  case noSlice =>
    rw [exec_sliceBoundary, if_neg]
    rintro ⟨hstep, hi, hlt⟩
    rcases h with h | h | h
    · exact hstep h
    · exact h hi
    · omega
  case changeover =>
    rw [exec_changeoverEnd, if_pos ⟨hi, hc⟩, hi]
    rfl
  case noChangeover =>
    rw [exec_changeoverEnd, if_neg]
    rintro ⟨hi, hc⟩
    exact h.elim (fun hno => hno hi) hc

end Sys2Proof.Machine
end

section
/-!
PROOFS. Plan swaps and radio reservations (R26, R28, R293, R431): the refusals of each in their order.
-/

namespace Sys2Proof.Machine

/-- The PLAN codes are none of the general codes (R337). -/
theorem stPlan_ne_stBadOpcode (c : Nat) : stPlan c ≠ stBadOpcode := by
  unfold stPlan stBadOpcode
  omega

theorem answer_planSwap (s : State) (h : CmdHdr) :
    let u := taken s h
    let c := planCode u (swapPlan u) (nextTick u)
    let row : OpRow := { opcode := 0x0101, agent := 1, pends := true }
    let i := cmdIndex s h.src
    answer u h row i (planSwapBody h u i) =
      if c ≠ 0 then turnedAway s h 1 (stPlan c) 0
      else fulfilled s (addEffect u h i (nextTick u) (.planSwap (shadowN u) (shadowStarts u))) h 1 (nextTick u) 0 := by
  intro u c row i
  by_cases hc : c ≠ 0
  · rw [planSwapBody, if_pos hc, if_pos hc]
    exact answer_refuseAt s h row 0 (stPlan_ne_stBadOpcode c)
  · rw [planSwapBody, if_neg hc, if_neg hc]
    exact answer_acceptAt s _ h row (nextTick u) 0

theorem answer_radioReserve (s : State) (h : CmdHdr) (p boundary : Nat) (slices : BitVec 16) (qmask : BitVec 160) :
    let u := taken s h
    let row : OpRow := { opcode := 0x0102, agent := 1, pends := true }
    let i := cmdIndex s h.src
    let b := if boundary = 0 then tickAfter4096 u else boundary
    let c := reserveCode u p b slices qmask
    answer u h row i (radioReserveBody h p slices boundary qmask u i) =
      if (part u p).state ≠ .opened ∨ (part u p).radio = false then turnedAway s h 1 stState 0
      else if late4096 u boundary = true then turnedAway s h 1 stLate boundary
      else if c ≠ 0 then turnedAway s h 1 (stPlan c) 0
      else fulfilled s (addEffect u h i b (.reserve p slices qmask)) h 1 b 0 := by
  intro u row i b c
  rw [radioReserveBody]
  by_cases hstate : (part u p).state ≠ .opened ∨ (part u p).radio = false
  · rw [if_pos hstate, if_pos hstate]
    exact answer_refuseAt s h row 0 (by decide)
  rw [if_neg hstate, if_neg hstate]
  by_cases hlate : late4096 u boundary = true
  · rw [if_pos hlate, if_pos hlate]
    exact answer_refuseAt s h row boundary (by decide)
  rw [if_neg hlate, if_neg hlate]
  by_cases hc : c ≠ 0
  · rw [if_pos hc, if_pos hc]
    exact answer_refuseAt s h row 0 (stPlan_ne_stBadOpcode c)
  · rw [if_neg hc, if_neg hc]
    exact answer_acceptAt s _ h row b 0

/-- Settles O41: what each command's own checks answer, in their order. -/
theorem planCommandsComplete : Obligations.PlanCommandsComplete := by
  intro s h u i
  refine ⟨fun ht => ?swap, fun p boundary slices qmask ht => ?reserve⟩
  case swap => exact exec_of_answer rfl (by decide) rfl ht (answer_planSwap s h)
  case reserve => exact exec_of_answer rfl (by decide) rfl ht (answer_radioReserve s h p boundary slices qmask)

end Sys2Proof.Machine
end

section
/-!
PROOFS. Every command keeps the queue, the wire and the fused map (R57, R334): what Laws/Grows says of each operation,
said of exec.
-/

namespace Sys2Proof.Machine

/-- What no command undoes (Grows), of every command: each arm of exec by the law of its operation. -/
theorem grows_exec (c : Instr) (s : State) : OGrows s (exec c s) :=
  match c with
  | .registerWrite .. => grows_execRegisterWrite (.refl s) ..
  | .counterLowWordRead .. => grows_execCounterLowWordRead (.refl s) ..
  | .tckCtrlWrite .. => grows_execTckCtrlWrite (.refl s) ..
  | .tckPhaseWrite .. => grows_execTckPhaseWrite (.refl s) ..
  | .stepEnd .. => grows_execStepEnd (.refl s) ..
  | .ptpAnnounce .. => grows_execPtpAnnounce (.refl s) ..
  | .ptpSync .. => grows_execPtpSync (.refl s) ..
  | .ptpDelayReq .. => grows_execPtpDelayReq (.refl s) ..
  | .esmcMessage .. => grows_execEsmcMessage (.refl s) ..
  | .synceStatusChange .. => grows_execSynceStatusChange (.refl s) ..
  | .lockTimerExpiry => grows_execLockTimerExpiry (.refl s)
  | .lostTimerExpiry => grows_execLostTimerExpiry (.refl s)
  | .announceReceiptTimeout => grows_execAnnounceReceiptTimeout (.refl s)
  | .servoUpdateTimeout => grows_execServoUpdateTimeout (.refl s)
  | .holdoverExpiry => grows_execHoldoverExpiry (.refl s)
  | .tickBoundary .. => grows_execTickBoundary (.refl s) ..
  | .sliceBoundary .. => grows_execSliceBoundary (.refl s) ..
  | .changeoverEnd .. => grows_execChangeoverEnd (.refl s) ..
  | .refreshBeat .. => grows_execRefreshBeat (.refl s) ..
  | .sigPoll .. => grows_execSigPoll (.refl s) ..
  | .sigPollGapRead .. => grows_execSigPollGapRead (.refl s) ..
  | .seqWait .. => grows_execSeqWait (.refl s) ..
  | .seqFire .. => grows_execSeqFire (.refl s) ..
  | .seqFireIf .. => grows_execSeqFireIf (.refl s) ..
  | .seqFold .. => grows_execSeqFold (.refl s) ..
  | .seqLoad .. => grows_execSeqLoad (.refl s) ..
  | .seqSelect .. => grows_execSeqSelect (.refl s) ..
  | .seqRead .. => grows_execSeqRead (.refl s) ..
  | .rawReadout .. => grows_execRawReadout (.refl s) ..
  | .seqEnd .. => grows_execSeqEnd (.refl s) ..
  | .tagFiring .. => grows_execTagFiring (.refl s) ..
  | .exactMerge .. => grows_execExactMerge (.refl s) ..
  | .sfExponential .. => grows_execSfExponential (.refl s) ..
  | .sfLogarithm .. => grows_execSfLogarithm (.refl s) ..
  | .sfReciprocal .. => grows_execSfReciprocal (.refl s) ..
  | .sfReciprocalSquareRoot .. => grows_execSfReciprocalSquareRoot (.refl s) ..
  | .sfSigmoid .. => grows_execSfSigmoid (.refl s) ..
  | .sfTanh .. => grows_execSfTanh (.refl s) ..
  | .softmaxPass1 .. => grows_execSoftmaxPass1 (.refl s) ..
  | .softmaxPass2 .. => grows_execSoftmaxPass2 (.refl s) ..
  | .radix4Butterfly .. => grows_execRadix4Butterfly (.refl s) ..
  | .minSumCheckNodeUpdate .. => grows_execMinSumCheckNodeUpdate (.refl s) ..
  | .minSumDemapping .. => grows_execMinSumDemapping (.refl s) ..
  | .memoryTileRead .. => grows_execMemoryTileRead (.refl s) ..
  | .memoryTileWrite .. => grows_execMemoryTileWrite (.refl s) ..
  | .coreFiring .. => grows_execCoreFiring (.refl s) ..
  | .coreBudgetExpiry .. => grows_execCoreBudgetExpiry (.refl s) ..
  | .coreAlu .. => grows_execCoreAlu (.refl s) ..
  | .coreMul .. => grows_execCoreMul (.refl s) ..
  | .coreBranch .. => grows_execCoreBranch (.refl s) ..
  | .coreJump .. => grows_execCoreJump (.refl s) ..
  | .coreLoad .. => grows_execCoreLoad (.refl s) ..
  | .coreStore .. => grows_execCoreStore (.refl s) ..
  | .rdcycle .. => grows_execRdcycle (.refl s) ..
  | .coreIllegalInstruction .. => grows_execCoreIllegalInstruction (.refl s) ..
  | .sPop .. => grows_execSPop (.refl s) ..
  | .sPush .. => grows_execSPush (.refl s) ..
  | .sGet .. => grows_execSGet (.refl s) ..
  | .sPut .. => grows_execSPut (.refl s) ..
  | .sLdw .. => grows_execSLdw (.refl s) ..
  | .sStw .. => grows_execSStw (.refl s) ..
  | .sCtr .. => grows_execSCtr (.refl s) ..
  | .sTag .. => grows_execSTag (.refl s) ..
  | .sSettag .. => grows_execSSettag (.refl s) ..
  | .sEnd .. => grows_execSEnd (.refl s) ..
  | .tickClose .. => grows_execTickClose (.refl s) ..
  | .ttbTraceArm .. => grows_execTtbTraceArm (.refl s) ..
  | .dlbEnWrite .. => grows_execDlbEnWrite (.refl s) ..
  | .hbmSlotRead .. => grows_execHbmSlotRead (.refl s) ..
  | .hbmSlotWrite .. => grows_execHbmSlotWrite (.refl s) ..
  | .requestReady .. => grows_execRequestReady (.refl s) ..
  | .entryOffset .. => grows_execEntryOffset (.refl s) ..
  | .exitResult .. => grows_execExitResult (.refl s) ..
  | .fillStart .. => grows_execFillStart (.refl s) ..
  | .fillComplete .. => grows_execFillComplete (.refl s) ..
  | .scanComplete .. => grows_execScanComplete (.refl s) ..
  | .libInstallDone .. => grows_execLibInstallDone (.refl s) ..
  | .engineAccess .. => grows_execEngineAccess (.refl s) ..
  | .rekeyStart .. => grows_execRekeyStart (.refl s) ..
  | .rekeyDone .. => grows_execRekeyDone (.refl s) ..
  | .pageClearDone .. => grows_execPageClearDone (.refl s) ..
  | .epochGrant .. => grows_execEpochGrant (.refl s) ..
  | .hostPoolRead .. => grows_execHostPoolRead (.refl s) ..
  | .hostPoolWrite .. => grows_execHostPoolWrite (.refl s) ..
  | .stalledWriteResume .. => grows_execStalledWriteResume (.refl s) ..
  | .memScrubDue => grows_execMemScrubDue (.refl s)
  | .scrubDone => grows_execScrubDone (.refl s)
  | .frameSfd .. => grows_execFrameSfd (.refl s) ..
  | .frameHeaderDecision .. => grows_execFrameHeaderDecision (.refl s) ..
  | .requestDescriptorsArrived .. => grows_execRequestDescriptorsArrived (.refl s) ..
  | .frameEnd .. => grows_execFrameEnd (.refl s) ..
  | .verdict .. => grows_execVerdict (.refl s) ..
  | .replyHandover .. => grows_execReplyHandover (.refl s) ..
  | .replySeqGrant .. => grows_execReplySeqGrant (.refl s) ..
  | .txFrame .. => grows_execTxFrame (.refl s) ..
  | .egressChoice .. => grows_execEgressChoice (.refl s) ..
  | .macLinkChange .. => grows_execMacLinkChange (.refl s) ..
  | .macSplitWrite .. => grows_execMacSplitWrite (.refl s) ..
  | .srtShadowRuleWrite .. => grows_execSrtShadowRuleWrite (.refl s) ..
  | .srtCopyDone => grows_execSrtCopyDone (.refl s)
  | .egsRingWrite .. => grows_execEgsRingWrite (.refl s) ..
  | .segRadioWaitRead .. => grows_execSegRadioWaitRead (.refl s) ..
  | .cipherMessageSubmit .. => grows_execCipherMessageSubmit (.refl s) ..
  | .enginePeriod .. => grows_execEnginePeriod (.refl s) ..
  | .stbFrame .. => grows_execStbFrame (.refl s) ..
  | .stbStatusRequest .. => grows_execStbStatusRequest (.refl s) ..
  | .stbCollision => grows_execStbCollision (.refl s)
  | .stbBackoffExpiry => grows_execStbBackoffExpiry (.refl s)
  | .plcaLost => grows_execPlcaLost (.refl s)
  | .resetHeldNotice => grows_execResetHeldNotice (.refl s)
  | .cplaneSend .. => grows_execCplaneSend (.refl s) ..
  | .uplaneSend .. => grows_execUplaneSend (.refl s) ..
  | .uplaneReceive .. => grows_execUplaneReceive (.refl s) ..
  | .uplinkDelivery .. => grows_execUplinkDelivery (.refl s) ..
  | .ecpriDelayMeasurement .. => grows_execEcpriDelayMeasurement (.refl s) ..
  | .ldpcDecode .. => grows_execLdpcDecode (.refl s) ..
  | .ldpcEncode .. => grows_execLdpcEncode (.refl s) ..
  | .fecReturn .. => grows_execFecReturn (.refl s) ..
  | .partCellSWrite .. => grows_execPartCellSWrite (.refl s) ..
  | .partHartRsvWrite .. => grows_execPartHartRsvWrite (.refl s) ..
  | .guestEntry .. => grows_execGuestEntry (.refl s) ..
  | .guestExit .. => grows_execGuestExit (.refl s) ..
  | .monitorHartSwitch .. => grows_execMonitorHartSwitch (.refl s) ..
  | .vfQuotaWrite .. => grows_execVfQuotaWrite (.refl s) ..
  | .vfTctrlWrite .. => grows_execVfTctrlWrite (.refl s) ..
  | .mbxTSend .. => grows_execMbxTSend (.refl s) ..
  | .mbxOutAck .. => grows_execMbxOutAck (.refl s) ..
  | .mbxInPost .. => grows_execMbxInPost (.refl s) ..
  | .mbxTInAck .. => grows_execMbxTInAck (.refl s) ..
  | .mbxTNtailWrite .. => grows_execMbxTNtailWrite (.refl s) ..
  | .mbxTimeoutExpiry .. => grows_execMbxTimeoutExpiry (.refl s) ..
  | .queueDoorbell .. => grows_execQueueDoorbell (.refl s) ..
  | .cmdRingResume .. => grows_execCmdRingResume (.refl s) ..
  | .deferredCommandStatus .. => grows_execDeferredCommandStatus (.refl s) ..
  | .barrierEntryDeferred .. => grows_execBarrierEntryDeferred (.refl s) ..
  | .nop .. => grows_execNop (.refl s) ..
  | .planSwap .. => grows_execPlanSwap (.refl s) ..
  | .radioReserve .. => grows_execRadioReserve (.refl s) ..
  | .partOpen .. => grows_execPartOpen (.refl s) ..
  | .partClose .. => grows_execPartClose (.refl s) ..
  | .partReturn .. => grows_execPartReturn (.refl s) ..
  | .partIsolate .. => grows_execPartIsolate (.refl s) ..
  | .ctxCreate .. => grows_execCtxCreate (.refl s) ..
  | .ctxRemove .. => grows_execCtxRemove (.refl s) ..
  | .ctxSeed .. => grows_execCtxSeed (.refl s) ..
  | .ariSeedWrite .. => grows_execAriSeedWrite (.refl s) ..
  | .ariSeedLowWrite .. => grows_execAriSeedLowWrite (.refl s) ..
  | .ariSeedHighWrite .. => grows_execAriSeedHighWrite (.refl s) ..
  | .ariSeedSelWrite .. => grows_execAriSeedSelWrite (.refl s) ..
  | .ttAdmit .. => grows_execTtAdmit (.refl s) ..
  | .ttWithdraw .. => grows_execTtWithdraw (.refl s) ..
  | .ttResume .. => grows_execTtResume (.refl s) ..
  | .quotaForce .. => grows_execQuotaForce (.refl s) ..
  | .sdgFill .. => grows_execSdgFill (.refl s) ..
  | .sdgSwap .. => grows_execSdgSwap (.refl s) ..
  | .shuntStart .. => grows_execShuntStart (.refl s) ..
  | .shuntStop .. => grows_execShuntStop (.refl s) ..
  | .libInstall .. => grows_execLibInstall (.refl s) ..
  | .libRemove .. => grows_execLibRemove (.refl s) ..
  | .libtileAssign .. => grows_execLibtileAssign (.refl s) ..
  | .libtileRelease .. => grows_execLibtileRelease (.refl s) ..
  | .scanOut .. => grows_execScanOut (.refl s) ..
  | .scanDump .. => grows_execScanDump (.refl s) ..
  | .scanIn .. => grows_execScanIn (.refl s) ..
  | .pcAssign .. => grows_execPcAssign (.refl s) ..
  | .pcFree .. => grows_execPcFree (.refl s) ..
  | .pageAssign .. => grows_execPageAssign (.refl s) ..
  | .pageRelease .. => grows_execPageRelease (.refl s) ..
  | .scrubPass .. => grows_execScrubPass (.refl s) ..
  | .regionRekey .. => grows_execRegionRekey (.refl s) ..
  | .srtSwap .. => grows_execSrtSwap (.refl s) ..
  | .bind .. => grows_execBind (.refl s) ..
  | .unbind .. => grows_execUnbind (.refl s) ..
  | .macsecSak .. => grows_execMacsecSak (.refl s) ..
  | .queAssign .. => grows_execQueAssign (.refl s) ..
  | .queRelease .. => grows_execQueRelease (.refl s) ..
  | .queEnable .. => grows_execQueEnable (.refl s) ..
  | .queDisable .. => grows_execQueDisable (.refl s) ..
  | .carrierCfg .. => grows_execCarrierCfg (.refl s) ..
  | .carrierRemove .. => grows_execCarrierRemove (.refl s) ..
  | .vfAssign .. => grows_execVfAssign (.refl s) ..
  | .vfRelease .. => grows_execVfRelease (.refl s) ..
  | .keyInstall .. => grows_execKeyInstall (.refl s) ..
  | .attest .. => grows_execAttest (.refl s) ..
  | .certGet .. => grows_execCertGet (.refl s) ..
  | .ctxReset .. => grows_execCtxReset (.refl s) ..
  | .ctxResetDone .. => grows_execCtxResetDone (.refl s) ..
  | .partReset .. => grows_execPartReset (.refl s) ..
  | .partResetCollectEnd .. => grows_execPartResetCollectEnd (.refl s) ..
  | .partResetDone .. => grows_execPartResetDone (.refl s) ..
  | .resetOvertime .. => grows_execResetOvertime (.refl s) ..
  | .deviceReset .. => grows_execDeviceReset (.refl s) ..
  | .levelDrop .. => grows_execLevelDrop (.refl s) ..
  | .hbmRetrain .. => grows_execHbmRetrain (.refl s) ..
  | .hbmCopyDone .. => grows_execHbmCopyDone (.refl s) ..
  | .hbmRetrainDone .. => grows_execHbmRetrainDone (.refl s) ..
  | .smUpdate .. => grows_execSmUpdate (.refl s) ..
  | .smMirrorDone => grows_execSmMirrorDone (.refl s)
  | .smUpdateDone => grows_execSmUpdateDone (.refl s)
  | .scUpdate .. => grows_execScUpdate (.refl s) ..
  | .scUpdateDone => grows_execScUpdateDone (.refl s)
  | .serdesRecal .. => grows_execSerdesRecal (.refl s) ..
  | .serdesRecalDone .. => grows_execSerdesRecalDone (.refl s) ..
  | .dieRetire .. => grows_execDieRetire (.refl s) ..
  | .admitRebuild .. => grows_execAdmitRebuild (.refl s) ..
  | .fabricIdSet .. => grows_execFabricIdSet (.refl s) ..
  | .routeSwap .. => grows_execRouteSwap (.refl s) ..
  | .resetPinMask .. => grows_execResetPinMask (.refl s) ..
  | .trkPortCtrlWrite .. => grows_execTrkPortCtrlWrite (.refl s) ..
  | .trkPortSkewRead .. => grows_execTrkPortSkewRead (.refl s) ..
  | .trunkTrainingDone .. => grows_execTrunkTrainingDone (.refl s) ..
  | .trunkIdentify .. => grows_execTrunkIdentify (.refl s) ..
  | .trunkAgree .. => grows_execTrunkAgree (.refl s) ..
  | .trunkMeasure .. => grows_execTrunkMeasure (.refl s) ..
  | .trunkRetry .. => grows_execTrunkRetry (.refl s) ..
  | .trunkLinkDown .. => grows_execTrunkLinkDown (.refl s) ..
  | .trunkCellSend .. => grows_execTrunkCellSend (.refl s) ..
  | .trunkCellReceive .. => grows_execTrunkCellReceive (.refl s) ..
  | .vc0Delivery .. => grows_execVc0Delivery (.refl s) ..
  | .keyRatchet .. => grows_execKeyRatchet (.refl s) ..
  | .messageForward .. => grows_execMessageForward (.refl s) ..
  | .brakeReceived .. => grows_execBrakeReceived (.refl s) ..
  | .readyReceived .. => grows_execReadyReceived (.refl s) ..
  | .goReceived .. => grows_execGoReceived (.refl s) ..
  | .barrierTimeout .. => grows_execBarrierTimeout (.refl s) ..
  | .routeDrainEnd => grows_execRouteDrainEnd (.refl s)
  | .heartbeatWatchdog => grows_execHeartbeatWatchdog (.refl s)
  | .mgmtWatchdog => grows_execMgmtWatchdog (.refl s)
  | .scWatchdog => grows_execScWatchdog (.refl s)
  | .hostTimeout .. => grows_execHostTimeout (.refl s) ..
  | .quarantineReplay => grows_execQuarantineReplay (.refl s)
  | .functionLevelReset .. => grows_execFunctionLevelReset (.refl s) ..
  | .vfEnableClear => grows_execVfEnableClear (.refl s)
  | .perstNAssert => grows_execPerstNAssert (.refl s)
  | .fltEscWrite .. => grows_execFltEscWrite (.refl s) ..
  | .powerOn => grows_execPowerOn (.refl s)
  | .railPowerGood .. => grows_execRailPowerGood (.refl s) ..
  | .railPgTimeout .. => grows_execRailPgTimeout (.refl s) ..
  | .bootScRom => grows_execBootScRom (.refl s)
  | .bootScFw => grows_execBootScFw (.refl s)
  | .bootMgmt => grows_execBootMgmt (.refl s)
  | .bootTrain .. => grows_execBootTrain (.refl s) ..
  | .bootRestore .. => grows_execBootRestore (.refl s) ..
  | .bootDone .. => grows_execBootDone (.refl s) ..
  | .powerOff => grows_execPowerOff (.refl s)
  | .pwrOkFall => grows_execPwrOkFall (.refl s)
  | .resetNAssert => grows_execResetNAssert (.refl s)
  | .resetNRelease => grows_execResetNRelease (.refl s)
  | .resetNHeld => grows_execResetNHeld (.refl s)
  | .thermalAlarm .. => grows_execThermalAlarm (.refl s) ..
  | .thermalAlarmClear .. => grows_execThermalAlarmClear (.refl s) ..
  | .thermalHot .. => grows_execThermalHot (.refl s) ..
  | .thermalTrip .. => grows_execThermalTrip (.refl s) ..
  | .scHeartbeat => grows_execScHeartbeat (.refl s)
  | .vfEnableSet .. => grows_execVfEnableSet (.refl s) ..
  | .stationManagerEnrolment .. => grows_execStationManagerEnrolment (.refl s) ..
  | .powerGoodDeassert .. => grows_execPowerGoodDeassert (.refl s) ..
  | .escalationWindowExpiry .. => grows_execEscalationWindowExpiry (.refl s) ..
  | .sigClkLoss => grows_execSigClkLoss (.refl s)
  | .sigClkReturn => grows_execSigClkReturn (.refl s)
  | .plcaBeacon => grows_execPlcaBeacon (.refl s)
  | .stbTransmitOpportunity .. => grows_execStbTransmitOpportunity (.refl s) ..

/-- Settles O7: the queue, the wire and the fused map are among what every command keeps. -/
theorem commandsLeaveQueueWireAndMap : Obligations.CommandsLeaveQueueWireAndMap := by
  intro c s t h
  have hkept : Grows s t := (grows_exec c s).next t h
  exact ⟨hkept.queue, hkept.wire, hkept.disabled⟩

end Sys2Proof.Machine
end

section
/-!
PROOFS. Which commands can stop (R44, R45, R51): a tile command where it names no tile, and no other.
-/

namespace Sys2Proof.Machine

/-- The die and the tile that a tile command names. -/
def namedTile : Instr → Option (Nat × Nat)
  | .seqWait die tile | .seqFire die tile | .seqFireIf die tile | .seqFold die tile | .seqLoad die tile
  | .seqSelect die tile | .seqRead die tile | .rawReadout die tile | .seqEnd die tile | .tagFiring die tile
  | .exactMerge die tile | .sfExponential die tile | .sfLogarithm die tile | .sfReciprocal die tile
  | .sfReciprocalSquareRoot die tile | .sfSigmoid die tile | .sfTanh die tile | .softmaxPass1 die tile
  | .softmaxPass2 die tile | .radix4Butterfly die tile | .minSumCheckNodeUpdate die tile | .minSumDemapping die tile
  | .memoryTileRead die tile | .memoryTileWrite die tile | .coreFiring die tile | .coreBudgetExpiry die tile
  | .coreAlu die tile | .coreMul die tile | .coreBranch die tile | .coreJump die tile | .coreLoad die tile
  | .coreStore die tile | .rdcycle die tile | .coreIllegalInstruction die tile | .sPop die tile | .sPush die tile
  | .sGet die tile | .sPut die tile | .sLdw die tile | .sStw die tile | .sCtr die tile | .sTag die tile
  | .sSettag die tile | .sEnd die tile => some (die, tile)
  | _ => none

/-- What a command that names a tile, or none, may answer: a fault where no such tile exists, and else a next state,
the state itself where the tile runs no program. -/
def AnswersFor (s : State) (o : Out1) : Option (Nat × Nat) → Prop
  | some (die, tile) => ∃ t, (siteOf s (tileKey die tile) = none → t = s) ∧
      o = if 39 < die ∨ 255 < tile then .fault (.noSuchTile die tile) else done s t
  | none => ∃ t, o = .next t

theorem tileRow_answersFor (s : State) (die tile : Nat) (want : Site → Bool) :
    AnswersFor s (tileRow die tile want s) (some (die, tile)) :=
  ⟨_, fun h => by rw [h], rfl⟩

/-- A tile that runs no program has no instruction in progress. -/
theorem coreTail_of_noSite {s : State} {k : Nat} (h : siteOf s k = none) : coreTail s k = s := by
  rw [coreTail, coreIdle, h]

theorem coreRow_answersFor (s : State) (die tile : Nat) (k : CoreClass) :
    AnswersFor s (coreRow die tile k s) (some (die, tile)) :=
  ⟨_, fun h => by rw [coreTail_of_noSite h, h], rfl⟩

theorem execCoreBudgetExpiry_answersFor (s : State) (die tile : Nat) :
    AnswersFor s (execCoreBudgetExpiry die tile s) (some (die, tile)) :=
  ⟨_, fun h => by rw [coreTail_of_noSite h, h], rfl⟩

/-- Every command answers for the tile that it names: the rows of the sequencer, those of the core, and all others. -/
theorem exec_answersFor (c : Instr) (s : State) : AnswersFor s (exec c s) (namedTile c) := by
  cases c
  case seqWait | seqFire | seqFireIf | seqFold | seqLoad | seqSelect | seqRead | rawReadout | seqEnd | tagFiring |
      exactMerge | sfExponential | sfLogarithm | sfReciprocal | sfReciprocalSquareRoot | sfSigmoid | sfTanh |
      softmaxPass1 | softmaxPass2 | radix4Butterfly | minSumCheckNodeUpdate | minSumDemapping | memoryTileRead |
      memoryTileWrite | coreFiring =>
    exact tileRow_answersFor s _ _ _
  case coreAlu | coreMul | coreBranch | coreJump | coreLoad | coreStore | rdcycle | coreIllegalInstruction | sPop |
      sPush | sGet | sPut | sLdw | sStw | sCtr | sTag | sSettag | sEnd =>
    exact coreRow_answersFor s _ _ _
  case coreBudgetExpiry => exact execCoreBudgetExpiry_answersFor s _ _
  all_goals exact ⟨_, rfl⟩

/-- A command stops only with noSuchTile, where it names a die or a tile that the part has not. -/
theorem exec_next_or_noSuchTile (c : Instr) (s : State) : (∃ t, exec c s = .next t) ∨
    ∃ die tile, (39 < die ∨ 255 < tile) ∧ exec c s = .fault (.noSuchTile die tile) := by
  have hanswers := exec_answersFor c s
  cases hc : namedTile c with
  | none =>
    rw [hc] at hanswers
    exact .inl hanswers
  | some place =>
    obtain ⟨die, tile⟩ := place
    rw [hc] at hanswers
    obtain ⟨t, -, ht⟩ := hanswers
    by_cases hno : 39 < die ∨ 255 < tile
    · exact .inr ⟨die, tile, hno, ht.trans (if_pos hno)⟩
    · exact .inl ⟨_, ht.trans (if_neg hno)⟩

/-- Settles O37: by what a command may answer for the tile that it names. -/
theorem tilesThatDoNotExist : Obligations.TilesThatDoNotExist := by
  refine ⟨fun s die tile c hc => ?tile, fun c s f hf => ?fault, fun c s r hr => ?refused⟩
  case tile =>
    have hnamed : namedTile c = some (die, tile) := by
      revert c
      simp [namedTile]
    have hanswers := exec_answersFor c s
    rw [hnamed] at hanswers
    obtain ⟨t, hkeeps, ht⟩ := hanswers
    refine ⟨fun hno => ht.trans (if_pos hno), fun hdie htile hsite => ?_⟩
    rw [ht, if_neg (by omega), hkeeps hsite, done]
  case fault =>
    rcases exec_next_or_noSuchTile c s with ⟨t, ht⟩ | ⟨die, tile, hno, ht⟩
    · cases ht.symm.trans hf
    · cases ht.symm.trans hf
      exact ⟨die, tile, rfl, hno⟩
  case refused =>
    rcases exec_next_or_noSuchTile c s with ⟨t, ht⟩ | ⟨die, tile, hno, ht⟩
    · cases ht.symm.trans hr
    · cases ht.symm.trans hr

end Sys2Proof.Machine
end

section
/-!
PROOFS. How a tile is addressed (R51): the row and the column of its index, its neighbours on the die, its quadrant.
-/

namespace Sys2Proof.Machine

theorem tileKey_div (die : Nat) {r c : Nat} (hr : r < 16) (hc : c < 16) :
    tileKey die (16 * r + c) / 256 = die := by
  unfold tileKey
  omega

/-- The row of a tile is bits 7:4 of its index. -/
theorem bits_tileKey_row (die : Nat) {r c : Nat} (hr : r < 16) (hc : c < 16) :
    bits (tileKey die (16 * r + c)) 7 4 = r := by
  unfold tileKey bits
  omega

/-- The column of a tile is bits 3:0 of its index. -/
theorem bits_tileKey_col (die r : Nat) {c : Nat} (hc : c < 16) :
    bits (tileKey die (16 * r + c)) 3 0 = c := by
  unfold tileKey bits
  omega

/-- The quadrant of a tile: the half of its rows, then the half of its columns. -/
theorem quadOfTile_tileKey (die r : Nat) {c : Nat} (hc : c < 16) :
    quadOfTile (tileKey die (16 * r + c)) = 4 * die + (2 * (r / 8) + c / 8) := by
  unfold quadOfTile tileKey
  omega

theorem besideTile_north (r : Nat) {c : Nat} (hc : c < 16) :
    besideTile (16 * r + c) 0 = if r = 0 then none else some (16 * (r - 1) + c) := by
  by_cases h : r = 0
  · rw [if_pos h, besideTile, if_pos rfl, if_neg (by omega)]
  · rw [if_neg h, besideTile, if_pos rfl, if_pos (by omega)]
    exact congrArg some (by omega)

theorem besideTile_west (r : Nat) {c : Nat} (hc : c < 16) :
    besideTile (16 * r + c) 3 = if c = 0 then none else some (16 * r + (c - 1)) := by
  have hwest : besideTile (16 * r + c) 3 = if 0 < (16 * r + c) % 16 then some (16 * r + c - 1) else none := rfl
  by_cases h : c = 0
  · rw [hwest, if_pos h, if_neg (by omega)]
  · rw [hwest, if_neg h, if_pos (by omega)]
    exact congrArg some (by omega)

/-- Settles O38: the quadrant by the halves of rows and columns, the rest by the parts of the index. -/
theorem tilesAreAddressed : Obligations.TilesAreAddressed := by
  refine ⟨fun die r c hdie hr hc => ?_, fun r c hlow hr hc => ?_⟩
  · have hquad := quadOfTile_tileKey die r hc
    refine ⟨tileKey_div die hr hc, bits_tileKey_row die hr hc, bits_tileKey_col die r hc,
      besideTile_north r hc, besideTile_west r hc, ?_⟩
    omega
  · have hquad := quadOfTile_tileKey 17 r (Nat.lt_trans hc (by decide))
    omega

end Sys2Proof.Machine
end

section
/-!
PROOFS. Registers, lanes, window accesses and queues of a tile core (R79, R82, R89, R90, R95): what a read of each gives
after a write to the same place and to another.
-/

namespace Sys2Proof.Machine

/-! ## A tile after a write -/

@[simp] theorem tileOf_setTile_same (s : State) (k : Nat) (f : Tile → Tile) :
    tileOf (setTile s k f) k = f (tileOf s k) := look_upd_self s.tiles k f

/-- A write of a core context leaves the rest of its tile. -/
@[simp] theorem ls_setCore (s : State) (x : Site) (f : CoreCtx → CoreCtx) :
    (tileOf (setCore s x f) x.k).ls = (tileOf s x.k).ls := by
  rw [setCore, tileOf_setTile_same]

/-! ## Registers -/

@[simp] theorem readX_zero (c : CoreCtx) : readX c 0 = 0 := rfl

@[simp] theorem writeX_zero (c : CoreCtx) (v : BitVec 32) : writeX c 0 v = c := rfl

theorem readX_of_pos (c : CoreCtx) {r : Nat} (hr : 1 ≤ r) : readX c r = c.regs.getD (r - 1) 0 :=
  if_neg (by omega)

theorem regs_writeX (c : CoreCtx) {r : Nat} (hr : 1 ≤ r) (v : BitVec 32) :
    (writeX c r v).regs = c.regs.set (r - 1) v := by
  rw [writeX, if_neg (by omega)]

theorem readX_writeX_same (c : CoreCtx) {r : Nat} (v : BitVec 32) (hr : 1 ≤ r) (hlen : r ≤ c.regs.length) :
    readX (writeX c r v) r = v := by
  rw [readX_of_pos _ hr, regs_writeX c hr, List.getD_eq_getElem?_getD, List.getElem?_set_self (by omega)]
  rfl

theorem readX_writeX_ne (c : CoreCtx) {r q : Nat} (v : BitVec 32) (h : q ≠ r) :
    readX (writeX c r v) q = readX c q := by
  rcases Nat.eq_zero_or_pos q with rfl | hq
  · rfl
  rcases Nat.eq_zero_or_pos r with rfl | hr
  · rfl
  · rw [readX_of_pos _ hq, readX_of_pos _ hq, regs_writeX c hr, List.getD_eq_getElem?_getD,
      List.getElem?_set_ne (by omega), List.getD_eq_getElem?_getD]

/-! ## Lanes of a word buffer -/

theorem toNat_laneOf (p : BitVec 160) (l : Nat) : (laneOf p l).toNat = p.toNat / 2 ^ (32 * l) % 2 ^ 32 := by
  simp [laneOf, bits, Nat.add_assoc]

/-- A payload with a lane written: what lies below the lane, the lane, and what lies above it. -/
theorem toNat_setLane (p : BitVec 160) {l : Nat} (v : BitVec 32) (hl : l < 5) :
    (setLane p l v).toNat =
      p.toNat % 2 ^ (32 * l) + 2 ^ (32 * l) * (v.toNat + 2 ^ 32 * (p.toNat / 2 ^ (32 * l) / 2 ^ 32)) := by
  have hp := p.isLt
  have hv := v.isLt
  interval_cases l <;> simp [setLane, bits] <;> omega

/-- A lane is not moved by what stands above it. -/
theorem lane_of_add_mul {m l : Nat} (h : m < l) (a b : Nat) :
    (a + 2 ^ (32 * l) * b) / 2 ^ (32 * m) % 2 ^ 32 = a / 2 ^ (32 * m) % 2 ^ 32 := by
  obtain ⟨d, rfl⟩ : ∃ d, l = m + 1 + d := ⟨l - (m + 1), by omega⟩
  rw [show 32 * (m + 1 + d) = 32 * m + (32 + 32 * d) by omega, pow_add, pow_add, mul_assoc, mul_assoc,
    Nat.add_mul_div_left _ _ (Nat.two_pow_pos _), Nat.add_mul_mod_self_left]

/-- The lanes above lane l hold what follows it. -/
theorem lane_above {m l : Nat} (h : l < m) (n : Nat) :
    n / 2 ^ (32 * m) = n / 2 ^ (32 * l) / 2 ^ 32 / 2 ^ (32 * (m - l - 1)) := by
  rw [Nat.div_div_eq_div_mul, Nat.div_div_eq_div_mul, ← pow_add, ← pow_add]
  congr 2
  omega

theorem laneOf_setLane_same (p : BitVec 160) {l : Nat} (v : BitVec 32) (hl : l < 5) : laneOf (setLane p l v) l = v := by
  apply BitVec.eq_of_toNat_eq
  rw [toNat_laneOf, toNat_setLane p v hl, Nat.add_mul_div_left _ _ (Nat.two_pow_pos _),
    Nat.div_eq_of_lt (Nat.mod_lt _ (Nat.two_pow_pos _)), Nat.zero_add, Nat.add_mul_mod_self_left,
    Nat.mod_eq_of_lt v.isLt]

theorem laneOf_setLane_ne (p : BitVec 160) {l m : Nat} (v : BitVec 32) (hl : l < 5) (h : m ≠ l) :
    laneOf (setLane p l v) m = laneOf p m := by
  apply BitVec.eq_of_toNat_eq
  rw [toNat_laneOf, toNat_laneOf, toNat_setLane p v hl]
  rcases Nat.lt_or_gt_of_ne h with hbelow | habove
  · conv_rhs => rw [← Nat.mod_add_div p.toNat (2 ^ (32 * l))]
    rw [lane_of_add_mul hbelow, lane_of_add_mul hbelow]
  · rw [lane_above habove, lane_above habove, Nat.add_mul_div_left _ _ (Nat.two_pow_pos _),
      Nat.div_eq_of_lt (Nat.mod_lt _ (Nat.two_pow_pos _)), Nat.zero_add,
      Nat.add_mul_div_left _ _ (Nat.two_pow_pos _), Nat.div_eq_of_lt v.isLt, Nat.zero_add]

/-! ## Bytes of the local store -/

@[simp] theorem length_leBytes (n v : Nat) : (leBytes n v).length = n := by
  induction n generalizing v with
  | zero => rfl
  | succ n ih => rw [leBytes, List.length_cons, ih]

/-- A tile's store is written as HBM contents are. -/
theorem storeBytes_eq_writeBytes (t : Table Byte) (a : Nat) (l : List Byte) : storeBytes t a l = writeBytes t a l := by
  induction l generalizing t a with
  | nil => rfl
  | cons b l ih => exact ih (put t a b) (a + 1)

theorem look_storeBytes_ne (t : Table Byte) (a : Nat) (l : List Byte) {k : Nat} (h : k < a ∨ a + l.length ≤ k) :
    look (storeBytes t a l) k = look t k := by
  rw [storeBytes_eq_writeBytes]
  exact look_writeBytes_ne t a l h

theorem look_storeBytes_at (t : Table Byte) (a : Nat) {l : List Byte} {i : Nat} (h : i < l.length) :
    look (storeBytes t a l) (a + i) = l.getD i 0 := by
  induction l generalizing t a i with
  | nil => cases h
  | cons b l ih =>
    show look (storeBytes (put t a b) (a + 1) l) (a + i) = _
    cases i with
    | zero => rw [look_storeBytes_ne _ _ _ (by omega), Nat.add_zero, look_put_self, List.getD_cons_zero]
    | succ i =>
      rw [show a + (i + 1) = a + 1 + i by omega, ih _ _ (Nat.lt_of_succ_lt_succ h), List.getD_cons_succ]

/-! ## Accesses of the window (R79, R89) -/

theorem windowRead_inside (s : State) (x : Site) {off n : Nat} (h : off + n ≤ x.sl.lsLen) :
    ∃ b, windowRead s x off n = some b ∧ b.length = n :=
  ⟨_, if_pos h, by rw [List.length_map, List.length_range]⟩

theorem windowRead_outside (s : State) (x : Site) {off n : Nat} (h : x.sl.lsLen < off + n) :
    windowRead s x off n = none := if_neg (Nat.not_le_of_lt h)

/-- A write inside the window stores its bytes in place. -/
theorem windowWrite_inside (s : State) (x : Site) {off : Nat} {l : List Byte} (h : off + l.length ≤ x.sl.lsLen) :
    windowWrite s x off l = setTile s x.k fun t => { t with ls := storeBytes t.ls (x.sl.lsBase + off) l } := if_pos h

section Access
variable (s : State) (x : Site) (c : CoreCtx) (w : Nat)

theorem coreLoad_faults (h : memAddr c w % memSize w ≠ 0 ∨ x.sl.lsLen < memAddr c w + memSize w) :
    coreLoad s x c w = slotFault s x 6 := by
  rw [coreLoad]
  by_cases hal : memAddr c w % memSize w = 0
  · rw [if_neg (not_not_intro hal), windowRead_outside s x (h.resolve_left (not_not_intro hal))]
  · rw [if_pos hal]

theorem coreLoad_writes (hal : memAddr c w % memSize w = 0) {b : List Byte}
    (hb : windowRead s x (memAddr c w) (memSize w) = some b) :
    coreLoad s x c w = setCore s x fun c => nextPc (writeX c (rdOf w) (loadValue w b)) := by
  rw [coreLoad, if_neg (not_not_intro hal), hb]

theorem coreStore_faults (h : memAddr c w % memSize w ≠ 0 ∨ x.sl.lsLen < memAddr c w + memSize w) :
    coreStore s x c w = slotFault s x 6 := if_pos h

/-- The local store after an aligned store inside the window. -/
theorem ls_coreStore (hal : memAddr c w % memSize w = 0) (hin : memAddr c w + memSize w ≤ x.sl.lsLen) :
    (tileOf (coreStore s x c w) x.k).ls = storeBytes (tileOf s x.k).ls (x.sl.lsBase + memAddr c w)
      (leBytes (memSize w) (readX c (rs2Of w)).toNat) := by
  rw [coreStore, if_neg (by omega), ls_setCore, windowWrite_inside s x (by rwa [length_leBytes]), tileOf_setTile_same]

end Access

/-! ## Queues (R82, R90) -/

@[simp] theorem queues_setTag (t : Tile) (g : BitVec 16) (m : BitVec 8) : (setTag t g m).queues = t.queues := rfl

/-- The tag-match buffer keeps no word. -/
@[simp] theorem queues_dropTag (t : Tile) (m : Table Byte) (q : Nat) (g : BitVec 16) :
    (dropTag t m q g).queues = t.queues := by
  unfold dropTag noteTag
  split
  · split
    · exact queues_setTag ..
    · rfl
  · rfl

/-- The head of a queue that the slot owns leaves it. -/
theorem popQueue_cons (s : State) (x : Site) {q : Nat} {v : TWord} {l : List TWord} (hq : bitOf x.sl.qmask q = true)
    (hl : look (tileOf s x.k).queues q = v :: l) :
    ∃ t, popQueue s x q = (t, some v) ∧ look (tileOf t x.k).queues q = l := by
  refine ⟨setTile s x.k fun t => dropTag { t with queues := put t.queues q l } x.img q v.tag, ?_, ?_⟩
  · rw [popQueue, if_neg (by simp [hq]), hl]
  · rw [tileOf_setTile_same, queues_dropTag, look_put_self]

theorem corePop_of_popQueue {s t : State} {x : Site} {w : Nat} {v : TWord}
    (h : popQueue s x (rs1Of w) = (t, some v)) :
    corePop s x w = setCore t x fun c => nextPc (setWb c (rdOf w) v) := by
  rw [corePop, h]

/-- Settles O36: registers, lanes, window accesses and pops, each by its own rule. -/
theorem coreRegistersAndAccesses : Obligations.CoreRegistersAndAccesses := by
  refine ⟨fun c r q v hlen => ?registers, fun p l m v hl _ => ?lanes, fun s x c w => ?window, fun s x w v l hq hl => ?pop⟩
  case registers =>
    exact ⟨readX_zero c, writeX_zero c v, fun hr hr' => readX_writeX_same c v hr (by omega), readX_writeX_ne c v⟩
  case lanes => exact ⟨laneOf_setLane_same p v hl, laneOf_setLane_ne p v hl⟩
  case window =>
    refine ⟨fun h => ⟨coreLoad_faults s x c w h, coreStore_faults s x c w h⟩, fun hal hin => ?_⟩
    obtain ⟨b, hb, hlen⟩ := windowRead_inside s x hin
    have hstored := ls_coreStore s x c w hal hin
    refine ⟨⟨b, hb, hlen, coreLoad_writes s x c w hal hb⟩, fun i hi => ?_, fun k hk => ?_⟩
    · rw [hstored]
      exact look_storeBytes_at _ _ (by rwa [length_leBytes])
    · rw [hstored]
      exact look_storeBytes_ne _ _ _ (by rwa [length_leBytes])
  case pop =>
    obtain ⟨t, hpop, hrest⟩ := popQueue_cons s x hq hl
    exact ⟨t, hpop, hrest, corePop_of_popQueue hpop⟩

end Sys2Proof.Machine
end

section
/-!
PROOFS. The rows of the sequencer (R69, R71, R78, R80, R81, R87, R126): when a tile command runs the entry in force and
how, then what that entry does in an ac.
-/

namespace Sys2Proof.Machine

/-! ## The entry in force -/

theorem fires_iff (x : Site) :
    fires x = true ↔ x.e.action = 1 ∨ x.e.action = 2 ∧ x.d.ctrs.getD x.e.ctr 0 ≠ 0 := by
  simp [fires, ctrNonZero]

theorem isCompute_iff (x : Site) (pers : Nat) : isCompute x pers = true ↔ x.kind = 0 ∧ x.sl.pers = pers := by
  simp [isCompute]

/-- An entry of an action other than FIRE and FIRE_IF does not fire. -/
theorem not_fires {x : Site} (h1 : x.e.action ≠ 1) (h2 : x.e.action ≠ 2) : ¬ fires x = true := by
  rw [fires_iff]
  rintro (h | ⟨h, -⟩)
  · exact h1 h
  · exact h2 h

/-! ## A row of a tile -/

section Row
variable {s : State} {die tile : Nat} {x : Site} {want : Site → Bool}
variable (hdie : die ≤ 39) (htile : tile ≤ 255) (hsite : siteOf s (tileKey die tile) = some x)
include hdie htile hsite

/-- A row that names the entry in force, of a tile whose core is free, runs it. -/
theorem tileRow_of_named (hwant : want x = true) (hfree : coreBusy s x = false) :
    tileRow die tile want s = .next (irq s (runEntry s x)) := by
  simp only [tileRow, if_neg (show ¬ (39 < die ∨ 255 < tile) by omega), hsite, hwant, hfree, and_self, if_true, done]

/-- Any other row changes nothing. -/
theorem tileRow_of_other (h : want x = false ∨ coreBusy s x = true) : tileRow die tile want s = .next (irq s s) := by
  have hno : ¬ (want x = true ∧ coreBusy s x = false) := by
    rintro ⟨hwant, hfree⟩
    rcases h with h | h
    · cases hwant.symm.trans h
    · cases hfree.symm.trans h
  simp only [tileRow, if_neg (show ¬ (39 < die ∨ 255 < tile) by omega), hsite, if_neg hno, done]

/-- Every entry but the firing one of a core runs its acs. -/
theorem tileRow_runs_acs (hwant : want x = true) (hfree : coreBusy s x = false)
    (hacs : ¬ (fires x = true ∧ isCompute x 2 = true)) :
    tileRow die tile want s = .next (irq s (runAcs x.k (entryLen x - x.d.ran) s)) := by
  rw [tileRow_of_named hdie htile hsite hwant hfree, runEntry, if_neg hacs]

end Row

/-- One ac more, where the tile has heard. -/
theorem runAcs_succ {k : Nat} {t : State} {y : Site} (n : Nat) (h : siteOf t k = some y) :
    runAcs k (n + 1) t = if heard t y = true then runAcs k n (tileAc t y) else t := by
  rw [runAcs, h]

/-! ## What an entry does in an ac -/

section Act
variable (t : State) {x : Site}

theorem entryAct_of_fires (h : fires x = true) : entryAct t x = fireAct t x := if_pos h

theorem entryAct_of_not_fires (h : ¬ fires x = true) :
    entryAct t x =
      if x.d.ran ≠ 0 then t
      else if x.e.action = 4 then tokenAct t x (loadCounter x)
      else if x.e.action = 5 then tokenAct t x takeSelect
      else if x.e.action = 6 then readAct t x
      else t := if_neg h

/-- An entry that neither fires nor takes a token nor reads out only routes. -/
theorem entryAct_routes (hf : ¬ fires x = true) (h4 : x.e.action ≠ 4) (h5 : x.e.action ≠ 5) (h6 : x.e.action ≠ 6) :
    entryAct t x = t := by
  rw [entryAct_of_not_fires t hf, if_neg h4, if_neg h5, if_neg h6, ite_self]

theorem entryAct_later (hf : ¬ fires x = true) (hran : x.d.ran ≠ 0) : entryAct t x = t := by
  rw [entryAct_of_not_fires t hf, if_pos hran]

theorem entryAct_read (h : x.e.action = 6) (hran : x.d.ran = 0) : entryAct t x = readAct t x := by
  rw [entryAct_of_not_fires t (not_fires (by omega) (by omega)), if_neg (not_not_intro hran), if_neg (by omega),
    if_neg (by omega), if_pos h]

theorem entryAct_load (h : x.e.action = 4) (hran : x.d.ran = 0) : entryAct t x = tokenAct t x (loadCounter x) := by
  rw [entryAct_of_not_fires t (not_fires (by omega) (by omega)), if_neg (not_not_intro hran), if_pos h]

theorem entryAct_select (h : x.e.action = 5) (hran : x.d.ran = 0) : entryAct t x = tokenAct t x takeSelect := by
  rw [entryAct_of_not_fires t (not_fires (by omega) (by omega)), if_neg (not_not_intro hran), if_neg (by omega), if_pos h]

/-- The token of a LOAD or SELECT is used on the slot's state. -/
theorem tokenAct_takes {t u : State} {w : TWord} (use : SlotDyn → TWord → SlotDyn) (hsup : suppressed t x = false)
    (hpop : popQueue t x (x.e.arg % 8) = (u, some w)) : tokenAct t x use = setDyn u x fun d => use d w := by
  rw [tokenAct, if_neg (by simp [hsup]), hpop]

end Act

/-- An ac of an entry, and with its last ac its end. -/
theorem tileAc_eq (s : State) (x : Site) :
    tileAc s x =
      let t := if x.d.ran = 0 then traceNote s x else s
      let u := acStep (countSteps t (siteCtx t x) (stepsOf x)) x fun s => entryAct s x
      let v := setDyn u x fun d => { d with ran := d.ran + 1 }
      if x.d.ran + 1 < entryLen x then v else endEntry v x := by
  unfold tileAc
  extract_lets t u v
  by_cases hmore : x.d.ran + 1 < entryLen x
  · rw [if_pos hmore, if_neg (by omega)]
  · rw [if_neg hmore, if_pos (by omega)]

/-- Settles O33: each row by what a row of a tile does, each action by what its entry does in an ac. -/
theorem sequencerEntriesRun : Obligations.SequencerEntriesRun := by
  intro s die tile x hdie htile hsite ran a
  have hruns {want} := tileRow_runs_acs (want := want) hdie htile hsite
  have hkeeps {want} := tileRow_of_other (want := want) hdie htile hsite
  have hroutes {n : Nat} (hn : a = n) (h1 : n ≠ 1) (h2 : n ≠ 2) : ¬ (fires x = true ∧ isCompute x 2 = true) :=
    fun h => not_fires (by omega) (by omega) h.1
  refine ⟨fun hfree => ⟨fun h => ?wait, fun h hno => ?fire, fun h hno => ?fireIf, fun h => ?fold, fun h => ?load,
    fun h => ?select, fun h => ⟨?read, fun hraw => ?raw⟩, fun h => ?halt⟩, ?_⟩
  case wait | fold | load | select | read | halt =>
    exact hruns (decide_eq_true h) hfree (hroutes h (by decide) (by decide))
  case raw => exact hruns (by simp [show x.e.action = 6 from h, hraw]) hfree (hroutes h (by decide) (by decide))
  case fire => exact hruns (decide_eq_true h) hfree fun hc => hno hc.2
  case fireIf =>
    refine hruns (decide_eq_true h) hfree fun ⟨hf, hc⟩ => hno ⟨hc, ?_⟩
    exact (((fires_iff x).1 hf).resolve_left (by omega)).2
  have hother {n : Nat} (h : a ≠ n ∨ coreBusy s x = true) :
      tileRow die tile (fun x => decide (x.e.action = n)) s = .next (irq s s) :=
    hkeeps (h.imp_left decide_eq_false)
  refine ⟨hother, hother, hother, hother, hother, hother, hother, fun h => hkeeps ?raw, hother, rfl,
    fun n t => ⟨rfl, fun y hy => runAcs_succ n hy⟩, fun t => ?acts, ?ac⟩
  case raw =>
    rcases h with h | h | h
    · exact .inl (by simp [show x.e.action ≠ 6 from h])
    · exact .inl (by simp [h])
    · exact .inr h
  case acts =>
    refine ⟨fun h => ?routes, fun h => entryAct_of_fires t ((fires_iff x).2 h), fun h hc => ?zero, fun h hran => ?later,
      entryAct_read t, fun h hran hsup u w hpop => ?token⟩
    case routes => exact entryAct_routes t (not_fires (by omega) (by omega)) (by omega) (by omega) (by omega)
    case zero =>
      refine entryAct_routes t (fun hf => ?_) (by omega) (by omega) (by omega)
      exact (((fires_iff x).1 hf).resolve_left (by omega)).2 hc
    case later => exact entryAct_later t (not_fires (by omega) (by omega)) hran
    case token =>
      rcases h with h | h
      · rw [entryAct_load t h hran, tokenAct_takes _ hsup hpop]
        simp only [h, if_true, loadCounter]
      · rw [entryAct_select t h hran, tokenAct_takes _ hsup hpop]
        simp only [h, takeSelect]
        rfl
  case ac => exact tileAc_eq s x

end Sys2Proof.Machine
end

section
/-!
PROOFS. The personalities (R78, R82, R83, R85, R86, R88, R91, R92, R93, R127, R129, R130): which rows run a firing entry,
then what a multiplier, a special-function slot and a memory tile do in an ac of it.
-/

namespace Sys2Proof.Machine

/-! ## A firing entry -/

/-- A firing entry of a core slot starts a firing, or passes at once where the slot has no budget. -/
theorem runEntry_of_core {x : Site} (s : State) (hf : fires x = true) (hc : isCompute x 2 = true) :
    runEntry s x = if x.sl.budget = 0 then finishEntry s x none else startCore s x := if_pos ⟨hf, hc⟩

/-- A slot has one personality. -/
theorem not_isCompute_of_pers {x : Site} {p q : Nat} (hp : x.sl.pers = p) (hne : p ≠ q) : ¬ isCompute x q = true := by
  rw [isCompute_iff]
  exact fun h => hne (hp.symm.trans h.2)

theorem not_isCompute_of_kind {x : Site} (hk : x.kind ≠ 0) (q : Nat) : ¬ isCompute x q = true := by
  rw [isCompute_iff]
  exact fun h => hk h.1

theorem firesSf_iff (c : Nat) (x : Site) :
    firesSf c x = true ↔ fires x = true ∧ x.kind = 0 ∧ x.sl.pers = 1 ∧ sfCode x = c := by
  simp [firesSf, isCompute, and_assoc]

/-! ## An ac of a firing -/

section Ac
variable (t : State) {x : Site}

theorem fireAct_memory (hk : x.kind = 1) : fireAct t x = mtAct t x := if_pos hk

theorem fireAct_multiplier (hk : x.kind = 0) (hp : x.sl.pers = 0) : fireAct t x = mulAct t x := by
  rw [fireAct, if_neg (by omega), if_pos ((isCompute_iff x 0).2 ⟨hk, hp⟩)]

theorem fireAct_special (hk : x.kind = 0) (hp : x.sl.pers = 1) : fireAct t x = sfAct t x := by
  rw [fireAct, if_neg (by omega), if_neg (not_isCompute_of_pers hp (by decide)), if_pos ((isCompute_iff x 1).2 ⟨hk, hp⟩)]

/-- A suppressed slot does not act (R96). -/
theorem fireAct_suppressed (h : suppressed t x = true) : fireAct t x = t := by
  rw [fireAct, mtAct, mulAct, sfAct, if_pos (Or.inl h), if_pos h, if_pos (Or.inr h), ite_self, ite_self, ite_self]

/-- An ac of a multiplier: the weight block first, then a word once the interval has passed (R85, R86). -/
theorem mulAct_eq (hsup : suppressed t x = false) :
    mulAct t x =
      let u := if x.d.ran = 0 ∧ x.sl.mergeEn = false ∧ (tileOf t x.k).weight ≠ some (x.sl.ix, x.e.arg)
        then loadWeights t x else t
      if (tileOf u x.k).ac < (tileOf u x.k).mulReady ∨ suppressed u x = true then u else mulTake u x := by
  rw [mulAct, if_neg (by simp [hsup])]
  simp only [needsLoad, decide_eq_true_eq]

theorem mulTake_word {v : State} {w : TWord}
    (h : takeInput t x (bits (descWord x x.e.arg 4) 2 0) = (v, some w)) :
    mulTake t x =
      let y := noteFiring (setTile v x.k fun t => { t with mulReady := t.ac + mulInterval x.sl }) x w
      if x.sl.mergeEn then mergeWord y x (clrDue t x) w else multiplyWord y x (clrDue t x) w := by
  rw [mulTake, h]

theorem sfAct_waits (h : (tileOf t x.k).ac < (tileOf t x.k).sfReady) : sfAct t x = t := if_pos (.inl h)

/-- A special-function slot takes a word once its interval has passed (R88). -/
theorem sfAct_word {v : State} {w : TWord} (hsup : suppressed t x = false)
    (hready : (tileOf t x.k).sfReady ≤ (tileOf t x.k).ac)
    (h : takeInput t x (bits (descWord x x.e.arg 4) 2 0) = (v, some w)) :
    sfAct t x = sfWordAct (noteFiring (setTile v x.k fun t =>
      { t with sfReady := t.ac + sfInterval (sfCode x) (descBytes x x.e.arg) }) x w) x (dynOf t x).taken w := by
  have hgo : ¬ ((tileOf t x.k).ac < (tileOf t x.k).sfReady ∨ suppressed t x = true) := by
    rw [hsup]
    simpa using hready
  rw [sfAct, if_neg hgo, h]

/-- A memory tile steps its stream and makes the access at the address (R92, R93). -/
theorem mtAct_eq (hsup : suppressed t x = false) (hvalid : mtValid x = true) :
    mtAct t x =
      let p := look (tileOf t x.k).streams x.e.arg
      let a := streamAddr x p
      let y := noteFiring (setTile t x.k fun t => { t with streams := put t.streams x.e.arg (nextStream x p) }) x {}
      if a < 0 ∨ 2 ^ 20 < a + 20 then slotFault y x 6
      else if mtPort x < 2 then mtRead y x a.toNat else mtWrite y x a.toNat :=
  if_neg (by simp [hsup, hvalid])

end Ac

/-- Settles O34: each row by the entry it names, each personality by what it does in an ac. -/
theorem personalitiesFire : Obligations.PersonalitiesFire := by
  intro s die tile x hdie htile hsite ran started core port
  have hruns {want : Site → Bool} (hwant : want x = true) (hfree : coreBusy s x = false)
      (hc : ¬ isCompute x 2 = true) : tileRow die tile want s = .next ran :=
    tileRow_runs_acs hdie htile hsite hwant hfree fun h => hc h.2
  have hstarts {want : Site → Bool} (hwant : want x = true) (hfree : coreBusy s x = false) (hf : fires x = true)
      (hc : isCompute x 2 = true) : tileRow die tile want s = .next started := by
    rw [tileRow_of_named hdie htile hsite hwant hfree, runEntry_of_core s hf hc]
  have hkeeps {want} := tileRow_of_other (want := want) hdie htile hsite
  refine ⟨fun hf hfree => ⟨fun hc => ⟨?start, fun ha => ?fire, fun ha => ?fireIf⟩, fun htag => ?tag,
    fun hk hp hm => ?merge, fun hk hport => ?read, fun hk hport => ?write⟩, ?_⟩
  case start => exact hstarts (by simp [hf, show isCompute x 2 = true from hc]) hfree hf hc
  case fire | fireIf => exact hstarts (decide_eq_true ha) hfree hf hc
  case tag =>
    by_cases hc : core = true
    · rw [if_pos hc]
      exact hstarts (by simp [hf, htag]) hfree hf hc
    · rw [if_neg hc]
      exact hruns (by simp [hf, htag]) hfree hc
  case merge => exact hruns (by simp [hf, isCompute, hk, hp, hm]) hfree (not_isCompute_of_pers hp (by decide))
  case read =>
    exact hruns (by simp [hf, hk, show mtPort x < 2 from hport]) hfree (not_isCompute_of_kind (by omega) 2)
  case write =>
    exact hruns (by simp [hf, hk, show 2 ≤ mtPort x from hport]) hfree (not_isCompute_of_kind (by omega) 2)
  refine ⟨fun c i hi => ?special, fun h => ?unnamed, fun hc => hkeeps (.inl ?core), fun htag => hkeeps (.inl ?untagged),
    fun h => hkeeps (.inl ?unmerged), fun h => hkeeps (.inl ?unread), fun h => hkeeps (.inl ?unwritten), fun t => ?acts⟩
  case special =>
    have hrow : exec i s = tileRow die tile (firesSf c) s := by
      fin_cases hi <;> rfl
    rw [hrow]
    refine ⟨fun hf hfree hk hp hcode => ?_, fun h => hkeeps (.inl ?_)⟩
    · exact hruns ((firesSf_iff c x).2 ⟨hf, hk, hp, hcode⟩) hfree (not_isCompute_of_pers hp (by decide))
    · rw [Bool.eq_false_iff, ne_eq, firesSf_iff]
      rintro ⟨hf, hk, hp, hcode⟩
      rcases h with h | h | h | h
      · cases hf.symm.trans h
      all_goals contradiction
  case unnamed =>
    intro c hc
    fin_cases hc <;> exact hkeeps (h.imp_left fun hf => by simp [hf])
  case core => simp [show isCompute x 2 = false from hc]
  case untagged => simp [htag]
  case unmerged => rcases h with h | h | h <;> simp [isCompute, h]
  case unread =>
    rcases h with h | h
    · simp [h]
    · simp [show ¬ mtPort x < 2 from Nat.not_lt.2 h]
  case unwritten =>
    rcases h with h | h
    · simp [h]
    · simp [show ¬ 2 ≤ mtPort x from Nat.not_le.2 h]
  case acts =>
    refine ⟨fun hk hp hsup => ?multiplier, fun hk hp hsup => ?function, fun hk hsup hvalid => ?memory,
      fun _ hsup _ => fireAct_suppressed t hsup⟩
    case multiplier =>
      intro u at'
      have hact : fireAct t x = if at'.ac < at'.mulReady ∨ suppressed u x = true then u else mulTake u x :=
        (fireAct_multiplier t hk hp).trans (mulAct_eq t hsup)
      refine ⟨fun h => hact.trans (if_pos h), fun hready hu v w h => ?_⟩
      have hgo : ¬ (at'.ac < at'.mulReady ∨ suppressed u x = true) := by simp [hu, hready]
      exact hact.trans ((if_neg hgo).trans (mulTake_word u h))
    case function =>
      rw [fireAct_special t hk hp]
      exact ⟨sfAct_waits t, fun hready v w h => sfAct_word t hsup hready h⟩
    case memory =>
      rw [fireAct_memory t hk, mtAct_eq t hsup hvalid]
      exact ⟨fun hlow hhigh => if_neg (by omega), fun h => if_pos h⟩

end Sys2Proof.Machine
end

section
/-!
PROOFS. The instructions of a tile core (R69, R89, R90, R91): when a row of the core executes its instruction, and what
an ac of a firing spends.
-/

namespace Sys2Proof.Machine

section Row
variable {s : State} {die tile : Nat} {x : Site} (hdie : die ≤ 39) (htile : tile ≤ 255)
variable (hsite : siteOf (coreTail s (tileKey die tile)) (tileKey die tile) = some x)
include hdie htile hsite

/-- A row of the core, once what is left of the instruction in progress has passed: the instruction at the program
counter, where the core may execute one of the row's class, and else nothing more. -/
theorem coreRow_eq (k : CoreClass) :
    coreRow die tile k s = .next (irq s
      (if coreReady (coreTail s (tileKey die tile)) x k then coreInstr (coreTail s (tileKey die tile)) x k
      else coreTail s (tileKey die tile))) := by
  simp only [coreRow, if_neg (show ¬ (39 < die ∨ 255 < tile) by omega), hsite, done]

/-- The rest of the budget passes (R91). -/
theorem execCoreBudgetExpiry_eq :
    execCoreBudgetExpiry die tile s = .next (irq s
      (coreIdle x.k budgetDone (coreOf (coreTail s (tileKey die tile)) x).left (coreTail s (tileKey die tile)))) := by
  simp only [execCoreBudgetExpiry, if_neg (show ¬ (39 < die ∨ 255 < tile) by omega), hsite, done]

end Row

/-- An instruction takes effect in its first ac, and its other acs pass (R89). -/
theorem coreInstr_eq (u : State) (x : Site) (k : CoreClass) :
    coreInstr u x k = coreTail (coreAc u x fun t =>
      coreEffect (setCore t x fun c => { c with busy := classLen k }) x k (coreOf u x) (wordAt x (coreOf u x))) x.k := rfl

/-- Settles O35: each row by what a row of the core does, each instruction by its effect. -/
theorem coreInstructionsExecute : Obligations.CoreInstructionsExecute := by
  intro s die tile x hdie htile u hsite c w run
  have hexec {k : CoreClass} (hready : coreReady u x k = true) :
      coreRow die tile k s = .next (run (classLen k) fun t => coreEffect t x k c w) := by
    rw [coreRow_eq hdie htile hsite k, if_pos hready, coreInstr_eq]
  have hother {k : CoreClass} (h : coreReady u x k = false) : coreRow die tile k s = .next (irq s u) := by
    rw [coreRow_eq hdie htile hsite k, if_neg (by simp [show coreReady (coreTail s (tileKey die tile)) x k = false from h])]
  refine ⟨hexec, hexec, hexec, hexec, hexec, hexec, hexec, hexec, hexec, hexec, hexec, hexec, hexec, hexec, hexec, hexec,
    hexec, hexec, execCoreBudgetExpiry_eq hdie htile hsite, fun k i hi h => ?_, fun t f => rfl, fun t => rfl⟩
  have hrow : exec i s = coreRow die tile k s := by
    fin_cases hi <;> rfl
  exact hrow.trans (hother h)

end Sys2Proof.Machine
end

section
/-!
PROOFS. Partitions and contexts (R117, R290, R291, R294, R387): the commands that open, close and return a partition and
those that create, remove and seed a context, each by its refusals in their order.
-/

namespace Sys2Proof.Machine

section Answers
variable {s : State} {h : CmdHdr} {row : OpRow} {r : Reply} {t : State} {c : Prop} [Decidable c] {st : Nat}
variable (hst : st ≠ stBadOpcode) (hr : answer (taken s h) h row (cmdIndex s h.src) r = t)
include hst hr

/-- A body that refuses first, in one case, turns the command away in that case and else does what it goes on to do. -/
theorem answer_refuse_else :
    answer (taken s h) h row (cmdIndex s h.src) (if c then refuse (taken s h) st else r) =
      if c then turnedAway s h row.agent st 0 else t := by
  by_cases hc : c
  · rw [if_pos hc, if_pos hc]
    exact answer_refuseAt s h row 0 hst
  · rw [if_neg hc, if_neg hc, hr]

/-- The same of a body that says first when it does not refuse. -/
theorem answer_else_refuse :
    answer (taken s h) h row (cmdIndex s h.src) (if c then r else refuse (taken s h) st) =
      if c then t else turnedAway s h row.agent st 0 := by
  simpa only [ite_not] using answer_refuse_else (c := ¬c) hst hr

end Answers

/-- Settles O23: each command by the refusals of its body, in their order, and the state that it accepts. -/
theorem partitionCommandsComplete : Obligations.PartitionCommandsComplete := by
  intro s h p u st no
  have hstate : stState ≠ stBadOpcode := by decide
  have hinUse : stInUse ≠ stBadOpcode := by decide
  have hnotPermitted : stNotPermitted ≠ stBadOpcode := by decide
  refine ⟨fun radio f ht => ?opens, fun ht => ?closes, fun ht => ?returns, fun slot seed ht => ?creates,
    fun c ht => ?removes, fun c seed ht => ?seeds⟩
  case opens =>
    exact exec_of_answer rfl (by decide) rfl ht (answer_refuse_else hstate (answer_acceptAt s _ h _ 0 0))
  case closes =>
    exact exec_of_answer rfl (by decide) rfl ht
      (answer_refuse_else hstate (answer_refuse_else hinUse (answer_acceptAt s _ h _ 0 0)))
  case returns =>
    exact exec_of_answer rfl (by decide) rfl ht (answer_else_refuse hstate (answer_acceptAt s _ h _ 0 0))
  case creates =>
    exact exec_of_answer rfl (by decide) rfl ht
      (answer_refuse_else hstate (answer_refuse_else hnotPermitted (answer_refuse_else hstate
        (answer_acceptAt s _ h _ 0 0))))
  case removes =>
    exact exec_of_answer rfl (by decide) rfl ht
      (answer_refuse_else hnotPermitted (answer_refuse_else hstate (answer_acceptAt s _ h _ 0 0)))
  case seeds =>
    exact exec_of_answer rfl (by decide) rfl ht (answer_else_refuse hstate (answer_acceptAt s _ h _ 0 0))

end Sys2Proof.Machine
end

section
/-!
PROOFS. The seed registers (R117, R134): what each write does with access, and when a seed reaches the selected context.
-/

namespace Sys2Proof.Machine

/-! ## The commands -/

theorem exec_ariSeedWrite (v : View) (data : BitVec 64) (s : State) : exec (.ariSeedWrite v data) s =
    .next (irq s (if hasAccess v = true then ariSeed s data else s)) := rfl

theorem exec_ariSeedLowWrite (v : View) (data : BitVec 32) (s : State) : exec (.ariSeedLowWrite v data) s =
    .next (irq s (if hasAccess v = true then
      { s with seedStage := if v = .c then (data, s.seedStage.2) else (s.seedStage.1, data) } else s)) := rfl

theorem exec_ariSeedHighWrite (v : View) (data : BitVec 32) (s : State) : exec (.ariSeedHighWrite v data) s =
    .next (irq s (if hasAccess v = true then
      { ariSeed s (data ++ stagedLow s v) with
        seedStage := if v = .c then (0, s.seedStage.2) else (s.seedStage.1, 0) } else s)) := rfl

theorem exec_ariSeedSelWrite (v : View) (data : BitVec 32) (s : State) : exec (.ariSeedSelWrite v data) s =
    .next (irq s (if hasAccess v = true then
      { setReg s (bAri + 0x4) (bits data.toNat 10 0) with seedStage := (0, 0) } else s)) := rfl

/-! ## The selected context -/

section Selected
variable {s : State} (seed : BitVec 64)

theorem ariSeed_of_ready (h : (ctxOf s (bits (reg s (bAri + 0x4)) 10 0)).state = .ready) :
    ariSeed s seed = seedCtx s (bits (reg s (bAri + 0x4)) 10 0) seed := if_pos h

theorem ariSeed_of_not_ready (h : (ctxOf s (bits (reg s (bAri + 0x4)) 10 0)).state ≠ .ready) :
    ariSeed s seed = orReg s (bAri + 0x18) 0x10 := if_neg h

end Selected

/-- Settles O24: each write by the view's access, a seed by the state of the selected context. -/
theorem seedRegisters : Obligations.SeedRegisters := by
  intro s v d w c seeded full
  refine ⟨fun hv => ⟨fun hready => ?reaches, fun hno => ?rejected, ?low, fun hready => ?high, ?select⟩,
    fun hv => ?shut⟩
  case reaches =>
    rw [exec_ariSeedWrite, if_pos hv, ariSeed_of_ready d hready]
    rfl
  case rejected => rw [exec_ariSeedWrite, if_pos hv, ariSeed_of_not_ready d hno]
  case low => rw [exec_ariSeedLowWrite, if_pos hv]
  case high =>
    rw [exec_ariSeedHighWrite, if_pos hv, ariSeed_of_ready _ hready]
    rfl
  case select => rw [exec_ariSeedSelWrite, if_pos hv]
  case shut =>
    have hno : ¬hasAccess v = true := ne_true_of_eq_false hv
    simp only [exec_ariSeedWrite, exec_ariSeedLowWrite, exec_ariSeedHighWrite, exec_ariSeedSelWrite, if_neg hno,
      and_self]

end Sys2Proof.Machine
end

section
/-!
PROOFS. What a timetable does in its pass beside its tiles (R145, R147–R150, R154, R157, R160, R161, R164, R373,
R383): each command by the moment it acts at and the case of it.
-/

namespace Sys2Proof.Machine

/-- The same state at another moment of its tick. -/
def atOff (s : State) (off : Nat) : State := { s with tick := { s.tick with off := off } }

/-! ## The commands -/

theorem exec_tickClose (c off : Nat) (s : State) : exec (.tickClose c off) s =
    .next (irq s (if mayClose s c off = true then tickClose s c off else s)) := rfl

theorem exec_requestReady (q off : Nat) (s : State) : exec (.requestReady q off) s =
    .next (irq s (if (queueOf s q).kind = 5 then requestReady s q off else s)) := rfl

theorem exec_entryOffset (c off : Nat) (s : State) : exec (.entryOffset c off) s =
    .next (irq s (if mayEnter s c off = false then s
      else if replaying s c = true then replayEntry s c off else entryOffset s c off)) := rfl

theorem exec_exitResult (c : Nat) (v : TWord) (off : Nat) (s : State) : exec (.exitResult c v off) s =
    .next (irq s (if (ttOf s c).ran = true then exitResult s c v off else s)) := rfl

theorem exec_ttbTraceArm (v : View) (n : Nat) (data : BitVec 32) (s : State) : exec (.ttbTraceArm v n data) s =
    .next (irq s (if hasAccess v = true ∧ n < 32 then
      setReg s (ttbBase n + 0x24)
        (bits data.toNat 20 0 + ofBool (bitOf data.toNat 31 || bitOf (reg s (ttbBase n + 0x24)) 31) * 2 ^ 31)
    else s)) := rfl

theorem exec_dlbEnWrite (v : View) (c : Nat) (data : BitVec 32) (s : State) : exec (.dlbEnWrite v c data) s =
    .next (irq s (if hasAccess v = true ∧ c < 2048 ∧
        ¬(data.getLsbD 0 = true ∧ (part s (partOfCtx c)).radio = true) then
      { s with tts := upd s.tts c fun t => { t with dlbEn := data.getLsbD 0 } } else s)) := rfl

section Slots
variable {s : State} {c i n : Nat} {d : HbmDesc}

theorem exec_hbmSlotRead_of_live (h : liveDesc s c i = some (d, n)) : exec (.hbmSlotRead c i) s =
    .next (irq s (if d.write = true then s else slotRead s c i d n)) := by
  change done s _ = _
  rw [h]
  rfl

theorem exec_hbmSlotWrite_of_live (h : liveDesc s c i = some (d, n)) : exec (.hbmSlotWrite c i) s =
    .next (irq s (if d.write = true then slotWrite s c i d n else s)) := by
  change done s _ = _
  rw [h]
  rfl

theorem exec_hbmSlotRead_of_none (h : liveDesc s c i = none) : exec (.hbmSlotRead c i) s = .next (irq s s) := by
  change done s _ = _
  rw [h]
  rfl

theorem exec_hbmSlotWrite_of_none (h : liveDesc s c i = none) : exec (.hbmSlotWrite c i) s = .next (irq s s) := by
  change done s _ = _
  rw [h]
  rfl

end Slots

/-! ## The close (R154, R157) -/

/-- A close is marked where it is away from the report's offset, or the steps counted are not the report's. -/
theorem recOf_mismatch_iff (s : State) (c off : Nat) (last : Bool) :
    ((recOf s c 1 off last).closeMismatch || (recOf s c 1 off last).schedMismatch) = true ↔
      off ≠ (ttOf s c).report.closeAc ∨ (ttOf s c).schedCount ≠ (ttOf s c).report.schedTotal := by
  simp [recOf]

theorem tickClose_eq (s : State) (c off : Nat) :
    let t := ttOf s c
    let w := ttbBase (partOfCtx c)
    let u := atOff s off
    let bad := off ≠ t.report.closeAc ∨ t.schedCount ≠ t.report.schedTotal
    let r := recOf u c 1 off false
    let a := { u with tts := upd u.tts c fun t => { t with closed := true } }
    let b := deliverRec a c (if bad then { r with faulted := true, faults := r.faults + 1 } else r)
    let d := if traceOf b c = true then endTrace b (partOfCtx c) else b
    tickClose s c off = if bad then raiseFault (orReg (incReg d (w + 0x10) 1) (w + 0x4) 0x8)
      { code := 15, named := .context c, detail := stepDiff t, off := off } else d := by
  intro t w u bad r a b d
  have hbad : (r.closeMismatch || r.schedMismatch) = true ↔ bad := recOf_mismatch_iff u c off false
  have hite {α : Type} (x y : α) :
      (if (r.closeMismatch || r.schedMismatch) = true then x else y) = if bad then x else y := if_congr hbad rfl rfl
  simp only [d, b, ← hite]
  rfl

/-! ## HBM slots (R145, R148) -/

section Slots
variable {s : State} {c i n : Nat} {d : HbmDesc}

/-- Slot and line of a descriptor are counted as it passes, the line where it is in the timetable's view. -/
def slotMoved (s : State) (c i : Nat) (d : HbmDesc) (n : Nat) : State :=
  lineMoved (atOff s (3 * descSlot d n)) c i d.write (inView s c d.pc (descLine d n))

/-- The state after a write slot has taken its three words from its port. -/
def slotDrawn (s : State) (c i : Nat) (d : HbmDesc) (n : Nat) : State :=
  (List.range 3).foldl (fun u k => hubTake u (hubInKey d.hub d.port) (3 * descSlot d n + k))
    { slotMoved s c i d n with fresh := s.fresh + 3 }

theorem slotRead_of_seen (hw : d.write = false) (h : inView s c d.pc (descLine d n) = true) :
    let r := readLine (slotMoved s c i d n) (.context c) d.pc (descLine d n).toNat
    slotRead s c i d n = placeLine r.1 c d n (if r.2.2 = true then 0 else d.kind) r.2.1 := by
  rw [slotMoved, hw]
  exact if_pos h

theorem slotRead_of_unseen (hw : d.write = false) (h : inView s c d.pc (descLine d n) = false) :
    slotRead s c i d n = placeLine (memFault (slotMoved s c i d n) 36 (.context c) d.pc (wrapInt 24 (descLine d n)))
      c d n 0 (List.replicate 64 0) := by
  rw [slotMoved, hw]
  exact if_neg (ne_true_of_eq_false h)

theorem slotWrite_eq (hw : d.write = true) :
    slotWrite s c i d n =
      if replaying (slotDrawn s c i d n) c = true then slotDrawn s c i d n
      else if inView (slotDrawn s c i d n) c d.pc (descLine d n) = true then
        writeLine (slotDrawn s c i d n) d.pc (descLine d n).toNat
          ((List.range 3).flatMap (writeWord s d n) ++ [0, 0, 0, 0])
      else memFault (slotDrawn s c i d n) 36 (.context c) d.pc (wrapInt 24 (descLine d n)) := by
  rw [slotDrawn, slotMoved, hw]
  rfl

end Slots

/-! ## Requests (R150, R260, R383) -/

section Requests
variable {s : State} {i q c off : Nat}

theorem requestReady_of_binding (h : bindingOfQ (atOff s off) q = some i) :
    requestReady s q off = frameReady (atOff s off) i q off := by
  unfold atOff at *
  rw [requestReady, h]

theorem requestReady_of_ring (hb : bindingOfQ (atOff s off) q = none) (hc : ctxOfEntryQ (atOff s off) q = some c) :
    requestReady s q off = ringReady (atOff s off) c q off := by
  unfold atOff at *
  rw [requestReady, hb, hc]

theorem requestReady_of_neither (hb : bindingOfQ (atOff s off) q = none) (hc : ctxOfEntryQ (atOff s off) q = none) :
    requestReady s q off = atOff s off := by
  unfold atOff at *
  rw [requestReady, hb, hc]

theorem frameReady_of_none (h : firstReady (look s.binds i) (tickCount s * tickLen s + off) = none) :
    frameReady s i q off = s := by
  rw [frameReady, h]

theorem frameReady_of_first {n : Nat} {x : Hold}
    (h : firstReady (look s.binds i) (tickCount s * tickLen s + off) = some (n, x)) :
    frameReady s i q off = becomeReady { s with binds := upd s.binds i fun b =>
        { b with holds := upd b.holds n fun h => { h with ready := true } } } q
      { tick := x.readyAc / tickLen s, off := x.readyAc % tickLen s
        words := fieldWords x (look s.binds i).descN (look s.binds i).fIn
        postmark := (ctxOf s (look s.binds i).ctx).postmark, hold := some (i, n) } := by
  rw [frameReady, h]
  rfl

theorem ringReady_eq (s : State) (c q off : Nat) :
    let n := (ttOf s c).report.entry.f
    let x := queueOf s q
    let r := takeEntries s (.context c) q n
    ringReady s c q off =
      if ¬(x.enabled = true ∧ n ≠ 0 ∧ n ≤ occupancy x) then s
      else if (ctxOf s c).state = .resetting then countDead r.1 q 1
      else becomeReady r.1 q
        { tick := tickCount s, off := off, words := r.2.1, postmark := BitVec.ofNat 16 r.2.2 } := by
  intro n x r
  rw [ite_not]
  rfl

end Requests

/-! ## Entries (R149, R150, R160) -/

section Entries
variable {s : State} {c off : Nat}

/-- The ready request whose turn it is at an entry offset. -/
def nextRequest (s : State) (c off : Nat) : Option (Nat × ReadyReq) :=
  (readyOf s (balanceGroup s c) off)[lowerMembers s c off]?

theorem entryOffset_of_request {q : Nat} {r : ReadyReq} (h : nextRequest (atOff s off) c off = some (q, r)) :
    let u := atOff s off
    entryOffset s c off = placeEntry
      { u with
        queues := upd u.queues q fun x => { x with ready := x.ready.erase r }
        binds := holdEntered u r.hold off
        tts := upd u.tts c fun t => entered t { off := off, hold := r.hold, postmark := r.postmark } r.words }
      c off r.words 0 := by
  intro u
  unfold nextRequest atOff at h
  rw [entryOffset, h]
  rfl

theorem entryOffset_of_idle (h : nextRequest (atOff s off) c off = none) :
    let u := atOff s off
    let a := { u with tts := upd u.tts c fun t => entered t { off := off, idle := true } t.report.fill }
    entryOffset s c off = placeEntry a c off (ttOf a c).report.fill 0 := by
  intro u a
  unfold nextRequest atOff at h
  rw [entryOffset, h]
  rfl

end Entries

/-! ## Exits (R149, R375, R376) -/

section Exits
variable {s : State} {c off : Nat} {v : TWord} {f : Flight}

/-- The port that a timetable's result words stand in. -/
def exitPort (t : Timetable) : Nat := hubInKey t.report.exit.hub t.report.exit.port

/-- The result word at an offset: the one that stands in the exit port, or the command's own. -/
def exitWord (s : State) (c : Nat) (v : TWord) (off : Nat) : TWord :=
  (hubWordAt s (exitPort (ttOf s c)) off).getD v

/-- The state after the exit port has been read at an offset. -/
def exitTaken (s : State) (c off : Nat) : State := hubTake (atOff s off) (exitPort (ttOf s c)) off

/-- A result word of an entry goes out: not of fill words, and not past a fault's barrier. -/
def exitGoes (s : State) (c off : Nat) (f : Flight) : Bool := !f.idle && !pastBarrier (exitTaken s c off) c

/-- The state after a result word of an entry has come. -/
def exitLanded (s : State) (c off : Nat) (f : Flight) : State :=
  { exitTaken s c off with tts := upd (exitTaken s c off).tts c fun t => landed t f (exitGoes s c off f) }

theorem exitResult_of_noFlight (h : flightAt (ttOf s c) off = none) : exitResult s c v off = exitTaken s c off := by
  rw [exitResult, h]
  rfl

theorem exitResult_of_discarded (h : flightAt (ttOf s c) off = some f) (hout : exitGoes s c off f = false) :
    exitResult s c v off = exitLanded s c off f := by
  rw [exitResult, h]
  exact if_pos hout

theorem exitResult_of_ring (h : flightAt (ttOf s c) off = some f) (hout : exitGoes s c off f = true)
    (hhold : f.hold = none) : exitResult s c v off = ringResult (exitLanded s c off f) c f (exitWord s c v off) := by
  rw [exitResult, h]
  refine (if_neg (ne_false_of_eq_true hout)).trans ?_
  rw [hhold]
  rfl

theorem exitResult_of_request {i n : Nat} (h : flightAt (ttOf s c) off = some f) (hout : exitGoes s c off f = true)
    (hhold : f.hold = some (i, n)) :
    let y := exitLanded s c off f
    exitResult s c v off = { y with
      binds := holdResult y i n (exitWord s c v off) (decide (f.left ≤ 1))
      fresh := y.fresh + (look y.binds i).fOut } := by
  rw [exitResult, h]
  refine (if_neg (ne_false_of_eq_true hout)).trans ?_
  rw [hhold]
  rfl

end Exits

/-- Settles O39: each command by the moment it acts at and the case of it. -/
theorem timetableEventsComplete : Obligations.TimetableEventsComplete := by
  intro s c off t p w at'
  refine ⟨fun h => ?closes, fun h => ?stays, fun i d n h => ?slots, fun i h => ?noSlots, fun h hr => ?enters,
    fun h hr => ?replays, fun h => ?noEntry, fun q => ?ready, fun v => ?exits, fun v n data => ?registers⟩
  case closes =>
    rw [exec_tickClose, if_pos h, tickClose_eq]
    rfl
  case stays => rw [exec_tickClose, if_neg (ne_true_of_eq_false h)]
  case slots =>
    intro line now seen moved left bytes drawn
    refine ⟨fun hw => ⟨fun hseen => ?reads, fun hno => ?faults, ?noWrite⟩, fun hw => ⟨?noRead, ?writes⟩⟩
    case reads =>
      rw [exec_hbmSlotRead_of_live h, if_neg (ne_true_of_eq_false hw), slotRead_of_seen (s := s) hw hseen]
      rfl
    case faults =>
      rw [exec_hbmSlotRead_of_live h, if_neg (ne_true_of_eq_false hw), slotRead_of_unseen (s := s) hw hno]
      rfl
    case noWrite => rw [exec_hbmSlotWrite_of_live h, if_neg (ne_true_of_eq_false hw)]
    case noRead => rw [exec_hbmSlotRead_of_live h, if_pos hw]
    case writes =>
      rw [exec_hbmSlotWrite_of_live h, if_pos hw, slotWrite_eq hw]
      rfl
  case noSlots => exact ⟨exec_hbmSlotRead_of_none h, exec_hbmSlotWrite_of_none h⟩
  case enters =>
    intro next
    rw [exec_entryOffset, if_neg (ne_false_of_eq_true h), if_neg (ne_true_of_eq_false hr)]
    refine ⟨fun q r hnext => ?request, fun hnext => ?idle⟩
    case request =>
      rw [entryOffset_of_request hnext]
      rfl
    case idle =>
      rw [entryOffset_of_idle hnext]
      rfl
  case replays => rw [exec_entryOffset, if_neg (ne_false_of_eq_true h), if_pos hr]
  case noEntry => rw [exec_entryOffset, if_pos h]
  case ready =>
    intro x
    refine ⟨fun i hkind hbind => ?binding, fun c' hkind hbind hctx => ?ring, fun hkind hbind hctx => ?neither,
      fun hkind => ?notEntry⟩
    case binding =>
      intro b
      rw [exec_requestReady, if_pos hkind, requestReady_of_binding hbind]
      refine ⟨fun n h hfirst => ?first, fun hnone => ?none⟩
      case first =>
        rw [frameReady_of_first (s := atOff s off) hfirst]
        rfl
      case none =>
        rw [frameReady_of_none (s := atOff s off) hnone]
        rfl
    case ring =>
      intro n r
      rw [exec_requestReady, if_pos hkind, requestReady_of_ring hbind hctx, ringReady_eq]
      rfl
    case neither =>
      rw [exec_requestReady, if_pos hkind, requestReady_of_neither hbind hctx]
      rfl
    case notEntry => rw [exec_requestReady, if_neg hkind]
  case exits =>
    refine ⟨fun hran => ?ran, fun hran => ?idle⟩
    case ran =>
      intro key word u
      rw [exec_exitResult, if_pos hran]
      refine ⟨fun hnone => ?noFlight, fun f hf => ?flight⟩
      case noFlight =>
        rw [exitResult_of_noFlight hnone]
        rfl
      case flight =>
        intro out y
        refine ⟨fun hout => ?discarded, fun hout hhold => ?ring, fun hout i n hhold => ?request⟩
        case discarded =>
          rw [exitResult_of_discarded hf hout]
          rfl
        case ring =>
          rw [exitResult_of_ring hf hout hhold]
          rfl
        case request =>
          rw [exitResult_of_request hf hout hhold]
          rfl
    case idle => rw [exec_exitResult, if_neg (ne_true_of_eq_false hran)]
  case registers =>
    intro a
    refine ⟨fun hv hn => ?arms, fun hno => ?unarmed, fun hv hc hdata => ?balances, fun hno => ?unbalanced⟩
    case arms => rw [exec_ttbTraceArm, if_pos ⟨hv, hn⟩]
    case unarmed =>
      rw [exec_ttbTraceArm, if_neg]
      rintro ⟨hv, hn⟩
      rcases hno with hno | hno
      · exact ne_true_of_eq_false hno hv
      · omega
    case balances =>
      rw [exec_dlbEnWrite, if_pos]
      refine ⟨hv, hc, ?_⟩
      rintro ⟨hset, hradio⟩
      exact hdata.elim (fun hno => ne_true_of_eq_false hno hradio) fun hno => ne_true_of_eq_false hno hset
    case unbalanced =>
      rw [exec_dlbEnWrite, if_neg]
      rintro ⟨hv, hc, hdata⟩
      rcases hno with hno | hno | hno
      · exact ne_true_of_eq_false hno hv
      · omega
      · exact hdata hno

end Sys2Proof.Machine
end

section
/-!
PROOFS. Commands on timetables (R151, R155, R156, R173, R309, R310): what an admission answers by the rows its report
meets, and the refusals of a withdrawal, a resume and a forced cut in their order.
-/

namespace Sys2Proof.Machine

/-! ## Answers -/

/-- The row codes are none of the general codes (R337). -/
theorem stRow_ne_stBadOpcode (n : Nat) : stRow n ≠ stBadOpcode := by
  unfold stRow stBadOpcode
  omega

/-- A body that refuses on a state it has already moved has the refusal written there. -/
theorem answer_refuseOn (s t : State) (h : CmdHdr) (row : OpRow) {st : Nat} (hst : st ≠ stBadOpcode) :
    answer (taken s h) h row (cmdIndex s h.src) (refuse t st) = statusWritten s t h row.agent st 0 0 :=
  answer_refuse s t h row st 0 0 hst

/-- A reply that depends on a condition is answered as the reply of its case. -/
theorem answer_ite {s : State} {h : CmdHdr} {row : OpRow} {i : Nat} {r r' : Reply} {t t' : State} {c : Prop}
    [Decidable c] (hr : answer s h row i r = t) (hr' : answer s h row i r' = t') :
    answer s h row i (if c then r else r') = if c then t else t' := by
  rw [apply_ite (answer s h row i), hr, hr']

/-- A refusal in either case keeps the state of its case and shows its status. -/
theorem ite_refuse {c : Prop} [Decidable c] (s t : State) (m n : Nat) :
    (if c then refuse s m else refuse t n) =
      refuse (if c then refuse s m else refuse t n).state (if c then m else n) := by
  by_cases hc : c
  · rw [if_pos hc, if_pos hc]
    rfl
  · rw [if_neg hc, if_neg hc]
    rfl

/-! ## Admission (R155, R173) -/

/-- A Siding that candidate x needs, staged for boundary b, cannot be written (R173). -/
def admitBlocked (s : State) (x : Candidate) (b : Nat × Nat × Nat) : Bool :=
  (quadsOf x.report).any (stagingBlocked s (partOfCtx x.ctx) (sameStaging s (partOfCtx x.ctx) (admitPlace x b)))

/-- The rows of R155, in their order. -/
def admitRows : List Nat := [1, 2, 3, 4, 5, 6, 7, 8, 9, 10, 11, 12, 13]

/-- What is staged of a candidate that meets every row, with its effect still to come. -/
def candidateStaged (h : CmdHdr) (s : State) (i : Nat) (x : Candidate) (run : Nat) (b : Nat × Nat × Nat) : State :=
  let place := admitPlace x b
  addEffect (stageTimetable { s with fresh := s.fresh + 1 } x run place) h i place.1
    (.swapIn (partOfCtx x.ctx) place.1 place.2)

section Candidate
variable {s : State} {x : Candidate} (h : CmdHdr) (i run : Nat) (b : Nat × Nat × Nat)

theorem admitCandidate_of_met (hrow : failedRow s x admitRows = none) :
    admitCandidate h s i x run b =
      if admitBlocked s x b = true then refuse s stState
      else if 1 < x.report.chips then accept (candidateStaged h s i x run b)
      else acceptAt (candidateStaged h s i x run b) b.1 b.2.2 := by
  rw [admitRows] at hrow
  simp only [admitCandidate, hrow]
  rfl

theorem admitCandidate_of_failed {n : Nat} (hrow : failedRow s x admitRows = some n) (hn : n ≠ 4) :
    admitCandidate h s i x run b = refuse s (stRow n) := by
  rw [admitRows] at hrow
  simp only [admitCandidate, hrow, if_neg hn]

theorem admitCandidate_of_digest (hrow : failedRow s x admitRows = some 4) :
    admitCandidate h s i x run b = badDigest s x b := by
  rw [admitRows] at hrow
  simp only [admitCandidate, hrow, if_true]

/-- Bytes that do not hash to the digest are refused: with STATE where they cannot be written, else with DIGEST. -/
theorem badDigest_refuses (s : State) (x : Candidate) :
    badDigest s x b = refuse (badDigest s x b).state (if admitBlocked s x b = true then stState else stDigest) :=
  ite_refuse ..

end Candidate

section Body
variable {u : State} {h : CmdHdr} {c group run image report il rl i : Nat}

theorem ttAdmitBody_of_unreadable :
    let rb := hostRead u (.function 0) 0 report rl
    let ib := hostRead rb.1 (.function 0) 0 image il
    readReport ((rb.2.map (·.1)).getD []) = none →
      ttAdmitBody h c group run image report il rl u i = refuse ib.1 stBadParam := by
  intro rb ib hread
  simp only [ttAdmitBody, rb, ib, hread]

theorem ttAdmitBody_of_read {r' : Report} :
    let rb := hostRead u (.function 0) 0 report rl
    let ib := hostRead rb.1 (.function 0) 0 image il
    let im := (ib.2.map (·.1)).getD []
    let r := asLoaded r' im
    let b := stagingBoundary ib.1 h c r im
    readReport ((rb.2.map (·.1)).getD []) = some r' →
      ttAdmitBody h c group run image report il rl u i =
        admitCandidate h ib.1 i { ctx := c, group := group, report := r, image := im, tick := b.1 } run b := by
  intro rb ib im r b hread
  simp only [ttAdmitBody, rb, ib, im, r, b, hread]

end Body

/-- Settles O40: each command by what its own checks answer, in their order. -/
theorem timetableCommandsComplete : Obligations.TimetableCommandsComplete := by
  intro s h c u i p
  have hstate : stState ≠ stBadOpcode := by decide
  refine ⟨fun group run image report il rl ht => ?admission, fun ht => ?withdraw, fun ht => ?resume,
    fun f q ht => ?force⟩
  case admission =>
    intro rb ib im
    refine ⟨fun hread => ?unreadable, fun r' hread => ?read⟩
    case unreadable =>
      exact exec_of_answer rfl (by decide) rfl ht
        ((congrArg _ (ttAdmitBody_of_unreadable hread)).trans (answer_refuseOn s ib.1 h _ (by decide)))
    intro r b x place full t row
    have hexec {a : State} (hreply : answer u h { opcode := 0x0301, agent := 1, pends := true } i
        (admitCandidate h ib.1 i x run b) = a) :
        exec (.ttAdmit h c group run image report il rl) s = .next (irq s a) :=
      exec_of_answer rfl (by decide) rfl ht ((congrArg _ (ttAdmitBody_of_read hread)).trans hreply)
    refine ⟨fun hmet => hexec ?met, fun n hfailed hn => hexec ?failed, fun hdigest => hexec ?digest⟩
    case met =>
      rw [admitCandidate_of_met h i run b hmet]
      exact answer_ite (answer_refuseOn s ib.1 h _ hstate)
        (answer_ite (answer_acceptAt s t h _ 0 0) (answer_acceptAt s t h _ b.1 b.2.2))
    case failed =>
      rw [admitCandidate_of_failed h i run b hfailed hn]
      exact answer_refuseOn s ib.1 h _ (stRow_ne_stBadOpcode n)
    case digest =>
      rw [admitCandidate_of_digest h i run b hdigest, badDigest_refuses]
      exact answer_refuseOn s _ h _ (by split <;> decide)
  case withdraw =>
    intro a t
    exact exec_of_answer rfl (by decide) rfl ht
      (answer_refuse_else hstate (answer_acceptAt s _ h _ (nextTick t) 0))
  case resume =>
    exact exec_of_answer rfl (by decide) rfl ht
      (answer_ite (answer_refuseAt s h _ (levelCode u.level) (by decide))
        (answer_refuse_else hstate
          (answer_ite (answer_refuseAt s h _ 1 (by decide)) (answer_acceptAt s _ h _ (nextTick u) 0))))
  case force =>
    intro b t
    exact exec_of_answer rfl (by decide) rfl ht (answer_refuse_else hstate (answer_acceptAt s _ h _ b 0))

end Sys2Proof.Machine
end

section
/-!
PROOFS. The general checks of a command (R433): what they reply by the first that fails, how a refusal is shown and
answered, and that it is all that a refused command does.
-/

namespace Sys2Proof.Machine

/-! ## What the checks reply -/

/-- The postmark of a command is that of the function that posts it (R333). -/
abbrev postmarkFresh (u : State) (h : CmdHdr) : Prop := h.postmark = (vfOf u (cmdFunc u h.src)).postmark

/-- The command may be posted by its function and from its source (R335). -/
abbrev mayPost (u : State) (h : CmdHdr) (row : OpRow) : Prop :=
  (cmdFunc u h.src = 0 ∨ row.fromT = true) ∧ (row.stationOnly = true → viaRing h.src = false)

/-- The general checks in their order: the first that fails refuses with its status, and with its number. -/
theorem judge_eq (u : State) (h : CmdHdr) (row : OpRow) (params address : Bool) (body : State → Nat → Reply)
    (i : Nat) : judge u h row params address body i =
      if ¬postmarkFresh u h then refuseAt u stStale 0 0
      else if ¬h.opcode.toNat = row.opcode then refuseAt u stBadOpcode 0 0
      else if ¬mayPost u h row then refuseAt u stNotPermitted 0 0
      else if ¬(h.clean = true ∧ params = true) then refuseAt u stBadParam 0 0
      else if address = false then refuseAt u stAddress 0 0
      else if ¬(u.level ≠ .beacon ∨ row.atBeacon = true) then refuseAt u stLevel (levelCode u.level) 0
      else if busyLimit u row ≠ 0 then refuseAt u stBusy (busyLimit u row) 0
      else body u i := by
  have hmay : ¬mayPost u h row ↔
      (cmdFunc u h.src ≠ 0 ∧ row.fromT = false) ∨ (row.stationOnly = true ∧ viaRing h.src = true) := by
    simp [not_and_or, -not_and]
  have hclean : ¬(h.clean = true ∧ params = true) ↔ h.clean = false ∨ params = false := by
    simp [not_and_or, -not_and]
  have hopen : ¬(u.level ≠ .beacon ∨ row.atBeacon = true) ↔ u.level = .beacon ∧ row.atBeacon = false := by
    simp
  simp only [hmay, hclean, hopen]
  rfl

/-! ## How a refusal is shown and answered -/

/-- The statuses with which the refusal of a scan sets SCAN_FAIL (R190). -/
def scanFailStatuses : List Nat := [stLevel, stState, stDigest, stMismatch]

theorem scanReply_of_fail (t : State) {st : Nat} (r0 r1 : Nat) (hst : st ∈ scanFailStatuses) :
    scanReply (refuseAt t st r0 r1) = refuseAt (noteScanFail t) st r0 r1 := if_pos hst

/-- The refusal of a command is shown as it is, but where it is a scan's and sets SCAN_FAIL. -/
theorem shown_of_other (c : Instr) (t : State) {st : Nat} (r0 r1 : Nat) (hst : st ∉ scanFailStatuses) :
    shown c (refuseAt t st r0 r1) = refuseAt t st r0 r1 := by
  have hreply : scanReply (refuseAt t st r0 r1) = refuseAt t st r0 r1 := if_neg hst
  rw [shown, hreply, ite_self]

theorem shown_level (c : Instr) (t : State) (r0 : Nat) :
    shown c (refuseAt t stLevel r0 0) = refuseAt (if isScan c then noteScanFail t else t) stLevel r0 0 := by
  rw [shown, scanReply_of_fail t r0 0 (by decide), ← apply_ite (refuseAt · stLevel r0 0)]

/-- A command of no known opcode is answered by agent 3 (R333). -/
theorem answer_badOpcode (s : State) (h : CmdHdr) (row : OpRow) :
    answer (taken s h) h row (cmdIndex s h.src) (refuse (taken s h) stBadOpcode) = turnedAway s h 3 stBadOpcode 0 := rfl

/-! ## What a refused command does -/

/-- The opcode 0x0A03 is DEVICE_RESET's alone. -/
theorem eq_deviceReset_of_opcode {c : Instr} {h : CmdHdr} {row : OpRow} (hc : commandRow c = some (h, row))
    (hr : row.opcode = 0x0A03) : c = .deviceReset h ∧ row = deviceResetRow := by
  cases c <;> cases hc
  case deviceReset => exact ⟨rfl, rfl⟩
  all_goals cases hr

/-- What a general check refuses is answered with the refusal, whatever the command's body would do: its status
stands alone. -/
theorem exec_of_refused {c : Instr} {h : CmdHdr} {row : OpRow} {s : State} {st r0 : Nat} {t : State}
    (hc : commandRow c = some (h, row)) (hm : mayTake s h row.agent = true)
    (hj : ∀ body i, judge (taken s h) h row (fieldsOk c) (buffersOk s c) body i = refuseAt (taken s h) st r0 0)
    (hst : st ≠ stOk)
    (ht : answer (taken s h) h row (cmdIndex s h.src) (shown c (refuseAt (taken s h) st r0 0)) = t) :
    exec c s = .next (irq s t) := by
  by_cases hr : row.opcode = 0x0A03
  · obtain ⟨rfl, rfl⟩ := eq_deviceReset_of_opcode hc hr
    have htaken : takeCommand s h deviceResetRow true true (deviceResetBody h) = t := by
      rw [takeCommand, takeWith, if_pos hm]
      exact (congrArg _ (hj ..)).trans ht
    have hrefused : ¬(mayTake s h 2 = true ∧
        (judge (taken s h) h deviceResetRow true true (deviceResetBody h) 0).status = stOk) := by
      rintro ⟨-, hok⟩
      exact hst ((congrArg Reply.status (hj ..)).symm.trans hok)
    change execDeviceReset h s = _
    rw [execDeviceReset, htaken, if_neg hrefused, done]
  · rw [exec_command hc hr, takeWith, if_pos hm, hj, ht, done]

/-- A refusal that is no scan's own turns the command away. -/
theorem exec_turnedAway {c : Instr} {h : CmdHdr} {row : OpRow} {s : State} {st r0 : Nat}
    (hc : commandRow c = some (h, row)) (hm : mayTake s h row.agent = true)
    (hj : ∀ body i, judge (taken s h) h row (fieldsOk c) (buffersOk s c) body i = refuseAt (taken s h) st r0 0)
    (hok : st ≠ stOk) (hbad : st ≠ stBadOpcode) (hscan : st ∉ scanFailStatuses) :
    exec c s = .next (irq s (turnedAway s h row.agent st r0)) := by
  refine exec_of_refused hc hm hj hok ?_
  rw [shown_of_other c _ r0 0 hscan]
  exact answer_refuseAt s h row r0 hbad

/-- Settles O9: each check by what it replies where it is the first that fails. -/
theorem generalChecksInOrder : Obligations.GeneralChecksInOrder := by
  intro c h row s hc hm u f fresh known may clean open'
  have passed {p : Prop} [Decidable p] (hp : p) {a b : Reply} : (if ¬p then a else b) = b := if_neg (not_not_intro hp)
  refine ⟨fun hstale => ?stale, fun hfresh hunknown => ?opcode, fun hfresh hop hno => ?permitted,
    fun hfresh hop hmay hbad => ?param, fun hfresh hop hmay hclean haddr => ?address,
    fun hfresh hop hmay hclean haddr hclosed => ?level, fun hfresh hop hmay hclean haddr hopen hbusy => ?busy⟩
  case stale =>
    exact exec_turnedAway hc hm (fun _ _ => by rw [judge_eq, if_pos hstale]) (by decide) (by decide) (by decide)
  case opcode =>
    refine exec_of_refused hc hm (fun _ _ => by rw [judge_eq, passed hfresh, if_pos hunknown]) (by decide) ?_
    rw [shown_of_other c _ 0 0 (by decide)]
    exact answer_badOpcode s h row
  case permitted =>
    exact exec_turnedAway hc hm (fun _ _ => by rw [judge_eq, passed hfresh, passed hop, if_pos hno])
      (by decide) (by decide) (by decide)
  case param =>
    exact exec_turnedAway hc hm (fun _ _ => by rw [judge_eq, passed hfresh, passed hop, passed hmay, if_pos hbad])
      (by decide) (by decide) (by decide)
  case address =>
    exact exec_turnedAway hc hm
      (fun _ _ => by rw [judge_eq, passed hfresh, passed hop, passed hmay, passed hclean, if_pos haddr])
      (by decide) (by decide) (by decide)
  case level =>
    refine exec_of_refused hc hm (fun _ _ => by
      rw [judge_eq, passed hfresh, passed hop, passed hmay, passed hclean, if_neg (ne_false_of_eq_true haddr),
        if_pos hclosed]) (by decide) ?_
    rw [shown_level]
    exact answer_refuse s _ h row stLevel (levelCode u.level) 0 (by decide)
  case busy =>
    exact exec_turnedAway hc hm (fun _ _ => by
      rw [judge_eq, passed hfresh, passed hop, passed hmay, passed hclean, if_neg (ne_false_of_eq_true haddr),
        passed hopen, if_pos hbusy]) (by decide) (by decide) (by decide)

end Sys2Proof.Machine
end

section
/-!
PROOFS. Fills, swaps, shunting plans and scans (R166, R171, R174–R176, R179, R183, R187): each command by the refusals
of its body, in their order.
-/

namespace Sys2Proof.Machine

/-! ## Swaps (R174, R175) -/

section Swap
variable {u : State} {h : CmdHdr} {p strict slice boundary : Nat} {qmask : BitVec 160} {i : Nat}

theorem sdgSwapBody_of_halted (hlow : tenantHalted u p = true) :
    sdgSwapBody h p strict slice boundary qmask u i = refuseAt u stLevel (levelCode u.level) 0 := if_pos hlow

/-- A group of a partition that is not open, or that no later tick finds ready, cannot be armed. -/
theorem sdgSwapBody_of_unready (hlow : ¬tenantHalted u p = true)
    (hno : (part u p).state ≠ .opened ∨ groupReadyAt u p qmask = none) :
    sdgSwapBody h p strict slice boundary qmask u i = refuse u stState := by
  rw [sdgSwapBody, if_neg hlow]
  by_cases hclosed : (part u p).state ≠ .opened
  · rw [if_pos hclosed]
  · rw [if_neg hclosed, hno.resolve_left hclosed]

theorem sdgSwapBody_of_ready {ready : Nat} (hlow : ¬tenantHalted u p = true) (hopen : ¬(part u p).state ≠ .opened)
    (hready : groupReadyAt u p qmask = some ready) :
    let need := max (h.off + 256) (if ready = 0 then 0 else ready + 1)
    let adds := addedReports u p qmask
    let start := (activeStarts u).getD slice 0
    sdgSwapBody h p strict slice boundary qmask u i =
      if boundary = 0 then acceptSwap h p strict false qmask u i (firstEligible u p qmask adds need)
      else if boundary < tickCount u ∨ (boundary = tickCount u ∧ slice = 0) ∨
          distanceTo u boundary start < need then
        (if strict = 1 then refuseAt u stLate boundary slice
        else acceptSwap h p strict true qmask u i (firstEligible u p qmask adds need))
      else if (activeStarts u).length ≤ slice ∨ (slice ≠ 0 ∧ sliceEligible u p qmask adds start = false) then
        refuse u stState
      else acceptSwap h p strict false qmask u i (boundary, slice, start) := by
  rw [sdgSwapBody, if_neg hlow, if_neg hopen, hready]

end Swap

/-! ## Scans (R183, R187) -/

/-- What a scan does, once no general check refuses it: its body's reply, shown as a scan's and answered. -/
theorem exec_of_scan_answer {c : Instr} {h : CmdHdr} {row : OpRow} {s t : State} (hc : commandRow c = some (h, row))
    (hr : row.opcode ≠ 0x0A03) (hscan : isScan c = true) (ht : takes s c = true)
    (hbody : answer (taken s h) h row (cmdIndex s h.src)
      (scanReply (cmdBody c (taken s h) (cmdIndex s h.src))) = t) :
    exec c s = .next (irq s t) := by
  rw [exec_takes s hc hr ht, shown, if_pos hscan, hbody]

section Scan
variable {s : State} {h : CmdHdr} {row : OpRow} {i : Nat}

/-- A scan's own refusal, or LEVEL, sets SCAN_FAIL beside its status (R190). -/
theorem answer_scan_refuseAt (t : State) {st : Nat} (r0 : Nat) (hst : st ∈ scanFailStatuses) :
    answer (taken s h) h row (cmdIndex s h.src) (scanReply (refuseAt t st r0 0)) =
      statusWritten s (noteScanFail t) h row.agent st r0 0 := by
  have hne : st ≠ stBadOpcode := by
    rintro rfl
    revert hst
    decide
  rw [scanReply_of_fail t r0 0 hst]
  exact answer_refuse s _ h row st r0 0 hne

/-- A scan that is accepted is carried out. -/
theorem answer_scan_acceptAt (t : State) (r0 r1 : Nat) :
    answer (taken s h) h row (cmdIndex s h.src) (scanReply (acceptAt t r0 r1)) = fulfilled s t h row.agent r0 r1 :=
  answer_accept s t h row r0 r1

/-- A scan's reply that depends on a condition is answered as the reply of its case. -/
theorem answer_scan_ite {r r' : Reply} {t t' : State} {c : Prop} [Decidable c]
    (hr : answer s h row i (scanReply r) = t) (hr' : answer s h row i (scanReply r') = t') :
    answer s h row i (scanReply (if c then r else r')) = if c then t else t' := by
  rw [apply_ite scanReply]
  exact answer_ite hr hr'

end Scan

/-- The bundle that a scan-in reads from host-pool memory, and the state after the read. -/
def scanInRead (u : State) (src len : Nat) : State × Option (List Byte × Bool) := hostRead u (.function 0) 0 src len

/-- What the checks of R187 find in the bundle that a scan-in reads. -/
def scanInFound (u : State) (p quad src len : Nat) : BundleCheck :=
  checkBundle (scanInRead u src len).1 p quad (((scanInRead u src len).2.map (·.1)).getD [])

section ScanIn
variable {u : State} {h : CmdHdr} {p quad src len i : Nat}

theorem scanInBody_of_halted (hlow : tenantHalted u p = true) :
    scanInBody h p quad src len u i = refuseAt u stLevel (levelCode u.level) 0 := if_pos hlow

variable (hlow : ¬tenantHalted u p = true)
include hlow

theorem scanInBody_of_unfree (hno : ¬(scanAllowed u p quad = true ∧ sidingBusy (sidingOf u p quad) = false)) :
    scanInBody h p quad src len u i = refuse u stState :=
  (if_neg hlow).trans (if_pos (by simpa [not_and_or, -not_and] using hno))

variable (hmay : scanAllowed u p quad = true ∧ sidingBusy (sidingOf u p quad) = false)
include hmay

theorem scanInBody_of_badTag (hfound : scanInFound u p quad src len = .badTag) :
    scanInBody h p quad src len u i = refuse (refuseScanIn (scanInRead u src len).1 p quad 3) stDigest := by
  rw [scanInFound, scanInRead] at hfound
  simp only [scanInBody, hlow, hmay, hfound, scanInRead, Bool.true_eq_false, Bool.false_eq_true, or_self, if_false]

theorem scanInBody_of_mismatch (hfound : scanInFound u p quad src len = .mismatch) :
    scanInBody h p quad src len u i = refuse (refuseScanIn (scanInRead u src len).1 p quad 4) stMismatch := by
  rw [scanInFound, scanInRead] at hfound
  simp only [scanInBody, hlow, hmay, hfound, scanInRead, Bool.true_eq_false, Bool.false_eq_true, or_self, if_false]

/-- A bundle that meets every check takes the quadrant. -/
theorem scanInBody_of_ok {seq hole : Nat} {plain : List Byte}
    (hfound : scanInFound u p quad src len = .ok seq hole plain) :
    let r := scanInRead u src len
    let sc : Scan := { part := p, quad := quad, isIn := true, addr := src, len := len, seq := seq,
                       startTick := u.tick.count, plain := plain, hole := hole }
    let t := scanStatus (setSiding (markScan { r.1 with scans := r.1.scans ++ [sc] } quad true) p quad .scanning)
      p quad true 0
    scanInBody h p quad src len u i =
      acceptAt (addEffect t h i noTick (.scan p quad)) (tickCount t) h.off := by
  rw [scanInFound, scanInRead] at hfound
  simp only [scanInBody, hlow, hmay, hfound, scanInRead, Bool.true_eq_false, Bool.false_eq_true, or_self, if_false]

end ScanIn

/-- Settles O42: each command by the refusals of its body, in their order. -/
theorem sidingCommandsComplete : Obligations.SidingCommandsComplete := by
  intro s h p quad u i no noScan closed low level
  have hstate : stState ≠ stBadOpcode := by decide
  have hlevel : stLevel ≠ stBadOpcode := by decide
  have hscanState : stState ∈ scanFailStatuses := by decide
  have hscanLevel : stLevel ∈ scanFailStatuses := by decide
  refine ⟨fun source entry mask ht => ?fill, fun strict slice boundary qmask ht => ?swap, fun mask qmask ht => ?start,
    fun ht => ?stop, fun dest => ⟨fun ht => ?scanOut, fun ht => ?scanDump⟩, fun src len ht => ?scanIn⟩
  case fill =>
    intro d f
    exact exec_of_answer rfl (by decide) rfl ht
      (answer_ite (answer_refuseAt s h _ level hlevel)
        (answer_refuse_else hstate (answer_acceptAt s _ h _ d.1 d.2)))
  case swap =>
    intro arm
    have hexec {r : Reply} {a : State} (hbody : sdgSwapBody h p strict slice boundary qmask u i = r)
        (ha : answer u h { opcode := 0x0402, agent := 1, pends := true } i r = a) :
        exec (.sdgSwap h p strict slice boundary qmask) s = .next (irq s a) :=
      exec_of_answer rfl (by decide) rfl ht ((congrArg _ hbody).trans ha)
    have harm (late : Bool) (b : Nat × Nat × Nat) : answer u h { opcode := 0x0402, agent := 1, pends := true } i
        (acceptSwap h p strict late qmask u i b) = arm late b :=
      answer_refuse_else hstate (answer_acceptAt s _ h _ b.1 b.2.2)
    refine ⟨fun hlow => ?halted, fun hlow hno => ?unready, fun ready hlow hopen hready => ?ready⟩
    case halted => exact hexec (sdgSwapBody_of_halted hlow) (answer_refuseAt s h _ level hlevel)
    case unready => exact hexec (sdgSwapBody_of_unready hlow hno) (answer_refuseAt s h _ 0 hstate)
    case ready =>
      exact hexec (sdgSwapBody_of_ready hlow hopen hready)
        (answer_ite (harm false _)
          (answer_ite (answer_ite (answer_refuse s u h _ stLate boundary slice (by decide)) (harm true _))
            (answer_refuse_else hstate (harm false _))))
  case start =>
    exact exec_of_answer rfl (by decide) rfl ht
      (answer_ite (answer_refuseAt s h _ level hlevel)
        (answer_refuse_else hstate (answer_acceptAt s _ h _ (nextTick u) 0)))
  case stop =>
    exact exec_of_answer rfl (by decide) rfl ht
      (answer_else_refuse hstate (answer_acceptAt s _ h _ (nextTick u) 0))
  case scanOut =>
    exact exec_of_scan_answer rfl (by decide) rfl ht
      (answer_scan_ite (answer_scan_refuseAt u level hscanLevel)
        (answer_scan_ite (answer_scan_refuseAt u 0 hscanState) (answer_scan_acceptAt _ (tickCount u) h.off)))
  case scanDump =>
    exact exec_of_scan_answer rfl (by decide) rfl ht
      (answer_scan_ite (answer_scan_acceptAt _ (tickCount u) h.off) (answer_scan_refuseAt u 0 hscanState))
  case scanIn =>
    intro r chk may
    have hexec {x : Reply} {a : State} (hbody : scanInBody h p quad src len u i = x)
        (ha : answer u h { opcode := 0x040B, agent := 1, pends := true } i (scanReply x) = a) :
        exec (.scanIn h p quad src len) s = .next (irq s a) :=
      exec_of_scan_answer rfl (by decide) rfl ht ((congrArg (answer _ _ _ _ <| scanReply ·) hbody).trans ha)
    refine ⟨fun hlow => ?halted, fun hlow hno => ?unfree, fun seq hole plain hlow hmay hchk => ?ok,
      fun hlow hmay hchk => ?badTag, fun hlow hmay hchk => ?mismatch⟩
    case halted => exact hexec (scanInBody_of_halted hlow) (answer_scan_refuseAt u level hscanLevel)
    case unfree => exact hexec (scanInBody_of_unfree hlow hno) (answer_scan_refuseAt u 0 hscanState)
    case ok =>
      intro sc t
      exact hexec (scanInBody_of_ok hlow hmay hchk) (answer_scan_acceptAt _ (tickCount t) h.off)
    case badTag => exact hexec (scanInBody_of_badTag hlow hmay hchk) (answer_scan_refuseAt _ 0 (by decide))
    case mismatch => exact hexec (scanInBody_of_mismatch hlow hmay hchk) (answer_scan_refuseAt _ 0 (by decide))

end Sys2Proof.Machine
end

section
/-!
PROOFS. The resident library (R180–R182), and the events that complete fills and scans (R169–R171, R184, R187): each
event by whether what it completes stands, each command by the refusals of its body.
-/

namespace Sys2Proof.Machine

/-! ## The events -/

theorem exec_libInstallDone (e : Nat) (s : State) : exec (.libInstallDone e) s =
    .next (irq s (if (look s.lib e).writing = true then libDone s e (look s.lib e) else s)) := rfl

section Events
variable {s : State} {p quad off : Nat}

theorem exec_fillStart_of_waiting {f : Fill} (hf : findFill s p quad false = some f) :
    exec (.fillStart p quad off) s = .next (irq s (
      if fillMayStart s f = false ∨ sidingBusy (sidingOf s p quad) = true then s
      else if entryServes s p f.source quad f.entry f.mask = true then fillStart s f off
      else fillFailed (dropFill { s with tick := { s.tick with off := off } } f) f)) := by
  change execFillStart p quad off s = _
  rw [execFillStart, hf, done]

theorem exec_fillStart_of_none (hf : findFill s p quad false = none) :
    exec (.fillStart p quad off) s = .next (irq s s) := by
  change execFillStart p quad off s = _
  rw [execFillStart, hf, done]

theorem exec_fillComplete_of_running {f : Fill} (hf : findFill s p quad true = some f) :
    exec (.fillComplete p quad) s = .next (irq s (fillComplete s f)) := by
  change execFillComplete p quad s = _
  rw [execFillComplete, hf, done]

theorem exec_fillComplete_of_none (hf : findFill s p quad true = none) :
    exec (.fillComplete p quad) s = .next (irq s s) := by
  change execFillComplete p quad s = _
  rw [execFillComplete, hf, done]

theorem exec_scanComplete_of_some {x : Scan}
    (hx : s.scans.find? (fun x => decide (x.part = p ∧ x.quad = quad)) = some x) :
    exec (.scanComplete p quad) s = .next (irq s (scanDone s x)) := by
  change execScanComplete p quad s = _
  rw [execScanComplete, hx, done]

theorem exec_scanComplete_of_none (hx : s.scans.find? (fun x => decide (x.part = p ∧ x.quad = quad)) = none) :
    exec (.scanComplete p quad) s = .next (irq s s) := by
  change execScanComplete p quad s = _
  rw [execScanComplete, hx, done]

end Events

/-- A fill that starts is under way in its Siding (R166). -/
theorem sidingOf_fillStart (s : State) (f : Fill) (off : Nat) :
    sidingOf (fillStart s f off) f.part f.quad = .filling :=
  look_put_self s.siding (160 * f.part + f.quad) .filling

/-! ## Installs (R180) -/

/-- The candidate that an install on state v checks, of a report as it is loaded and its image. -/
def installCandidate (v : State) (p : Nat) (r : Report) (im : List Byte) : Candidate :=
  { ctx := installCtx p (partsOfImage r im), report := r, image := im, tick := nextTick v }

/-- Lines of the home copy of an image's parts. -/
def installLines (r : Report) (im : List Byte) : Nat := ((partsOfImage r im).map fun q => q.2.2.length / 64).sum

/-- The entry that an install on state v takes, until its home copy is written. -/
def installEntry (v : State) (h : CmdHdr) (p : Nat) (r : Report) (im : List Byte) (i : Nat) : LibEntry :=
  { part := p, report := r, parts := partsOfImage r im, image := im, writing := true,
    home := sharedLines v p (installLines r im), token := h.token, src := h.src, index := i }

/-- The report that an install reads from host-pool memory, where it can be read. -/
def installReport (u : State) (report rl : Nat) : Option Report :=
  (hostRead u (.function 0) 0 report rl).2.bind fun b => readReport b.1

/-- The image that an install reads after the report, and the state after both reads. -/
def installRead (u : State) (image report il rl : Nat) : State × Option (List Byte × Bool) :=
  hostRead (hostRead u (.function 0) 0 report rl).1 (.function 0) 0 image il

section Install
variable {u : State} {h : CmdHdr} {p image report il rl i : Nat}

theorem libInstallBody_of_unreadable (hread : installReport u report rl = none) :
    libInstallBody h p image report il rl u i = refuse (hostRead u (.function 0) 0 report rl).1 stBadParam := by
  rw [installReport] at hread
  simp only [libInstallBody, hread]

variable {r' r : Report} {v : State} {im : List Byte} (hread : installReport u report rl = some r')
variable (hv : (installRead u image report il rl).1 = v)
variable (him : ((installRead u image report il rl).2.map (·.1)).getD [] = im) (hr : asLoaded r' im = r)
include hread hv him hr

theorem libInstallBody_of_failed {row : Nat} (hrow : failedRow v (installCandidate v p r im) installRows = some row) :
    libInstallBody h p image report il rl u i = refuse v (stRow row) := by
  subst hr him hv
  rw [installReport] at hread
  rw [installCandidate, installRead] at hrow
  simp only [libInstallBody, hread, hrow, installRead]

variable (hmet : failedRow v (installCandidate v p r im) installRows = none)
include hmet

theorem libInstallBody_of_full (hfull : freeEntry v = none) :
    libInstallBody h p image report il rl u i = refuse v stNoResource := by
  subst hr him hv
  rw [installReport] at hread
  rw [installCandidate, installRead] at hmet
  rw [installRead] at hfull
  simp only [libInstallBody, hread, hmet, hfull, installRead]

theorem libInstallBody_of_free {a : Nat} (ha : freeEntry v = some a) :
    libInstallBody h p image report il rl u i =
      if (sharedLines v p (installLines r im)).length < installLines r im then refuse v stNoResource
      else finishLater { v with lib := put v.lib a (installEntry v h p r im i) } := by
  subst hr him hv
  rw [installReport] at hread
  rw [installCandidate, installRead] at hmet
  rw [installRead] at ha
  simp only [libInstallBody, hread, hmet, ha]
  rfl

end Install

/-- Settles O43: each command by the refusals of its body, in their order, each event by whether what it completes
stands. -/
theorem libraryCommandsComplete : Obligations.LibraryCommandsComplete := by
  intro s h p quad e u no
  have hstate : stState ≠ stBadOpcode := by decide
  have hinUse : stInUse ≠ stBadOpcode := by decide
  have hnoResource : stNoResource ≠ stBadOpcode := by decide
  refine ⟨fun image report il rl ht => ?install, fun hw => ?installed, fun hw => ?idle, fun ht => ?remove,
    fun tiles => ?tiles, fun f off hf => ?fillStart, fun off => exec_fillStart_of_none,
    fun f => exec_fillComplete_of_running, exec_fillComplete_of_none, fun x => exec_scanComplete_of_some,
    exec_scanComplete_of_none⟩
  case install =>
    intro rb ib read
    have hexec {r : Reply} {a : State} (hbody : libInstallBody h p image report il rl u (cmdIndex s h.src) = r)
        (ha : answer u h { opcode := 0x0405, agent := 1 } (cmdIndex s h.src) r = a) :
        exec (.libInstall h p image report il rl) s = .next (irq s a) :=
      exec_of_answer rfl (by decide) rfl ht ((congrArg _ hbody).trans ha)
    refine ⟨fun hread => ?unreadable, fun r' hread => ?read⟩
    case unreadable => exact hexec (libInstallBody_of_unreadable hread) (answer_refuseOn s rb.1 h _ (by decide))
    intro im r parts x n home y
    refine ⟨fun row hrow => ?failed, fun hmet hfull => ?full, fun a hmet hfree => ?free⟩
    case failed =>
      exact hexec (libInstallBody_of_failed hread rfl rfl rfl hrow)
        (answer_refuseOn s ib.1 h _ (stRow_ne_stBadOpcode row))
    case full =>
      exact hexec (libInstallBody_of_full hread rfl rfl rfl hmet hfull) (answer_refuseOn s ib.1 h _ hnoResource)
    case free =>
      exact hexec (libInstallBody_of_free hread rfl rfl rfl hmet hfree)
        (answer_ite (answer_refuseOn s ib.1 h _ hnoResource) rfl)
  case installed => rw [exec_libInstallDone, if_pos hw]
  case idle => rw [exec_libInstallDone, if_neg (ne_true_of_eq_false hw)]
  case remove =>
    exact exec_of_answer rfl (by decide) rfl ht
      (answer_refuse_else hstate (answer_refuse_else hinUse (answer_acceptAt s _ h _ 0 0)))
  case tiles =>
    intro x y
    refine ⟨fun ht => ?assign, fun ht => ?release⟩
    case assign =>
      exact exec_of_answer rfl (by decide) rfl ht (answer_refuse_else hstate (answer_acceptAt s _ h _ 0 0))
    case release => exact exec_of_answer rfl (by decide) rfl ht (answer_acceptAt s _ h _ 0 0)
  case fillStart =>
    rw [exec_fillStart_of_waiting hf]
    refine ⟨fun hmay hfree => ?mayStart, fun hno => by rw [if_pos hno]⟩
    have hgo : ¬(fillMayStart s f = false ∨ sidingBusy (sidingOf s p quad) = true) := by simp [hmay, hfree]
    rw [if_neg hgo]
    refine ⟨fun hserves => ?starts, fun hgone => ?fails⟩
    case starts =>
      rw [if_pos hserves]
      exact ⟨rfl, sidingOf_fillStart s f off⟩
    case fails => rw [if_neg (ne_true_of_eq_false hgone)]

end Sys2Proof.Machine
end

section
/-!
PROOFS. The events of resets, of the configuration space, of watchdogs and of quarantine (R188, R296, R323, R368, R373,
R383–R385, R387, R404): each command is said once, then what each does in each of its cases.
-/

namespace Sys2Proof.Machine

/-! ## The commands -/

theorem exec_ctxResetDone (c : Nat) (s : State) : exec (.ctxResetDone c) s =
    .next (irq s (if ctxClearing s c = true then ctxResetEnd s c else s)) := rfl

theorem exec_partResetCollectEnd (p : Nat) (s : State) : exec (.partResetCollectEnd p) s = .next (irq s
    (if (part s p).state = .resetting ∧ (part s p).stage = 2 then collectEnd s p else s)) := rfl

theorem exec_partResetDone (p : Nat) (s : State) : exec (.partResetDone p) s = .next (irq s
    (if (part s p).state = .resetting ∧ (part s p).stage = 4 then partResetDone s p else s)) := rfl

theorem exec_resetOvertime (p : Nat) (s : State) : exec (.resetOvertime p) s =
    .next (irq s (if (part s p).state = .resetting then resetOvertime s p else s)) := rfl

theorem exec_functionLevelReset (f : Nat) (s : State) : exec (.functionLevelReset f) s =
    .next (irq s (configRequest s fun s =>
      if f = 0 then (if s.life.vfEnable = true then clearVfEnable s else s)
      else if vfEnabled s f = true then functionReset s f else s)) := rfl

theorem exec_vfEnableClear (s : State) : exec .vfEnableClear s =
    .next (irq s (configRequest s fun s => if s.life.vfEnable = true then clearVfEnable s else s)) := rfl

theorem exec_vfEnableSet (n : Nat) (s : State) : exec (.vfEnableSet n) s =
    .next (irq s (configRequest s fun s => if s.life.vfEnable = false ∧ n ≤ 1023 then
      { s with life := { s.life with vfEnable := true, numVfs := n } } else s)) := rfl

theorem exec_perstNAssert (s : State) : exec .perstNAssert s = .next (irq s (trainPcie (clearVfEnable s))) := rfl

theorem exec_escalationWindowExpiry (kind p : Nat) (s : State) : exec (.escalationWindowExpiry kind p) s =
    .next (irq s (if kind < 3 ∧ p < 32 then setReg s (escCount kind p) (reg s (escCount kind p) - 1) else s)) := rfl

theorem exec_heartbeatWatchdog (s : State) :
    let t := deviceFault s 56
    exec .heartbeatWatchdog s = .next (irq s (if coresRun s = true then
      { t with life := { t.life with failover := t.life.failover || t.life.standbyReady } } else s)) := rfl

theorem exec_mgmtWatchdog (s : State) : exec .mgmtWatchdog s =
    .next (irq s (if coresRun s = true then watchdog s 57 3 else s)) := rfl

theorem exec_scWatchdog (s : State) : exec .scWatchdog s =
    .next (irq s (if coresRun s = true then watchdog s 58 4 else s)) := rfl

theorem exec_scHeartbeat (s : State) : exec .scHeartbeat s =
    .next (irq s { s with life := { s.life with scBeat := s.tick.count } }) := rfl

theorem exec_hostTimeout (f addr len : Nat) (s : State) : exec (.hostTimeout f addr len) s =
    .next (irq s (if f < 1024 then hostTimeout s f addr len else s)) := rfl

theorem exec_quarantineReplay_of_due {s : State} {p : Nat} {q : Quarantine} (hq : quarantineDue s = some (p, q)) :
    exec .quarantineReplay s = .next (irq s (quarantineStep s p q)) := by
  change execQuarantineReplay s = _
  rw [execQuarantineReplay, hq, done]

theorem exec_quarantineReplay_of_none {s : State} (hq : quarantineDue s = none) :
    exec .quarantineReplay s = .next (irq s s) := by
  change execQuarantineReplay s = _
  rw [execQuarantineReplay, hq, done]

/-! ## What they do in each case -/

theorem ctxClearing_iff (s : State) (c : Nat) : ctxClearing s c = true ↔
    (ctxOf s c).state = .resetting ∧ (ctxOf s c).stage = 2 ∧ (part s (partOfCtx c)).state ≠ .resetting := by
  simp only [ctxClearing, Bool.and_eq_true, decide_eq_true_eq, and_assoc]

section Config
variable {s : State} (effect : State → State)

theorem configRequest_of_served (h : configServed s = true) : configRequest s effect = effect s := if_pos h

theorem configRequest_of_unserved (h : configServed s = false) :
    configRequest s effect = if pcieLinkUp s = true then emit s .configRetry else s :=
  if_neg (ne_true_of_eq_false h)

end Config

/-- A function that is no PF is enabled while VF Enable is set and NumVFs covers it (R296). -/
theorem vfEnabled_iff {s : State} {f : Nat} (hf : f ≠ 0) :
    vfEnabled s f = true ↔ s.life.vfEnable = true ∧ f ≤ s.life.numVfs := by
  have hpos : 1 ≤ f := Nat.one_le_iff_ne_zero.2 hf
  simp only [vfEnabled, Bool.and_eq_true, decide_eq_true_eq, hpos, true_and]

section Quarantine
variable {s : State} {p : Nat} {q : Quarantine}

theorem quarantineStep_of_collected (h : q.collected = true) : quarantineStep s p q = quarantineArm s p q := if_pos h

theorem quarantineStep_of_dumped {b : Nat × Nat} (h : q.collected = false)
    (hb : (quarantineCollect s p q).2 = some b) :
    quarantineStep s p q = quarantineArm (quarantineCollect s p q).1 p { q with collected := true, bundle := b } := by
  simp only [quarantineStep, h, Bool.false_eq_true, if_false, hb]

/-- A dump without the quadrant fails the quarantine. -/
theorem quarantineStep_of_undumped (h : q.collected = false) (hb : (quarantineCollect s p q).2 = none) :
    quarantineStep s p q = quarantineFails (quarantineCollect s p q).1 p q := by
  simp only [quarantineStep, h, Bool.false_eq_true, if_false, hb]

end Quarantine

/-- Settles O48: each command by the case of it that the state is in. -/
theorem resetEventsComplete : Obligations.ResetEventsComplete := by
  intro s c p f ends
  have hends : ctxClearing s c = true ↔ ends := ctxClearing_iff s c
  refine ⟨fun h => ?ctxEnds, fun h => ?ctxStays, ⟨exec_partResetCollectEnd p s,
      exec_partResetDone p s, exec_resetOvertime p s⟩,
    fun h => ⟨?flr, ?clear, ?set⟩, fun h x hx => ?unserved, exec_perstNAssert s,
    fun kind => exec_escalationWindowExpiry kind p s, fun h => ⟨?heartbeat, ?mgmt, ?sc⟩, fun h => ?coresDown,
    exec_scHeartbeat s, fun addr len => ?timeout, fun q hq => ⟨fun hc => ?collected, fun hc => ?uncollected⟩,
    exec_quarantineReplay_of_none⟩
  case ctxEnds => rw [exec_ctxResetDone, if_pos (hends.2 h)]
  case ctxStays => rw [exec_ctxResetDone, if_neg (mt hends.1 h)]
  case flr =>
    rw [exec_functionLevelReset, configRequest_of_served _ h]
    by_cases hf : f = 0
    · rw [if_pos hf, if_pos hf]
    · simp only [if_neg hf, vfEnabled_iff hf]
  case clear => rw [exec_vfEnableClear, configRequest_of_served _ h]
  case set => rw [exec_vfEnableSet, configRequest_of_served _ h]
  case unserved =>
    simp only [List.mem_cons, List.not_mem_nil, or_false] at hx
    rcases hx with rfl | rfl | rfl
    · rw [exec_functionLevelReset, configRequest_of_unserved _ h]
    · rw [exec_vfEnableClear, configRequest_of_unserved _ h]
    · rw [exec_vfEnableSet, configRequest_of_unserved _ h]
  case heartbeat => exact (exec_heartbeatWatchdog s).trans (by rw [if_pos h])
  case mgmt =>
    rw [exec_mgmtWatchdog, if_pos h]
    rfl
  case sc =>
    rw [exec_scWatchdog, if_pos h]
    rfl
  case coresDown =>
    have hno : ¬coresRun s = true := ne_true_of_eq_false h
    simp only [exec_heartbeatWatchdog, exec_mgmtWatchdog, exec_scWatchdog, if_neg hno, and_self]
  case timeout =>
    intro t
    rw [exec_hostTimeout]
    by_cases hf : 1024 ≤ f
    · rw [if_pos hf, if_neg (Nat.not_lt.2 hf)]
    · rw [if_neg hf, if_pos (Nat.not_le.1 hf)]
      rfl
  case collected =>
    rw [exec_quarantineReplay_of_due hq, quarantineStep_of_collected hc]
    rfl
  case uncollected =>
    intro r
    rw [exec_quarantineReplay_of_due hq]
    refine ⟨fun hno => ?undumped, fun b hb => ?dumped⟩
    case undumped => rw [quarantineStep_of_undumped hc hno]
    case dumped => rw [quarantineStep_of_dumped hc hb]

end Sys2Proof.Machine
end

section
/-!
PROOFS. HBM contents stay canonical (R193, R198, R199): at reset nothing is listed, and what a step runs keeps the form.
-/

namespace Sys2Proof.Machine

/-- Settles O4: no byte is listed at reset. -/
theorem resetKeepsInvariant : Obligations.ResetKeepsInvariant := rfl

theorem step_of_empty {s : State} (h : s.pending = []) : step s = .next s := by
  rw [step, h]

theorem step_of_front {s : State} {c : Instr} {rest : List Instr} (h : s.pending = c :: rest) :
    step s = exec c { s with pending := rest } := by
  rw [step, h]

/-- Settles O5: the canonical form is among what every command keeps, and taking one off the queue moves no byte. -/
theorem stepKeepsInvariant : Obligations.StepKeepsInvariant := by
  intro s t hinv hstep
  cases hq : s.pending with
  | nil =>
    rw [step_of_empty hq] at hstep
    cases hstep
    exact hinv
  | cons c rest =>
    rw [step_of_front hq] at hstep
    have hkept : Grows { s with pending := rest } t := (grows_exec c _).next t hstep
    exact hkept.mem hinv

end Sys2Proof.Machine
end

section
/-!
PROOFS. Commands on pseudo-channels and pages (R193, R195, R198, R199, R204, R211, R338, R339): each by the refusals
of its body, in their order.
-/

namespace Sys2Proof.Machine

section Conflicts
variable {u : State} {code scope : Nat} {mask : BitVec 256} {ok : Nat → State → Reply}

theorem withActivity_of_clear (h : conflictAct u code scope mask = none) :
    withActivity u code scope mask ok = ok (freeAct u) u := by
  rw [withActivity, h]

theorem withActivity_of_conflict {i : Nat} {a : Act} (h : conflictAct u code scope mask = some (i, a)) :
    withActivity u code scope mask ok = refuseAt u stConflict (actResult a.code a.scope.toNat a.start.toNat) i := by
  rw [withActivity, h]

end Conflicts

/-! ## REGION_REKEY (R204) -/

section Rekey
variable {u : State} {pc page : Nat} (h : CmdHdr) (i : Nat)

theorem regionRekeyBody_of_unfit (hno : (pcOf u pc).sealed = false ∨ releasable (pageAt u pc page) = false) :
    regionRekeyBody h pc page u i = refuse u stState := if_pos hno

theorem regionRekeyBody_of_conflict {j : Nat} {a : Act} (hs : (pcOf u pc).sealed = true)
    (hr : releasable (pageAt u pc page) = true) (hc : conflictAct u 3 (pc + 2 ^ 8 * page) 0 = some (j, a)) :
    regionRekeyBody h pc page u i = refuseAt u stConflict (actResult a.code a.scope.toNat a.start.toNat) j := by
  simp only [regionRekeyBody, hs, hr, hc, Bool.true_eq_false, or_self, if_false]

theorem regionRekeyBody_of_clear (hs : (pcOf u pc).sealed = true) (hr : releasable (pageAt u pc page) = true)
    (hc : conflictAct u 3 (pc + 2 ^ 8 * page) 0 = none) :
    regionRekeyBody h pc page u i =
      if (pageAt u pc page).rekeying = true ∨ (pageAt u pc page).rekeyWaiting = true then
        refuseAt u stConflict (actResult 3 (pc + 2 ^ 8 * page)
          (if (pageAt u pc page).rekeying then (pageAt u pc page).rekeyTick % 2 ^ 24 else 0)) 0xFFFFFFFF
      else
        let a := startAct u (freeAct u) 3 (pc + 2 ^ 8 * page) false
        startedNow h { a with
          pages := upd a.pages (pageKey pc page) fun g => { g with rekeyWaiting := true, act := true } } := by
  simp only [regionRekeyBody, hs, hr, hc, Bool.true_eq_false, or_self, if_false]

end Rekey

/-! ## PC_ASSIGN (R193, R195) -/

theorem dataPages_of_mode (sealed : Nat) : dataPages (sealed = 1) = if sealed = 1 then 336 else 384 := by
  simp only [dataPages, decide_eq_true_eq]

/-- Settles O29: each command by the refusals of its body, in their order, and the state that it accepts. -/
theorem memoryCommandsComplete : Obligations.MemoryCommandsComplete := by
  intro s h pc u x no begun
  have hstate : stState ≠ stBadOpcode := by decide
  have hpermit : stNotPermitted ≠ stBadOpcode := by decide
  have hquota : stQuota ≠ stBadOpcode := by decide
  have hconflict : stConflict ≠ stBadOpcode := by decide
  have hinUse : stInUse ≠ stBadOpcode := by decide
  refine ⟨fun owner sealed ht => ?assign, fun ht => ?free, fun kind page owner frame ht => ?pageAssign,
    fun page => ⟨fun ht => ?release, fun ht => ⟨fun hno => ?unfit, fun hs hr => ⟨fun i b hc => ?rekeyConflict,
      fun hc => ?rekey⟩⟩⟩, fun spread mask ht => ⟨fun hc => ?scrub, fun i b hc => ?scrubConflict⟩⟩
  case assign =>
    rw [← dataPages_of_mode]
    exact exec_of_answer rfl (by decide) rfl ht
      (answer_refuse_else hstate (answer_refuse_else hpermit (answer_acceptAt s _ h _ 0 0)))
  case free =>
    exact exec_of_answer rfl (by decide) rfl ht
      (answer_refuse_else hstate (answer_refuse_else hinUse (answer_acceptAt s _ h _ _ _)))
  case pageAssign =>
    exact exec_of_answer rfl (by decide) rfl ht
      (answer_refuse_else hstate (answer_refuse_else hpermit (answer_ite (answer_refuseAt s h _ 2 hquota)
        (answer_ite rfl (answer_acceptAt s _ h _ 0 0)))))
  case release =>
    exact exec_of_answer rfl (by decide) rfl ht (answer_else_refuse hstate (answer_acceptAt s _ h _ _ _))
  case unfit =>
    refine exec_of_answer rfl (by decide) rfl ht ?_
    rw [cmdBody, regionRekeyBody_of_unfit _ _ hno]
    exact answer_refuseAt s h _ 0 hstate
  case rekeyConflict =>
    refine exec_of_answer rfl (by decide) rfl ht ?_
    rw [cmdBody, regionRekeyBody_of_conflict _ _ hs hr hc]
    exact answer_refuse s _ h _ _ _ _ hconflict
  case rekey =>
    refine exec_of_answer rfl (by decide) rfl ht ?_
    rw [cmdBody, regionRekeyBody_of_clear _ _ hs hr hc]
    exact answer_ite (answer_refuse s _ h _ _ _ _ hconflict) (answer_acceptAt s _ h _ _ _)
  case scrub =>
    refine exec_of_answer rfl (by decide) rfl ht ?_
    rw [cmdBody, scrubPassBody, withActivity_of_clear hc]
    exact answer_acceptAt s _ h _ _ _
  case scrubConflict =>
    refine exec_of_answer rfl (by decide) rfl ht ?_
    rw [cmdBody, scrubPassBody, withActivity_of_conflict hc]
    exact answer_refuse s _ h _ _ _ _ hconflict

end Sys2Proof.Machine
end

section
/-!
PROOFS. The engines of memory (R199, R202 to R206, R211, R339, R414): epochs, rekeys, clears, scrubs and writes held,
each command by the case of it that the state is in.
-/

namespace Sys2Proof.Machine

/-! ## The commands -/

theorem exec_epochGrant (hub dom : Nat) (s : State) : exec (.epochGrant hub dom) s =
    .next (irq s (if grantDue s hub dom = true ∧ dom ≤ blankDom ∧ (look s.domains dom).state ≠ .empty then
      grantDomain s hub dom else s)) := rfl

theorem exec_rekeyStart (pc : Nat) (s : State) : exec (.rekeyStart pc) s = .next (irq s (rekeyStart s pc)) := rfl

theorem exec_engineAccess (pc : Nat) (s : State) : exec (.engineAccess pc) s =
    .next (irq s (if allocatable pc = true then engineAccess s pc else s)) := rfl

theorem exec_stalledWriteResume (pc : Nat) (s : State) :
    exec (.stalledWriteResume pc) s = .next (irq s (stalledResume s pc)) := rfl

theorem exec_memScrubDue (s : State) : exec .memScrubDue s =
    .next (irq s (if reg s (bMem + 0x50) = 0 then s else scrubDueStart { s with scrubDue := true })) := rfl

section Cases
variable {s : State} {pc page : Nat}

theorem exec_rekeyDone_of_rekeying {pg : Page} (h : rekeyPage s pc = some (page, pg)) :
    exec (.rekeyDone pc) s = .next (irq s (rekeyDone s pc page pg)) := by
  change execRekeyDone pc s = _
  rw [execRekeyDone, h, done]

theorem exec_rekeyDone_of_none (h : rekeyPage s pc = none) : exec (.rekeyDone pc) s = .next (irq s s) := by
  change execRekeyDone pc s = _
  rw [execRekeyDone, h, done]

theorem exec_pageClearDone_of_started {t : State} (hk : (pageAt s pc page).kind = .clearing)
    (ht : clearStart s pc page = some t) :
    exec (.pageClearDone pc page) s = .next (irq s (clearDone t pc page)) := by
  change execPageClearDone pc page s = _
  rw [execPageClearDone, if_pos hk, ht, done]

theorem exec_pageClearDone_of_waiting (ht : clearStart s pc page = none) :
    exec (.pageClearDone pc page) s = .next (irq s s) := by
  change execPageClearDone pc page s = _
  rw [execPageClearDone, ht, ite_self, done]

theorem exec_pageClearDone_of_other (hk : (pageAt s pc page).kind ≠ .clearing) :
    exec (.pageClearDone pc page) s = .next (irq s s) := by
  change execPageClearDone pc page s = _
  rw [execPageClearDone, if_neg hk, done]

theorem exec_scrubDone_of_running {x : Scrub} (h : s.scrub = some x) :
    exec .scrubDone s = .next (irq s (scrubDone s x)) := by
  change execScrubDone s = _
  rw [execScrubDone, h, done]

theorem exec_scrubDone_of_none (h : s.scrub = none) : exec .scrubDone s = .next (irq s s) := by
  change execScrubDone s = _
  rw [execScrubDone, h, done]

/-! ## Epochs and rekeys (R202, R204, R206) -/

theorem grantDomain_eq (s : State) (hub dom : Nat) :
    let t := if 2 ^ 32 ≤ (look s.domains dom).epoch + 2048 then replaceKey s dom else s
    let e := (look t.domains dom).epoch
    grantDomain s hub dom =
      { t with
        domains := upd t.domains dom fun d => { d with epoch := e + 2048 }
        blocks := upd t.blocks (blockKey hub dom) fun b => granted b e } := by
  simp only [grantDomain, epochsOver, decide_eq_true_eq]

theorem rekeyStart_of_rekeying (h : isRekeying s pc = true) : rekeyStart s pc = s := if_pos h

theorem rekeyStart_of_none (h : nextRegion s pc = none) : rekeyStart s pc = s := by
  rw [rekeyStart, h, ite_self]

/-- The region whose turn it is draws one epoch of its domain, and waits while its hub die has none. -/
theorem rekeyStart_of_next {pg : Page} (hno : isRekeying s pc = false) (h : nextRegion s pc = some (page, pg)) :
    rekeyStart s pc =
      let k := blockKey (pc / 32) (sealDom pg)
      if 0 < blockLeft (look s.blocks k) then
        beginRekey { s with blocks := upd s.blocks k drawn } pc page (look s.blocks k).next
      else s := by
  rw [rekeyStart, if_neg (ne_true_of_eq_false hno), h]
  by_cases hleft : 0 < blockLeft (look s.blocks (blockKey (pc / 32) (sealDom pg)))
  · simp only [drawEpoch, if_pos hleft]
  · simp only [drawEpoch, if_neg hleft]

theorem rekeyLine_of_poisoned {line : Nat} (h : lineRead s pc line = .poisoned) : rekeyLine s pc line = s := by
  rw [rekeyLine, h]

theorem rekeyLine_of_good {line : Nat} (h : lineRead s pc line = .good) : rekeyLine s pc line =
    { s with lines := upd s.lines (lineKey pc line) fun l =>
      { l with
        counter := 0
        tag := l.tag.map fun _ =>
          (sealLine s (pageAt s pc (line / 32768)) true pc line 0 (lineBytes s pc line)).2 } } := by
  rw [rekeyLine, h]
  rfl

/-! ## The order of the engine's work (R203, R414) -/

theorem engineAccess_of_rekeying {pg : Page} (h : rekeyPage s pc = some (page, pg)) : engineAccess s pc =
    if pg.rekeyPtr < 32768 then
      setRekeyPtr (rekeyLine s pc (32768 * page + pg.rekeyPtr)) pc page (pg.rekeyPtr + 1)
    else s := by
  rw [engineAccess, h]

theorem engineAccess_of_copying {line : Nat} (hr : rekeyPage s pc = none) (hc : (pcOf s pc).copy = some line) :
    engineAccess s pc = if line < 12582912 then copyStep s pc line else s := by
  rw [engineAccess, hr, hc]

theorem engineAccess_of_clearing {pg : Page} (hr : rekeyPage s pc = none) (hc : (pcOf s pc).copy = none)
    (hp : clearPage s pc = some (page, pg)) : engineAccess s pc = clearStep s pc page pg := by
  rw [engineAccess, hr, hc, hp]

theorem engineAccess_of_scrubTurn (hr : rekeyPage s pc = none) (hc : (pcOf s pc).copy = none)
    (hp : clearPage s pc = none) : engineAccess s pc = scrubTurn s pc := by
  rw [engineAccess, hr, hc, hp]

theorem scrubTurn_of_here {x : Scrub} (h : s.scrub = some x) (hpc : x.pc = pc) : scrubTurn s pc = scrubStep s x := by
  rw [scrubTurn, h]
  exact if_pos hpc

theorem scrubTurn_of_elsewhere (h : ∀ x, s.scrub = some x → x.pc ≠ pc) : scrubTurn s pc = s := by
  cases hs : s.scrub with
  | none => rw [scrubTurn, hs]
  | some x =>
    rw [scrubTurn, hs]
    exact if_neg (h x hs)

/-! ## Scrubs that are due (R211, R339) -/

theorem scrubDueStart_of_free (ha : activities s < 32) (hc : conflictAct s 2 0 allPcs = none) :
    scrubDueStart { s with scrubDue := true } =
      beginScrub { s with scrubDue := false } (freeAct s) allPcs (reg s (bMem + 0x50)) true :=
  if_pos ⟨rfl, ha, Option.isNone_iff_eq_none.2 hc⟩

theorem scrubDueStart_of_busy (h : 32 ≤ activities s ∨ conflictAct s 2 0 allPcs ≠ none) :
    scrubDueStart { s with scrubDue := true } = { s with scrubDue := true } :=
  if_neg fun ⟨_, ha, hc⟩ => h.elim (Nat.not_le.2 ha) fun hno => hno (Option.isNone_iff_eq_none.1 hc)

/-! ## Writes held (R205) -/

theorem stalledResume_of_none (h : s.stalls.find? (fun w => decide (w.pc = pc)) = none) : stalledResume s pc = s := by
  rw [stalledResume, h]

theorem stalledResume_of_some {w : Stall} (h : s.stalls.find? (fun w => decide (w.pc = pc)) = some w) :
    stalledResume s pc = if wouldStall s w.pc w.line = true then s
      else hostWrite { s with stalls := s.stalls.erase w } w.func w.ctx w.addr w.bytes := by
  rw [stalledResume, h]

end Cases

/-- Settles O30: each command by what it finds to do, the engine's accesses in the order of R203. -/
theorem enginesOfMemory : Obligations.EnginesOfMemory := by
  intro s pc
  refine ⟨fun hub dom => ?epochs, fun page pg hno hnext => ?rekeyStarts, fun h => ?noStart,
    fun page pg hrekey => ⟨exec_rekeyDone_of_rekeying hrekey, fun ha hptr => ⟨?rekeys, rekeyLine_of_good,
      rekeyLine_of_poisoned⟩, fun hptr => ?passed⟩,
    fun hrekey => ⟨exec_rekeyDone_of_none hrekey, fun ha => ⟨fun line hcopy => ?copies,
      fun hcopy => ⟨fun page pg hclear => ?clears, fun hclear =>
        ⟨fun x hx hpc => ?scrubs, fun hx => ?idles⟩⟩⟩⟩,
    fun ha => ?noPosition,
    fun page => ⟨fun hk => ⟨fun t ht => exec_pageClearDone_of_started hk ht, exec_pageClearDone_of_waiting⟩,
      exec_pageClearDone_of_other⟩,
    fun h => ?noInterval, fun h => ⟨fun ha hc => ?dueStarts, fun hbusy => ?dueWaits⟩,
    exec_scrubDone_of_none, fun x hx => exec_scrubDone_of_running hx,
    fun w hw => ⟨fun hstall => ?holds, fun hgo => ?resumes⟩, fun hw => ?noWrite⟩
  case epochs =>
    intro t e
    refine ⟨fun hdue hdom hkey => ?grants, fun h => ?noGrant⟩
    case grants =>
      rw [exec_epochGrant, if_pos ⟨hdue, hdom, hkey⟩, grantDomain_eq]
    case noGrant =>
      rw [exec_epochGrant, if_neg]
      rintro ⟨hdue, hdom, hkey⟩
      rcases h with h | h | h
      · exact ne_true_of_eq_false h hdue
      · exact Nat.not_le.2 h hdom
      · exact hkey h
  case rekeyStarts =>
    intro k
    rw [exec_rekeyStart, rekeyStart_of_next hno hnext]
    exact ⟨fun hleft => by rw [if_pos hleft], fun hleft => by rw [if_neg (Nat.not_lt.2 hleft.le)]⟩
  case noStart =>
    rcases h with h | h
    · rw [exec_rekeyStart, rekeyStart_of_rekeying h]
    · rw [exec_rekeyStart, rekeyStart_of_none h]
  case rekeys => rw [exec_engineAccess, if_pos ha, engineAccess_of_rekeying hrekey, if_pos hptr]
  case passed =>
    rw [exec_engineAccess, engineAccess_of_rekeying hrekey, if_neg (Nat.not_lt.2 hptr), ite_self]
  case copies => rw [exec_engineAccess, if_pos ha, engineAccess_of_copying hrekey hcopy]
  case clears => rw [exec_engineAccess, if_pos ha, engineAccess_of_clearing hrekey hcopy hclear]
  case scrubs =>
    rw [exec_engineAccess, if_pos ha, engineAccess_of_scrubTurn hrekey hcopy hclear, scrubTurn_of_here hx hpc]
  case idles =>
    rw [exec_engineAccess, if_pos ha, engineAccess_of_scrubTurn hrekey hcopy hclear, scrubTurn_of_elsewhere hx]
  case noPosition => rw [exec_engineAccess, if_neg (ne_true_of_eq_false ha)]
  case noInterval => rw [exec_memScrubDue, if_pos h]
  case dueStarts => rw [exec_memScrubDue, if_neg h, scrubDueStart_of_free ha hc]
  case dueWaits => rw [exec_memScrubDue, if_neg h, scrubDueStart_of_busy hbusy]
  case holds => rw [exec_stalledWriteResume, stalledResume_of_some hw, if_pos hstall]
  case resumes => rw [exec_stalledWriteResume, stalledResume_of_some hw, if_neg (ne_true_of_eq_false hgo)]
  case noWrite => rw [exec_stalledWriteResume, stalledResume_of_none hw]

end Sys2Proof.Machine
end

section
/-!
PROOFS. A fault moves no byte of HBM (R370, R371): neither its record nor the responses that it calls for.
-/

namespace Sys2Proof.Machine

theorem foldl_mem {α : Type} {f : State → α → State} (hf : ∀ s x, (f s x).mem = s.mem) (l : List α)
    (s : State) : (l.foldl f s).mem = s.mem := by
  induction l generalizing s with
  | nil => rfl
  | cons x l ih => exact (ih (f s x)).trans (hf s x)

/-- Either branch leaves HBM as s has it. -/
theorem ite_mem {s a b : State} {c : Prop} [Decidable c] (ha : a.mem = s.mem) (hb : b.mem = s.mem) :
    (if c then a else b).mem = s.mem := by
  rw [apply_ite State.mem, ha, hb, ite_self]

@[simp] theorem setReg64_mem (s : State) (a v : Nat) : (setReg64 s a v).mem = s.mem := rfl

@[simp] theorem countDead_mem (s : State) (q n : Nat) : (countDead s q n).mem = s.mem := rfl

@[simp] theorem sendVec_mem (s : State) (f v : Nat) : (sendVec s f v).mem = s.mem := rfl

@[simp] theorem notice_mem (s : State) (f : Nat) (n : Notice) : (notice s f n).mem = s.mem := ite_mem rfl rfl

@[simp] theorem noticeAll_mem (s : State) (n : Notice) : (noticeAll s n).mem = s.mem :=
  foldl_mem (fun s (kv : Nat × Vf) => notice_mem s kv.1 n) _ s

/-! ## The record (R371, R372) -/

@[simp] theorem copyRec_mem (s : State) (f : Nat) (r : FaultRec) : (copyRec s f r).mem = s.mem :=
  ite_mem rfl (notice_mem _ f _)

@[simp] theorem recordFault_mem (s : State) (q : FaultReq) : (recordFault s q).mem = s.mem :=
  foldl_mem (fun s (fr : Nat × FaultRec) => copyRec_mem s fr.1 fr.2) _ _

/-! ## Brakes (R363) -/

@[simp] theorem forward_mem (s : State) (m : TrunkMsg) : (forward s m).mem = s.mem := by
  have hdropped : ∀ a b c d, (orReg (bump s a b) c d).mem = s.mem := fun _ _ _ _ =>
    (orReg_mem _ _ _).trans (bump_mem _ _ _)
  unfold forward
  refine ite_mem rfl (ite_mem (hdropped _ _ _ _) ?_)
  split
  · exact hdropped _ _ _ _
  · exact ite_mem (hdropped _ _ _ _) (ite_mem (hdropped _ _ _ _) rfl)

@[simp] theorem sendAlarms_mem (s : State) (dests : List Nat) (type : Nat) (body : List Byte) :
    (sendAlarms s dests type body).mem = s.mem :=
  foldl_mem (fun s _ => forward_mem s _) dests s

@[simp] theorem brakeHere_mem (s : State) (c p cause : Nat) : (brakeHere s c p cause).mem = s.mem := notice_mem _ _ _

@[simp] theorem raiseBrake_mem (s : State) (c cause : Nat) : (raiseBrake s c cause).mem = s.mem :=
  ite_mem rfl ((sendAlarms_mem _ _ _ _).trans (brakeHere_mem _ _ _ _))

/-! ## Swaps withheld, effects cancelled, drops of level (R178, R379, R388) -/

@[simp] theorem withhold_mem (s : State) (p : Nat) (gone : SwapGroup → Bool) : (withhold s p gone).mem = s.mem :=
  ite_mem rfl rfl

@[simp] theorem withholdAll_mem (s : State) (p : Nat) : (withholdAll s p).mem = s.mem := withhold_mem s p _

@[simp] theorem cancelEffects_mem (s : State) (gone : Pending → Bool) : (cancelEffects s gone).mem = s.mem := by
  unfold cancelEffects
  refine foldl_mem (fun t e => ?_) _ _
  exact ite_mem rfl (notice_mem t _ _)

@[simp] theorem dropUnentered_mem (s : State) : (dropUnentered s).mem = s.mem :=
  foldl_mem (fun s q => countDead_mem s q 1) _ s

theorem dropLevel_mem (s : State) (lv : Level) : (dropLevel s lv).mem = s.mem := by
  unfold dropLevel
  extract_lets noticed withheld braked dropped
  have hnoticed : noticed.mem = s.mem := noticeAll_mem _ _
  have hwithheld : withheld.mem = noticed.mem := foldl_mem withholdAll_mem _ _
  have hbraked : braked.mem = withheld.mem := foldl_mem (fun s c => raiseBrake_mem s c 6) _ _
  have hdropped : dropped.mem = s.mem := by
    rw [← hnoticed, ← hwithheld, ← hbraked]
    exact dropUnentered_mem braked
  exact ite_mem rfl (ite_mem hdropped hdropped)

/-! ## Resets accepted and quarantines opened (R373, R383, R385) -/

@[simp] theorem acceptCtxReset_mem (s : State) (c : Nat) (auto : Bool) : (acceptCtxReset s c auto).mem = s.mem :=
  ite_mem rfl ((withhold_mem _ _ _).trans ((cancelEffects_mem _ _).trans (raiseBrake_mem s c 6)))

@[simp] theorem setPartState_mem (s : State) (p : Nat) (st : PartState) : (setPartState s p st).mem = s.mem :=
  notice_mem _ _ _

theorem escalatePart_mem (s : State) (p : Nat) : (escalatePart s p).mem = s.mem := by
  unfold escalatePart
  extract_lets counted escalated
  have hescalated : escalated.mem = s.mem := ite_mem rfl rfl
  exact ite_mem ((dropLevel_mem _ _).trans hescalated) hescalated

@[simp] theorem abortSdg_mem (s : State) (p : Nat) : (abortSdg s p).mem = s.mem := rfl

theorem acceptPartReset_mem (s : State) (p : Nat) (auto : Bool) : (acceptPartReset s p auto).mem = s.mem := by
  unfold acceptPartReset
  extract_lets braked cancelled aborted stopped resetting noticed
  have hbraked : braked.mem = s.mem := foldl_mem (fun s c => raiseBrake_mem s c 6) _ s
  have hcancelled : cancelled.mem = s.mem := (cancelEffects_mem _ _).trans hbraked
  clear_value cancelled
  have haborted : aborted.mem = s.mem := (abortSdg_mem _ _).trans hcancelled
  clear_value aborted
  have hstopped : stopped.mem = s.mem := haborted
  have hresetting : resetting.mem = s.mem := (setPartState_mem _ _ _).trans hstopped
  clear_value resetting
  have hnoticed : noticed.mem = s.mem := (notice_mem _ _ _).trans hresetting
  clear_value noticed
  exact ite_mem rfl (ite_mem ((escalatePart_mem _ _).trans hnoticed) hnoticed)

@[simp] theorem openQuarantine_mem (s : State) (p die tile : Nat) (cs : List Nat) :
    (openQuarantine s p die tile cs).mem = s.mem := by
  unfold openQuarantine
  extract_lets jobs reset rest q
  have hreset : reset.mem = s.mem := foldl_mem (fun s c => acceptCtxReset_mem s c true) _ s
  exact ite_mem hreset hreset

/-! ## The fault (R370, R210) -/

theorem respond_mem (s : State) (n : Named) : (respond s n).mem = s.mem := by
  cases n with
  | context c =>
    have hbraked : (raiseBrake s c 1).mem = s.mem := raiseBrake_mem s c 1
    exact ite_mem ((withholdAll_mem _ _).trans hbraked) ((acceptCtxReset_mem _ _ _).trans hbraked)
  | suspects p die tile cs => exact ite_mem (withholdAll_mem s p) (openQuarantine_mem s p die tile cs)
  | partition p => exact ite_mem (withholdAll_mem s p) (acceptPartReset_mem s p true)
  | function f => rfl
  | device => rfl

@[simp] theorem raiseFault_mem (s : State) (q : FaultReq) : (raiseFault s q).mem = s.mem :=
  ite_mem (recordFault_mem s q) ((respond_mem _ _).trans (recordFault_mem s q))

@[simp] theorem memFault_mem (s : State) (code : Nat) (who : Named) (pc line : Nat) :
    (memFault s code who pc line).mem = s.mem := by
  unfold memFault
  extract_lets logged counted
  have hlogged : logged.mem = s.mem := setReg64_mem _ _ _
  have hcounted : counted.mem = logged.mem :=
    ite_mem ((orReg_mem _ _ _).trans (incReg_mem _ _ _))
      (ite_mem ((orReg_mem _ _ _).trans (incReg_mem _ _ _)) rfl)
  exact (raiseFault_mem _ _).trans (hcounted.trans hlogged)

@[simp] theorem rejectHost_mem (s : State) (who : Named) (f addr len : Nat) :
    (rejectHost s who f addr len).mem = s.mem := memFault_mem _ _ _ _ _

end Sys2Proof.Machine
end

section
/-!
PROOFS. Host-pool accesses (R201, R205, R207 to R210): an access within one line touches one frame and one line, what it
stores stands at the place of its address, and what it reads is what the line gives.
-/

namespace Sys2Proof.Machine

/-! ## Bytes read and written -/

theorem byteKey_eq_add (pc line b : Nat) : byteKey pc line b = byteKey pc line 0 + b := by
  rw [byteKey, byteKey, Nat.add_zero]

@[simp] theorem length_readBytes (m : List Host.Cell) (k n : Nat) : (readBytes m k n).length = n := by
  induction n generalizing k with
  | zero => rfl
  | succ n ih => rw [readBytes, List.length_cons, ih]

theorem readBytes_add (m : List Host.Cell) (k a b : Nat) :
    readBytes m k (a + b) = readBytes m k a ++ readBytes m (k + a) b := by
  induction a generalizing k with
  | zero => rw [Nat.zero_add, readBytes, List.nil_append, Nat.add_zero]
  | succ a ih =>
    rw [Nat.succ_add, readBytes, readBytes, ih, List.cons_append, Nat.add_assoc, Nat.add_comm 1 a]

theorem take_readBytes (m : List Host.Cell) (k : Nat) {a n : Nat} (h : a ≤ n) :
    (readBytes m k n).take a = readBytes m k a := by
  obtain ⟨b, rfl⟩ := Nat.exists_eq_add_of_le h
  rw [readBytes_add, List.take_left' (length_readBytes ..)]

theorem drop_readBytes (m : List Host.Cell) (k : Nat) {a n : Nat} (h : a ≤ n) :
    (readBytes m k n).drop a = readBytes m (k + a) (n - a) := by
  obtain ⟨b, rfl⟩ := Nat.exists_eq_add_of_le h
  rw [readBytes_add, List.drop_left' (length_readBytes ..), Nat.add_sub_cancel_left]

/-- Contents that read alike byte by byte read alike. -/
theorem readBytes_congr {m m' : List Host.Cell} (h : ∀ j, look m j = look m' j) (k n : Nat) :
    readBytes m k n = readBytes m' k n := by
  induction n generalizing k with
  | zero => rfl
  | succ n ih => rw [readBytes, readBytes, h, ih]

theorem slice_zero {l : List Byte} {n : Nat} (h : l.length = n) : slice l 0 n = l := by
  subst h
  rw [slice, List.drop_zero, List.take_length, Nat.sub_self, List.replicate_zero, List.append_nil]

/-- A slice that ends inside the line is the bytes that stand there. -/
theorem slice_readBytes (m : List Host.Cell) (k : Nat) {b n len : Nat} (h : b + n ≤ len) :
    slice (readBytes m k len) b n = readBytes m (k + b) n := by
  have htake : ((readBytes m k len).drop b).take n = readBytes m (k + b) n := by
    rw [drop_readBytes m k (by omega), take_readBytes m _ (by omega)]
  rw [slice, htake, length_readBytes, Nat.sub_self, List.replicate_zero, List.append_nil]

theorem writeBytes_append (m : List Host.Cell) (k : Nat) (l l' : List Byte) :
    writeBytes m k (l ++ l') = writeBytes (writeBytes m k l) (k + l.length) l' := by
  induction l generalizing m k with
  | nil => rfl
  | cons x l ih =>
    rw [List.cons_append, writeBytes, writeBytes, ih, List.length_cons, Nat.add_assoc, Nat.add_comm 1]

/-- Bytes written back where they already read so change no byte. -/
theorem look_writeBytes_readBytes {m m' : List Host.Cell} {k n : Nat}
    (h : ∀ j, k ≤ j → j < k + n → look m j = look m' j) (j : Nat) :
    look (writeBytes m' k (readBytes m k n)) j = look m' j := by
  induction n generalizing m' k with
  | zero => rfl
  | succ n ih =>
    rw [readBytes, writeBytes]
    have hput : ∀ i, look (put m' k (look m k)) i = look m' i := by
      intro i
      by_cases hi : i = k
      · rw [hi, look_put_self m' k (look m k)]
        exact h k (Nat.le_refl k) (by omega)
      · exact look_put_ne m' _ hi
    rw [ih (m' := put m' k (look m k)) (fun i hlo hhi => ?rest), hput]
    case rest =>
      rw [hput]
      exact h i (by omega) (by omega)

/-- Contents that read alike read alike after one and the same write. -/
theorem look_writeBytes_congr {m m' : List Host.Cell} (h : ∀ j, look m j = look m' j) (k : Nat) (l : List Byte)
    (j : Nat) : look (writeBytes m k l) j = look (writeBytes m' k l) j := by
  induction l generalizing m m' k with
  | nil => exact h j
  | cons x l ih =>
    rw [writeBytes, writeBytes]
    refine ih (fun i => ?_) (k + 1)
    by_cases hi : i = k
    · rw [hi, look_put_self m k x, look_put_self m' k x]
    · rw [look_put_ne m x hi, look_put_ne m' x hi, h]

/-- A line written back with l in its midst reads as after l alone (R208). -/
theorem look_writeBytes_within (m : List Host.Cell) (k : Nat) {b len : Nat} {l : List Byte} (h : b + l.length ≤ len)
    (j : Nat) :
    look (writeBytes m k ((readBytes m k len).take b ++ l ++ (readBytes m k len).drop (b + l.length))) j =
      look (writeBytes m (k + b) l) j := by
  have hbefore : ∀ i, look (writeBytes m k (readBytes m k b)) i = look m i :=
    look_writeBytes_readBytes fun _ _ _ => rfl
  have hamid : ∀ i, look (writeBytes (writeBytes m k (readBytes m k b)) (k + b) l) i =
      look (writeBytes m (k + b) l) i := look_writeBytes_congr hbefore (k + b) l
  rw [take_readBytes m k (by omega), drop_readBytes m k h, writeBytes_append, writeBytes_append, List.length_append,
    length_readBytes, ← Nat.add_assoc, look_writeBytes_readBytes, hamid]
  intro i hlo _
  rw [hamid, look_writeBytes_ne m _ l (Or.inr hlo)]

/-! ## Accesses of one line -/

section Line
variable {addr n : Nat}

theorem framesOf_line (hn : 1 ≤ n) (hfit : addr % 64 + n ≤ 64) : framesOf addr n = [addr / frameBytes] := by
  have hlast : (addr + n - 1) / frameBytes - addr / frameBytes = 0 := by
    unfold frameBytes
    omega
  rw [framesOf, if_neg (by omega), hlast]
  simp

theorem linePieces_line (hn : 1 ≤ n) (hfit : addr % 64 + n ≤ 64) : linePieces addr n = [(addr, n)] := by
  have hlast : (addr + n - 1) / 64 - addr / 64 = 0 := by omega
  have hlen : min (addr + n) (64 * (addr / 64 + 1)) - addr = n := by omega
  rw [linePieces, if_neg (by omega), hlast]
  simp [hlen]

theorem hostOk_line (s : State) (f : Nat) (hn : 1 ≤ n) (hfit : addr % 64 + n ≤ 64) :
    hostOk s f addr n = (hostPlace s f addr).isSome := by
  rw [hostOk, framesOf_line hn hfit, hostPlace, Option.isSome_map]
  simp

theorem byte_of_hostPlace {s : State} {f pc line b : Nat} (h : hostPlace s f addr = some (pc, line, b)) :
    b = addr % 64 := by
  unfold hostPlace at h
  obtain ⟨pp, -, hpp⟩ := Option.map_eq_some_iff.1 h
  cases hpp
  rfl

/-- A refused access within one line faults with code 36 at its own address (R209). -/
theorem rejectHost_line (s : State) (who : Named) (f : Nat) (hn : 1 ≤ n) (hfit : addr % 64 + n ≤ 64)
    (hno : hostPlace s f addr = none) :
    rejectHost s who f addr n = memFault s 36 who (anyPlace s addr).1 (anyPlace s addr).2 := by
  have hframe : framePage s f (addr / frameBytes) = none := Option.map_eq_none_iff.1 hno
  have hmax : max addr (frameBytes * (addr / frameBytes)) = addr := Nat.max_eq_left (Nat.mul_div_le addr frameBytes)
  have hbyte : refusedByte s f addr n = addr := by
    simp only [refusedByte, framesOf_line hn hfit, List.find?_cons, hframe, Option.isNone_none, hmax]
  have hcode : hostCode addr n = 36 := by
    rw [hostCode, framesOf_line hn hfit]
    rfl
  rw [rejectHost, hbyte, hcode]

end Line

/-! ## The commands -/

theorem exec_hostPoolRead (f : Nat) (ctx : Option Nat) (addr len : Nat) (s : State) :
    exec (.hostPoolRead f ctx addr len) s = .next (irq s (hostPoolRead s f ctx addr len)) := rfl

theorem exec_hostPoolWrite (f : Nat) (ctx : Option Nat) (addr : Nat) (bytes : List Byte) (s : State) :
    exec (.hostPoolWrite f ctx addr bytes) s = .next (irq s (hostWrite s f ctx addr bytes)) := rfl

section Access
variable {s : State} {f addr : Nat} (ctx : Option Nat)

theorem hostPoolRead_of_ok {len : Nat} (h : hostOk s f addr len = true) :
    hostPoolRead s f ctx addr len =
      let r := readPieces s (hostWho f ctx) f (linePieces addr len)
      emit r.1 (.readData f addr (if r.2.2 then List.replicate len 0 else r.2.1) r.2.2) := by
  rw [hostPoolRead, hostRead, if_pos h]

theorem hostPoolRead_of_refused {len : Nat} (h : hostOk s f addr len = false) :
    hostPoolRead s f ctx addr len =
      emit (rejectHost s (hostWho f ctx) f addr len) (.readData f addr (List.replicate len 0) true) := by
  rw [hostPoolRead, hostRead, if_neg (ne_true_of_eq_false h)]

variable {bytes : List Byte}

theorem hostWrite_of_ok (h : hostOk s f addr bytes.length = true)
    (hfree : stallOf s f (linePieces addr bytes.length) = none) :
    hostWrite s f ctx addr bytes = writePieces s (hostWho f ctx) f (linePieces addr bytes.length) bytes := by
  simp only [hostWrite, if_pos h, hfree]

/-- A write to a line whose counter is at its end is held (R205). -/
theorem hostWrite_of_stall {pc line : Nat} (h : hostOk s f addr bytes.length = true)
    (hstall : stallOf s f (linePieces addr bytes.length) = some (pc, line)) :
    hostWrite s f ctx addr bytes =
      orReg (incReg { s with stalls := s.stalls ++
          [{ pc := pc, line := line, func := f, ctx := ctx, addr := addr, bytes := bytes }] }
        (bSeal + 0x18) 1) (bSeal + 0x28) 0x8 := by
  simp only [hostWrite, if_pos h, hstall]

theorem hostWrite_of_refused (h : hostOk s f addr bytes.length = false) :
    hostWrite s f ctx addr bytes = rejectHost s (hostWho f ctx) f addr bytes.length :=
  if_neg (ne_true_of_eq_false h)

end Access

end Sys2Proof.Machine
end

section
/-!
PROOFS. Host-pool accesses of one line (R201, R205, R207, R208, R210): what a write stores or faults,
and what a read drives.
-/

namespace Sys2Proof.Machine

/-! ## What a write of one line stores -/

/-- State t holds l from key k on, with every other byte of HBM and every register as s has it. -/
structure Stored (s t : State) (k : Nat) (l : List Byte) : Prop where
  reads : ∀ j, look t.mem j = look (writeBytes s.mem k l) j
  regs : t.regs = s.regs

theorem Stored.readBack {s t : State} {k : Nat} {l : List Byte} (h : Stored s t k l) :
    readBytes t.mem k l.length = l := by
  rw [readBytes_congr h.reads, readBytes_writeBytes]

theorem Stored.elsewhere {s t : State} {k : Nat} {l : List Byte} (h : Stored s t k l) {j : Nat}
    (hj : j < k ∨ k + l.length ≤ j) : look t.mem j = look s.mem j := by
  rw [h.reads, look_writeBytes_ne _ _ _ hj]

section Line
variable {s : State} {pc line : Nat}

theorem writeLine_stored {bytes : List Byte} (hlen : bytes.length = 64) :
    Stored s (writeLine s pc line bytes) (byteKey pc line 0) bytes where
  reads j := by rw [writeLine, slice_zero hlen]
  regs := rfl

theorem writePart_stored (who : Named) {b : Nat} {bytes : List Byte} (hgood : lineRead s pc line = .good)
    (hfit : b + bytes.length ≤ 64) :
    Stored s (writePart s who pc line b bytes) (byteKey pc line b) bytes := by
  rw [writePart, hgood]
  cases hsealed : (pcOf s pc).sealed with
  | false => exact ⟨fun _ => rfl, rfl⟩
  | true =>
    have hline : (lineBytes s pc line).length = 64 := length_readBytes ..
    have hmerged : ((lineBytes s pc line).take b ++ bytes ++ (lineBytes s pc line).drop (b + bytes.length)).length
        = 64 := by
      simp only [List.length_append, List.length_take, List.length_drop, hline]
      omega
    refine ⟨fun j => ?_, rfl⟩
    rw [byteKey_eq_add]
    exact ((writeLine_stored hmerged).reads j).trans (look_writeBytes_within s.mem (byteKey pc line 0) hfit j)

end Line

section Access
variable {s : State} {f addr pc line b : Nat} {bytes : List Byte} (ctx : Option Nat)
variable (hn : 1 ≤ bytes.length) (hfit : addr % 64 + bytes.length ≤ 64)
variable (hplace : hostPlace s f addr = some (pc, line, b))
include hn hfit hplace

theorem stallOf_line : stallOf s f (linePieces addr bytes.length) =
    if wouldStall s pc line = true then some (pc, line) else none := by
  rw [linePieces_line hn hfit, stallOf, List.findSome?_singleton]
  simp only [hplace]

/-- A write of one line writes the whole line or a part of it. -/
theorem hostWrite_line (hfree : wouldStall s pc line = false) :
    hostWrite s f ctx addr bytes =
      if bytes.length = 64 then writeLine s pc line bytes else writePart s (hostWho f ctx) pc line b bytes := by
  have hok : hostOk s f addr bytes.length = true := by rw [hostOk_line s f hn hfit, hplace, Option.isSome_some]
  have hstall : stallOf s f (linePieces addr bytes.length) = none := by
    rw [stallOf_line hn hfit hplace, hfree, if_neg Bool.false_ne_true]
  have hall : bytes.take bytes.length = bytes := List.take_length
  rw [hostWrite_of_ok ctx hok hstall, linePieces_line hn hfit, writePieces, hplace]
  by_cases hwhole : bytes.length = 64
  · have hall' : bytes.take 64 = bytes := hwhole ▸ hall
    simp only [if_pos hwhole, hall', writePieces]
  · simp only [if_neg hwhole, hall, writePieces]

theorem hostWrite_line_stored (hfree : wouldStall s pc line = false)
    (hgood : lineRead s pc line = .good ∨ bytes.length = 64) :
    Stored s (hostWrite s f ctx addr bytes) (byteKey pc line b) bytes := by
  have hb : b = addr % 64 := byte_of_hostPlace hplace
  rw [hostWrite_line ctx hn hfit hplace hfree]
  by_cases hwhole : bytes.length = 64
  · have hzero : b = 0 := by omega
    rw [if_pos hwhole, hzero]
    exact writeLine_stored hwhole
  · rw [if_neg hwhole]
    exact writePart_stored _ (hgood.resolve_right hwhole) (hb ▸ hfit)

/-- A read of one line drives what the line gives, zeros where it faults (R207, R210). -/
theorem hostPoolRead_line :
    hostPoolRead s f ctx addr bytes.length =
      let r := readLine s (hostWho f ctx) pc line
      emit r.1 (.readData f addr
        (if r.2.2 then List.replicate bytes.length 0 else slice r.2.1 b bytes.length) r.2.2) := by
  have hok : hostOk s f addr bytes.length = true := by rw [hostOk_line s f hn hfit, hplace, Option.isSome_some]
  rw [hostPoolRead_of_ok ctx hok, linePieces_line hn hfit, readPieces, hplace]
  simp only [readPieces, List.append_nil, Bool.or_false]

end Access

/-! ## What a line gives, and how a part of one fails -/

section Line
variable {s : State} (who : Named) {pc line b : Nat} {bytes : List Byte}

/-- The line's error counted, where on-die ECC reports one (R215). -/
def ueCounted (s : State) (pc line : Nat) : State := if lineUe s pc line then countUe s else s

theorem readLine_of_good (h : lineRead s pc line = .good) :
    readLine s who pc line = (s, lineBytes s pc line, false) := by
  rw [readLine, h]

theorem readLine_of_poisoned (h : lineRead s pc line = .poisoned) :
    readLine s who pc line = (memFault s 33 who pc line, List.replicate 64 0, true) := by
  rw [readLine, h]

theorem readLine_of_tagBad (h : lineRead s pc line = .tagBad) : readLine s who pc line =
    (memFault (poison (ueCounted s pc line) pc line) 32 who pc line, List.replicate 64 0, true) := by
  rw [readLine, h]
  rfl

theorem readLine_of_plainUe (h : lineRead s pc line = .plainUe) :
    readLine s who pc line = (memFault (countUe s) 37 who pc line, List.replicate 64 0, true) := by
  rw [readLine, h]

theorem writePart_of_poisoned (h : lineRead s pc line = .poisoned) :
    writePart s who pc line b bytes = memFault s 34 who pc line := by
  rw [writePart, h]

theorem writePart_of_tagBad (h : lineRead s pc line = .tagBad) : writePart s who pc line b bytes =
    memFault (poison (ueCounted s pc line) pc line) 34 who pc line := by
  rw [writePart, h]
  rfl

theorem writePart_of_plainUe (h : lineRead s pc line = .plainUe) :
    writePart s who pc line b bytes = memFault (countUe s) 37 who pc line := by
  rw [writePart, h]

end Line

/-- Settles O32: an access as its check passes or not, one within a line by what the line gives. -/
theorem hostPoolAccesses : Obligations.HostPoolAccesses := by
  intro s f ctx addr pc line b bytes n who zeros counted at'
  refine ⟨fun hok => ⟨fun hfree => ?writes, ?reads⟩, fun hno => ⟨?writeRejected, ?readRejected⟩,
    fun hn hfit => ⟨fun hplace => ⟨fun hfree hgood => ?stores, fun hfree hpart => ⟨fun hl => ?partPoisoned,
      fun hl => ?partTagBad, fun hl => ?partPlainUe⟩, fun hstall => ?held, fun hl => ?readGood,
      fun hl => ?readPoisoned, fun hl => ?readTagBad, fun hl => ?readPlainUe⟩, fun hplace => ?foreign⟩⟩
  case writes => rw [exec_hostPoolWrite, hostWrite_of_ok ctx hok hfree]
  case reads => rw [exec_hostPoolRead, hostPoolRead_of_ok ctx hok]
  case writeRejected => rw [exec_hostPoolWrite, hostWrite_of_refused ctx hno]
  case readRejected => rw [exec_hostPoolRead, hostPoolRead_of_refused ctx hno]
  case stores =>
    have hstored := hostWrite_line_stored ctx hn hfit hplace hfree hgood
    exact ⟨_, exec_hostPoolWrite f ctx addr bytes s, hstored.readBack, hstored.regs, fun k => hstored.elsewhere⟩
  case partPoisoned =>
    rw [exec_hostPoolWrite, hostWrite_line ctx hn hfit hplace hfree, if_neg hpart, writePart_of_poisoned _ hl]
  case partTagBad =>
    rw [exec_hostPoolWrite, hostWrite_line ctx hn hfit hplace hfree, if_neg hpart, writePart_of_tagBad _ hl]
    rfl
  case partPlainUe =>
    rw [exec_hostPoolWrite, hostWrite_line ctx hn hfit hplace hfree, if_neg hpart, writePart_of_plainUe _ hl]
  case held =>
    intro w
    have hok : hostOk s f addr n = true := by rw [hostOk_line s f hn hfit, hplace, Option.isSome_some]
    have hheld : stallOf s f (linePieces addr n) = some (pc, line) := by
      rw [stallOf_line hn hfit hplace, if_pos hstall]
    rw [exec_hostPoolWrite, hostWrite_of_stall ctx hok hheld]
  case readGood =>
    have hb : b = addr % 64 := byte_of_hostPlace hplace
    have hbytes : slice (lineBytes s pc line) b n = readBytes s.mem (byteKey pc line b) n := by
      rw [byteKey_eq_add]
      exact slice_readBytes s.mem _ (hb ▸ hfit)
    rw [exec_hostPoolRead, hostPoolRead_line ctx hn hfit hplace, readLine_of_good _ hl]
    simp only [if_neg Bool.false_ne_true, hbytes, n]
  case readPoisoned =>
    rw [exec_hostPoolRead, hostPoolRead_line ctx hn hfit hplace, readLine_of_poisoned _ hl]
    rfl
  case readTagBad =>
    rw [exec_hostPoolRead, hostPoolRead_line ctx hn hfit hplace, readLine_of_tagBad _ hl]
    rfl
  case readPlainUe =>
    rw [exec_hostPoolRead, hostPoolRead_line ctx hn hfit hplace, readLine_of_plainUe _ hl]
    rfl
  case foreign =>
    have hno : hostOk s f addr n = false := by rw [hostOk_line s f hn hfit, hplace, Option.isSome_none]
    refine ⟨⟨_, exec_hostPoolWrite f ctx addr bytes s, ?kept⟩, ?driven⟩
    case kept => rw [hostWrite_of_refused ctx hno, rejectHost_mem]
    case driven =>
      rw [exec_hostPoolRead, hostPoolRead_of_refused ctx hno, rejectHost_line s _ f hn hfit hplace]

end Sys2Proof.Machine
end

section
/-!
PROOFS. The end of a clear (R196, R199, R206, R215). The bytes of the page and no other are cleared, the page takes its
state, and only two register words move; but of a word that moves every byte address reads the new value, so that the
statement fails at the addresses inside the word of MEM_INT_STATUS that are not its first.
-/

namespace Sys2Proof.Machine

/-! ## Registers are words -/

/-- Addresses in one word, with one reset value, read alike. -/
theorem reg_of_same_word (s : State) {a b : Nat} (hword : b / 4 = a / 4) (hreset : resetOf b = resetOf a) :
    reg s b = reg s a := by
  simp only [reg, regOf, hword, hreset]

/-- Refutes O31: PAGE_CLEARED sets, so byte address 0x69 of the block, in the word of MEM_INT_STATUS, reads nonzero
after the clear and 0 before. -/
theorem not_clearedPagesReadZero : ¬ Obligations.ClearedPagesReadZero := by
  unfold Obligations.ClearedPagesReadZero
  intro hall
  let s : State := { State.reset with
    pcs := [(0, { owner := .hostPool })], pages := [(383, { kind := .clearing, clearStarted := true })] }
  obtain ⟨t, -, -, -, -, hset, hregs⟩ := hall s 0 383 (by decide) rfl rfl rfl rfl
  have hkept : reg t (bMem + 0x69) = 0 := hregs (bMem + 0x69) (by decide) (by decide)
  have hsame : reg t (bMem + 0x69) = reg t (bMem + 0x68) := reg_of_same_word t (by decide) (by decide)
  rw [← hsame, hkept] at hset
  exact absurd hset (by decide)

/-! ## The start of a clear -/

/-- What the start of a clear leaves as it was. -/
structure ClearStarted (s t : State) (pc page : Nat) : Prop where
  mem : t.mem = s.mem
  regs : t.regs = s.regs
  pcs : t.pcs = s.pcs
  next : (pageAt t pc page).next = (pageAt s pc page).next
  waiting : (pageAt t pc page).waiting = (pageAt s pc page).waiting

section Start
variable {s t : State} {pc page : Nat}

theorem clearStarted_of_clearStart (h : clearStart s pc page = some t) : ClearStarted s t pc page := by
  unfold clearStart at h
  extract_lets pg at h
  by_cases hstarted : pg.clearStarted = true
  · rw [if_pos hstarted] at h
    cases h
    exact ⟨rfl, rfl, rfl, rfl, rfl⟩
  rw [if_neg hstarted] at h
  by_cases hsealed : (pcOf s pc).sealed = true
  · rw [if_pos hsealed] at h
    obtain ⟨⟨e, u⟩, hdraw, rfl⟩ := Option.map_eq_some_iff.1 h
    unfold drawEpoch at hdraw
    extract_lets b at hdraw
    split at hdraw
    · cases hdraw
      refine ⟨rfl, rfl, rfl, ?_, ?_⟩ <;> simp only [pageAt, look_upd_self]
    · cases hdraw
  · rw [if_neg hsealed] at h
    cases h
    refine ⟨rfl, rfl, rfl, ?_, ?_⟩ <;> simp only [pageAt, look_upd_self]

end Start

/-! ## The bytes of a page -/

/-- Entries dropped by their keys read as unlisted, the others as they stand. -/
theorem look_filter {α : Type} [Inhabited α] (p : Nat → Bool) (t : Table α) (k : Nat) :
    look (t.filter fun c => p c.1) k = if p k then look t k else default := by
  induction t with
  | nil => exact (ite_self _).symm
  | cons x t ih =>
    obtain ⟨j, v⟩ := x
    by_cases hj : j = k
    · subst hj
      cases hp : p j <;> simp [look, ih, hp]
    · cases hp : p j <;> simp [look, ih, hp, hj]

/-- The bytes of a page, 2,097,152 from its first one on. -/
def ofPage (pc page k : Nat) : Bool :=
  decide (byteKey pc (32768 * page) 0 ≤ k) && decide (k < byteKey pc (32768 * page) 0 + 2097152)

theorem clearLines_mem (s : State) (pc page : Nat) :
    (clearLines s pc page 0 32768).mem = s.mem.filter fun c => !ofPage pc page c.1 := by
  have hend : byteKey pc (32768 * page + 32768) 0 = byteKey pc (32768 * page) 0 + 2097152 := by
    simp only [byteKey]
    omega
  simp only [clearLines, Nat.add_zero, hend, ofPage]

/-! ## The end of a clear -/

@[simp] theorem keyMoved_mem (s : State) (dom : Nat) : (keyMoved s dom).mem = s.mem :=
  ite_mem (ite_mem (orReg_mem _ _ _) rfl) rfl

theorem keyMoved_pages (s : State) (dom : Nat) : (keyMoved s dom).pages = s.pages := by
  unfold keyMoved
  split
  · extract_lets moved
    split
    · exact orReg_pages _ _ _
    · rfl
  · rfl

theorem keyMoved_pcs (s : State) (dom : Nat) : (keyMoved s dom).pcs = s.pcs := by
  unfold keyMoved
  split
  · extract_lets moved
    split
    · exact orReg_pcs _ _ _
    · rfl
  · rfl

/-- The end of a key's replacement shows in SEAL_INT_STATUS alone. -/
theorem reg_keyMoved_ne (s : State) (dom : Nat) {a : Nat} (h : a / 4 ≠ (bSeal + 0x28) / 4) :
    reg (keyMoved s dom) a = reg s a := by
  unfold keyMoved
  split
  · extract_lets moved
    split
    · exact reg_orReg_ne _ _ h
    · rfl
  · rfl

theorem kind_lateGen (s : State) (pc : Nat) (g : Page) : (lateGen s pc g).kind = g.kind := by
  unfold lateGen
  split <;> rfl

theorem kind_clearedPage (sealed : Bool) (g : Page) : (clearedPage sealed g).kind = g.next := by
  unfold clearedPage
  split
  next h => exact h.symm
  next => rfl

section Done
variable {s : State} {pc page : Nat}

/-- The page without its bytes and in its next state. -/
def pageCleared (s : State) (pc page : Nat) : State :=
  let t := clearLines s pc page 0 32768
  { t with pages := upd t.pages (pageKey pc page) fun g => lateGen t pc (clearedPage (pcOf t pc).sealed g) }

theorem kind_pageCleared (s : State) (pc page : Nat) :
    (pageAt (pageCleared s pc page) pc page).kind = (pageAt s pc page).next := by
  rw [pageCleared, pageAt, look_upd_self, kind_lateGen, kind_clearedPage]
  rfl

/-- With no command waiting and the position not being freed, a clear ends with the page cleared, the key moved where
this was its last region, and PAGE_CLEARED set. -/
theorem clearDone_eq (hwaiting : (pageAt s pc page).waiting = none) (hfreeing : (pcOf s pc).freeing = false) :
    clearDone s pc page =
      orReg (keyMoved (pageCleared s pc page) (sealDom (pageAt (pageCleared s pc page) pc page)))
        (bMem + 0x68) 0x8 := by
  have hstays : ∀ t : State, t.pcs = s.pcs → freedPc (reclear t pc page) pc = t := by
    intro t ht
    have hpc : ¬(pcOf t pc).freeing = true := by rw [pcOf, ht]; exact ne_true_of_eq_false hfreeing
    have hreclear : reclear t pc page = t := if_neg fun h => hpc h.1
    rw [hreclear]
    exact if_neg fun h => hpc h.1
  rw [clearDone, hwaiting]
  exact hstays _ (keyMoved_pcs _ _)

theorem bitOf_or_eight (v : Nat) : bitOf ((v ||| 8) % 2 ^ 32) 3 = true := by
  rw [bitOf, ← Nat.testBit_eq_decide_div_mod_eq, Nat.testBit_mod_two_pow, Nat.testBit_or]
  simp [show Nat.testBit 8 3 = true by decide]

/-- What O31 says, of register words in place of byte addresses: the page is cleared and no other byte of HBM moves, it
takes the state its clear was for, PAGE_CLEARED sets, and no word but the two status words moves. -/
theorem pageClearDone_clears (hkind : (pageAt s pc page).kind = .clearing)
    (hwaiting : (pageAt s pc page).waiting = none) (hstart : (clearStart s pc page).isSome = true)
    (hfreeing : (pcOf s pc).freeing = false) :
    ∃ t, exec (.pageClearDone pc page) s = .next (irq s t) ∧
      (∀ k, look t.mem k = if ofPage pc page k then 0 else look s.mem k) ∧
      (pageAt t pc page).kind = (pageAt s pc page).next ∧ bitOf (reg t (bMem + 0x68)) 3 = true ∧
      ∀ a, a / 4 ≠ (bMem + 0x68) / 4 → a / 4 ≠ (bSeal + 0x28) / 4 → reg t a = reg s a := by
  obtain ⟨u, hu⟩ := Option.isSome_iff_exists.1 hstart
  have hkept : ClearStarted s u pc page := clearStarted_of_clearStart hu
  have hdone := clearDone_eq (hkept.waiting.trans hwaiting) (show (pcOf u pc).freeing = false by
    rw [pcOf, hkept.pcs]; exact hfreeing)
  refine ⟨_, exec_pageClearDone_of_started hkind hu, fun k => ?bytes, ?kind, ?bit, fun a hmem hseal => ?words⟩ <;>
    rw [hdone]
  case bytes =>
    rw [orReg_mem, keyMoved_mem, pageCleared, clearLines_mem, hkept.mem]
    rw [look_filter fun k => !ofPage pc page k]
    cases ofPage pc page k <;> rfl
  case kind => rw [pageAt, orReg_pages, keyMoved_pages, ← pageAt, kind_pageCleared, hkept.next]
  case bit =>
    rw [reg_orReg_self]
    exact bitOf_or_eight _
  case words =>
    rw [reg_orReg_ne _ _ hmem, reg_keyMoved_ne _ _ hseal]
    exact congrArg (regOf · a) hkept.regs

end Done

end Sys2Proof.Machine
end

section
/-!
PROOFS. Entries of ring queues (R250, R327 to R330, R432): where an index goes next, when a completion ring is full,
and when a result is written or dropped.
-/

namespace Sys2Proof.Machine

/-! ## Indices of a ring -/

section Ring
variable (x : Queue)

theorem nextIndex_lt (i : Nat) : nextIndex x i < 2 * ringLen x :=
  Nat.mod_lt _ (Nat.mul_pos Nat.two_pos (Nat.two_pow_pos _))

theorem ringLen_le {n : Nat} (h : x.log2 ≤ n) : ringLen x ≤ 2 ^ n := Nat.pow_le_pow_right Nat.two_pos h

/-- A completion ring is full with one entry left: that one waits for a barrier (R329). -/
theorem ringFull_cpl_iff (hkind : x.kind = 4) : ringFull x = true ↔ ringLen x ≤ occupancy x + 1 := by
  simp only [ringFull, hkind, if_true, decide_eq_true_eq, Nat.sub_le_iff_le_add]

end Ring

/-! ## Entries written and results offered -/

section Offer
variable (s : State) (q : Nat)

theorem writeProd_eq (b : List Byte) :
    let x := queueOf s q
    let w := hostWrite s x.func none (entryAddr x x.prod) b
    writeProd s q b = ringVector { w with queues := upd w.queues q fun y =>
      { y with prod := nextIndex y y.prod, entries := y.entries + 1 } } q := rfl

/-- A ring takes a result when it is enabled, has room and no barrier entry waits for it. -/
theorem offer_eq (f : Queue → List Byte) :
    let x := queueOf s q
    offer s q f = if x.enabled = false ∨ ringFull x = true ∨ x.barrier ≠ [] then countDead s q 1
      else writeProd s q (f x) := rfl

end Offer

/-- Settles O22: the entry and the result by what the two operations do, the numbers by those of the ring. -/
theorem entriesOfARing : Obligations.EntriesOfARing := by
  intro s q b f x w
  refine ⟨writeProd_eq s q b, fun hshut => ?dropped, fun hen hroom hbar => ?written, fun hlog => ?bound,
    fun hkind _ => ringFull_cpl_iff x hkind⟩
  case dropped => exact (offer_eq s q f).trans (if_pos hshut)
  case written => exact (offer_eq s q f).trans (if_neg (by simp [x, hen, hroom, hbar]))
  case bound =>
    calc nextIndex x x.prod < 2 * ringLen x := nextIndex_lt x x.prod
      _ ≤ 2 * 2 ^ 16 := Nat.mul_le_mul_left 2 (ringLen_le x hlog)
      _ = 2 ^ 17 := rfl

end Sys2Proof.Machine
end

section
/-!
PROOFS. Latched reads of 48-bit counters (R235, R249, R250, R320): which counter an access finds, and what reading it
or finding none does.
-/

namespace Sys2Proof.Machine

section Read
variable {s : State} {acc : Access} {a : Nat}

/-! ## The read -/

theorem exec_counterLowWordRead_of_counter {at' reader n : Nat} (h : counterFor s acc a = some (at', reader, n)) :
    exec (.counterLowWordRead acc a) s = .next (irq s
      { s with
        latches := put s.latches (latchKey at' reader) (BitVec.ofNat 16 (n / 2 ^ 32))
        wire := .regData (BitVec.ofNat 64 (n % 2 ^ 32)) :: s.wire }) := by
  rw [exec_counterLowWordRead, latchRead, h]

theorem exec_counterLowWordRead_of_none (h : counterFor s acc a = none) :
    exec (.counterLowWordRead acc a) s = .next (irq s (emit s (.regData 0))) := by
  rw [exec_counterLowWordRead, latchRead, h]

/-! ## The counter that an access finds -/

theorem bar_of_reachesPf (h : reachesPf acc = true) : acc.bar = .pf := by
  simp only [reachesPf, Bool.and_eq_true, decide_eq_true_eq] at h
  exact h.1

/-- An access that reaches a function goes through that function's own BAR. -/
theorem bar_of_reachesVf {f : Nat} (h : reachesVf s acc = some f) : acc.bar = .vf f := by
  unfold reachesVf at h
  split at h
  case h_1 => cases h
  case h_2 g hbar =>
    split at h
    · cases h
      exact hbar
    · cases h

theorem counterFor_statistics (hpf : reachesPf acc = true) (ha : a % 8 = 0) (hhalf : halfRows.any (·.hits a) = true) :
    counterFor s acc a =
      some (a, if acc.view = .c then 0 else 1, if unusedSubport s a = true then 0 else reg64 s a) := by
  simp only [counterFor, bar_of_reachesPf hpf, hpf, ha, hhalf, Bool.true_eq_false, ne_eq, not_true_eq_false, or_self,
    if_false, if_true]

theorem counterFor_entries {q : Nat} (hpf : reachesPf acc = true) (ha : a % 8 = 0)
    (hhalf : halfRows.any (·.hits a) = false) (hq : indexIn a (bQue + 0x20) 0x800 8192 = some q) :
    counterFor s acc a = some (a, if acc.view = .c then 0 else 1, (queueOf s q).entries % 2 ^ 48) := by
  simp only [counterFor, bar_of_reachesPf hpf, hpf, ha, hhalf, hq, Bool.true_eq_false, Bool.false_eq_true, ne_eq,
    not_true_eq_false, or_self, if_false]

theorem counterFor_drops {f : Nat} (hvf : reachesVf s acc = some f) :
    counterFor s acc 0x88 = some (deadAddr (vfOf s f).qsel, if acc.view = .c then 0 else 2 + f,
      reg64 s (deadAddr (vfOf s f).qsel)) := by
  simp only [counterFor, bar_of_reachesVf hvf, hvf, if_true]

end Read

/-- Settles O13: each read by the counter that its access finds. -/
theorem counterReadLatchesHighWord : Obligations.CounterReadLatchesHighWord := by
  intro s acc a reader answers
  refine ⟨fun hpf ha => ⟨fun hhalf => ?statistics, fun q hhalf hq => ?entries⟩, fun f hvf ha => ?drops,
    exec_counterLowWordRead_of_none⟩
  case statistics => exact exec_counterLowWordRead_of_counter (counterFor_statistics hpf ha hhalf)
  case entries => exact exec_counterLowWordRead_of_counter (counterFor_entries hpf ha hhalf hq)
  case drops =>
    subst ha
    exact ⟨bar_of_reachesVf hvf, exec_counterLowWordRead_of_counter (counterFor_drops hvf)⟩

end Sys2Proof.Machine
end

section
/-!
PROOFS. Frames received (R221 to R223, R226 to R228, R242): how one starts, is decided and ends, said once; then the
sorting table's exchange (R229, R230) and the keys of MACsec.
-/

namespace Sys2Proof.Machine

/-! ## The start of a frame (R223) -/

theorem exec_frameSfd (port sub off : Nat) (s : State) :
    let u := atOff s off
    exec (.frameSfd port sub off) s = .next (irq s (
      if linkUp u port sub = true ∧ receiving u (subKey port sub) = false ∧
          (look u.egress (subKey port sub)).quiet = false then frameSfd u port sub off else u)) := rfl

/-- A frame takes room of its port's receive memory, or is dropped and counted. -/
theorem frameSfd_eq (s : State) (port sub off : Nat) :
    let n := maxLen s port
    let t := orReg (cnt s port sub 0xA0 1) (bMac + 0x10000 * port + 0x10) 0x8
    frameSfd s port sub off =
      if look s.staging port + n ≤ 1048576 then
        { s with
          rx := upd s.rx (subKey port sub) fun l => l ++ [newRx s port off n]
          staging := upd s.staging port (· + n) }
      else { t with
        rx := upd t.rx (subKey port sub) fun l => l ++ [{ newRx t port off 0 with dropped := true }] } := rfl

/-! ## The decision (R226 to R228) -/

section Decision
variable {s : State} {port sub off : Nat} {fr : RxFrame} {hdr : List Byte}

theorem exec_frameHeaderDecision_of_undecided (h : undecided (atOff s off) (subKey port sub) = some fr) :
    exec (.frameHeaderDecision port sub hdr off) s =
      .next (irq s (headerDecision (atOff s off) port sub fr hdr)) := by
  change done s _ = _
  unfold atOff at *
  rw [h]
  rfl

theorem exec_frameHeaderDecision_of_none (h : undecided (atOff s off) (subKey port sub) = none) :
    exec (.frameHeaderDecision port sub hdr off) s = .next (irq s (atOff s off)) := by
  change done s _ = _
  unfold atOff at *
  rw [h]
  rfl

/-- A frame still arriving is decided on what has come of it and stays in reception. -/
theorem headerDecision_of_arriving (h : fr.ended = none) :
    headerDecision s port sub fr hdr =
      replaceRx (decideFrame s port sub fr hdr).1 port sub fr (decideFrame s port sub fr hdr).2 := by
  simp only [headerDecision, h, Option.getD_none]

/-- A frame that has ended is decided on all of it and completed. -/
theorem headerDecision_of_ended {b : List Byte} (h : fr.ended = some b) :
    headerDecision s port sub fr hdr =
      complete (removeRx (decideFrame s port sub fr b).1 port sub fr) port sub (decideFrame s port sub fr b).2 b := by
  simp only [headerDecision, h, Option.getD_some]

theorem ruled_of_rule {p : Parsed} {clear : List Byte} {rule : Nat} {r : BitVec 1024}
    (h : findRule (tableFor s fr) port p clear = some (rule, r)) :
    (ruled s port fr p clear).decided = true ∧ (ruled s port fr p clear).rule = some rule := by
  simp only [ruled, h, and_self]

end Decision

/-! ## The end of a frame (R222) -/

section End
variable {s : State} {port sub off : Nat} {fr : RxFrame} {bytes : List Byte}

theorem exec_frameEnd_of_arriving
    (h : (look (atOff s off).rx (subKey port sub)).find? (·.ended.isNone) = some fr) :
    exec (.frameEnd port sub bytes off) s =
      .next (irq s (frameEnd (countLine (atOff s off) port sub) port sub fr bytes)) := by
  change done s _ = _
  unfold atOff at *
  rw [h]
  rfl

theorem exec_frameEnd_of_none (h : (look (atOff s off).rx (subKey port sub)).find? (·.ended.isNone) = none) :
    exec (.frameEnd port sub bytes off) s = .next (irq s (atOff s off)) := by
  change done s _ = _
  unfold atOff at *
  rw [h]
  rfl

/-- A frame dropped at its start or its decision, and not held for a request, just goes. -/
theorem frameEnd_of_dropped (h : fr.dropped = true ∧ fr.action ≠ 3) :
    frameEnd s port sub fr bytes = removeRx s port sub fr := if_pos h

theorem frameEnd_of_failed {o : Nat} (h : ¬(fr.dropped = true ∧ fr.action ≠ 3))
    (hcheck : endCheck s port sub bytes = some o) :
    frameEnd s port sub fr bytes = cnt (removeRx s port sub fr) port sub o 1 := by
  rw [frameEnd, if_neg h, hcheck]

theorem frameEnd_of_passed (h : ¬(fr.dropped = true ∧ fr.action ≠ 3)) (hcheck : endCheck s port sub bytes = none) :
    let w := countKept (if isSecured bytes = true then secTaken s port sub bytes else s) port sub bytes
    frameEnd s port sub fr bytes =
      if fr.decided = true then complete (removeRx w port sub fr) port sub fr bytes
      else keepPart w port sub fr bytes := by
  rw [frameEnd, if_neg h, hcheck]

end End

/-! ## The sorting table (R229, R230) -/

theorem exec_srtShadowRuleWrite (v : View) (o size : Nat) (data : BitVec 64) (s : State) :
    exec (.srtShadowRuleWrite v o size data) s = .next (irq s (
      if hasAccess v = true ∧ size ∈ [1, 2, 4, 8] ∧ o % size = 0 ∧ o + size ≤ 128 then
        if s.srtCopying = true then orReg s (bSrt + 0xC) 0x4
        else { s with srtS := upd s.srtS (shadowSel s) fun r => ruleWith r o size data.toNat }
      else s)) := rfl

theorem exec_srtCopyDone (s : State) : exec .srtCopyDone s = .next (irq s (
    if s.srtCopying = true then orReg { s with srtS := s.srtA, srtCopying := false } (bSrt + 0xC) 0x2 else s)) := rfl

section Swap
variable {u : State} (h : CmdHdr) (i : Nat)

theorem srtSwapBody_of_busy (hbusy : u.srtCopying = true ∨ u.srtPending = true) :
    srtSwapBody h u i = refuse u stState := if_pos hbusy

theorem srtSwapBody_of_sound (hfree : ¬(u.srtCopying = true ∨ u.srtPending = true)) (hsound : badRule u = none) :
    srtSwapBody h u i = acceptAt (addEffect { u with srtPending := true, srtNext := u.srtS } h i (tickAfter4096 u)
      .srtSwap) (tickAfter4096 u) 0 := by
  rw [srtSwapBody, if_neg hfree, hsound]

theorem srtSwapBody_of_badRule {rule why : Nat} (hfree : ¬(u.srtCopying = true ∨ u.srtPending = true))
    (hbad : badRule u = some (rule, why)) :
    srtSwapBody h u i = refuseAt u 0x200 (rule + why * 4096) 0 := by
  rw [srtSwapBody, if_neg hfree, hbad]

end Swap

/-! ## MACsec keys (R242) -/

/-- The buffer that wraps the key, as read from PF's memory. -/
def sakRead (u : State) (suite src : Nat) : State × Option (List Byte × Bool) :=
  hostRead u (.function 0) 0 src (sakBufLen suite)

section Key
variable {u : State} (port sub chan an : Nat) {suite src : Nat} (i : Nat)

theorem macsecBody_of_key {b key : List Byte} (hread : (sakRead u suite src).2 = some (b, false))
    (hkey : sakOf (sakRead u suite src).1 suite b = some key) :
    macsecBody port sub chan an suite src u i =
      accept (installSak (sakRead u suite src).1 port sub chan an suite key) := by
  unfold sakRead at *
  simp only [macsecBody, hread, hkey]

theorem macsecBody_of_noKey {b : List Byte} (hread : (sakRead u suite src).2 = some (b, false))
    (hkey : sakOf (sakRead u suite src).1 suite b = none) :
    macsecBody port sub chan an suite src u i = refuse (sakRead u suite src).1 stDigest := by
  unfold sakRead at *
  simp only [macsecBody, hread, hkey]

theorem macsecBody_of_unread (hread : ∀ b, (sakRead u suite src).2 ≠ some (b, false)) :
    macsecBody port sub chan an suite src u i = refuse (sakRead u suite src).1 stDigest := by
  unfold sakRead at *
  rw [macsecBody]
  split
  case h_1 b hb => exact absurd hb (hread b)
  case h_2 => rfl

end Key

/-- Settles O56: a frame by the moment of its reception, each command by what its body answers. -/
theorem receivedFramesComplete : Obligations.ReceivedFramesComplete := by
  intro s port sub off bytes v h k at' n starts u
  have hdigest : stDigest ≠ stBadOpcode := by decide
  refine ⟨?start, fun fr hfr => ⟨fun hend => ?arriving, fun b hend => ?whole⟩, exec_frameHeaderDecision_of_none,
    fun fr p clear rule r hrule => ruled_of_rule hrule,
    fun fr hfr => ?ends, exec_frameEnd_of_none, fun o size data => ?shadow, exec_srtCopyDone s, fun ht => ?swap,
    fun chan an suite src ht => ?sak⟩
  case start =>
    intro held t fr
    rw [exec_frameSfd, ite_not starts]
    rfl
  case arriving =>
    intro r
    rw [exec_frameHeaderDecision_of_undecided hfr, headerDecision_of_arriving hend]
    rfl
  case whole =>
    intro r
    rw [exec_frameHeaderDecision_of_undecided hfr, headerDecision_of_ended hend]
    rfl
  case ends =>
    intro t w
    have hline : countLine (atOff s off) port sub = t := rfl
    rw [exec_frameEnd_of_arriving hfr, hline]
    refine ⟨fun hdrop => ?_, fun hkept => ⟨fun o ho => ?_, fun hpass => ?_⟩⟩
    · rw [frameEnd_of_dropped hdrop]
    · rw [frameEnd_of_failed hkept ho]
    · rw [frameEnd_of_passed hkept hpass]
  case shadow => rw [exec_srtShadowRuleWrite, ite_not (hasAccess v = true ∧ _)]
  case swap =>
    intro t
    refine ⟨fun hbusy => ?_, fun hfree => ⟨fun hsound => ?_, fun rule why hbad => ?_⟩⟩ <;>
      refine exec_of_answer rfl (by decide) rfl ht ?_ <;> rw [cmdBody]
    · rw [srtSwapBody_of_busy _ _ hbusy]
      exact answer_refuseAt s h _ 0 (by decide)
    · rw [srtSwapBody_of_sound _ _ hfree hsound]
      exact answer_acceptAt s _ h _ _ 0
    · rw [srtSwapBody_of_badRule _ _ hfree hbad]
      exact answer_refuseAt s h _ _ (by decide)
  case sak =>
    intro r no
    refine ⟨fun b hb => ⟨fun key hkey => ?_, fun hkey => ?_⟩, fun hb => ?_⟩ <;>
      refine exec_of_answer rfl (by decide) rfl ht ?_ <;> rw [cmdBody]
    · rw [macsecBody_of_key _ _ _ _ _ hb hkey]
      exact answer_acceptAt s _ h _ 0 0
    · rw [macsecBody_of_noKey _ _ _ _ _ hb hkey]
      exact answer_refuse s _ h _ _ 0 0 hdigest
    · rw [macsecBody_of_unread _ _ _ _ _ hb]
      exact answer_refuse s _ h _ _ 0 0 hdigest

end Sys2Proof.Machine
end

section
/-!
PROOFS. The shared engines (R239, R248) and the code blocks of radio (R279 to R282): what a period of a unit does, how
a job is taken from its port and how it returns.
-/

namespace Sys2Proof.Machine

/-! ## Cipher messages (R239) -/

theorem exec_cipherMessageSubmit (die stream ctx len key : Nat) (s : State) :
    exec (.cipherMessageSubmit die stream ctx len key) s = .next (irq s (
      if die < 8 ∧ submitter s ctx = true then updEng s die fun e =>
        { e with waiting := e.waiting ++ [newMsg s e stream ctx len key], nextId := e.nextId + 1 }
      else s)) := rfl

section Cipher
variable {s : State} {e : Engines} {n : Nat} {m : Msg}

theorem cipherWork_of_goesOn (hm : currentMsg s e n = some m) (h : goesOn s e m = true) :
    cipherWork s e n = runMsg s e n m := by
  simp only [cipherWork, hm, h, if_true]

/-- A message that may not go on is saved, and the longest waiting of all starts, where one may. -/
theorem cipherWork_of_not_goesOn (hm : currentMsg s e n = some m) (h : goesOn s e m = false) :
    cipherWork s e n = (startLongest s (saveMsg e n m) n).getD (saveMsg e n m) := by
  simp only [cipherWork, hm, h, Bool.false_eq_true, if_false]

end Cipher

/-! ## A period of a unit (R239) -/

theorem exec_enginePeriod (die n : Nat) (s : State) : exec (.enginePeriod die n) s =
    .next (irq s (if die < 8 ∧ n < 12 then enginePeriod s die n else s)) := rfl

/-- The unit at the period's start, without the message that went with its context's reset. -/
def tidied (s : State) (die n : Nat) : State := updEng s die fun e => tidyUnit s e n

section Period
variable {s : State} {die n : Nat}

theorem enginePeriod_of_job {x : FecJob}
    (h : oldestJob (look (tidied s die n).engines die) (absAc s s.tick.off) = some x) :
    enginePeriod s die n = runJob (tidied s die n) die n (absAc s s.tick.off) x := by
  unfold tidied at *
  simp only [enginePeriod, h]

theorem enginePeriod_of_noJob (h : oldestJob (look (tidied s die n).engines die) (absAc s s.tick.off) = none) :
    let t := tidied s die n
    let a := if slotsFull t (look t.engines die) = true then orReg t (bSeg + 0x80) 0x2 else t
    enginePeriod s die n = { updEng a die fun e => cipherWork a e n with fresh := a.fresh + 2 } := by
  unfold tidied at *
  simp only [enginePeriod, h]

end Period

theorem exec_segRadioWaitRead (v : View) (die : Nat) (s : State) :
    let a := bSeg + 0x40 + 8 * die
    exec (.segRadioWaitRead v die) s = .next (irq s (
      if hasAccess v = true ∧ die < 8 then emit (setReg64 s a 0) (.regData (BitVec.ofNat 64 (reg64 s a)))
      else emit s (.regData 0))) := rfl

/-! ## Code blocks (R279 to R282) -/

theorem exec_ldpcDecode (die port : Nat) (s : State) : exec (.ldpcDecode die port) s =
    .next (irq s (if die < 8 ∧ port < 8 then ldpcTake s die port false else s)) := rfl

theorem exec_ldpcEncode (die port : Nat) (s : State) : exec (.ldpcEncode die port) s =
    .next (irq s (if die < 8 ∧ port < 8 then ldpcTake s die port true else s)) := rfl

section Job
variable {s : State} {die port : Nat}

theorem ldpcTake_of_nil (h : submitted s die port = []) (encode : Bool) : ldpcTake s die port encode = s := by
  simp only [ldpcTake, h]

/-- A job is taken once all its input words stand behind its header, if it has the direction asked for. -/
theorem ldpcTake_of_cons {w : Nat × TWord} {l : List (Nat × TWord)} (h : submitted s die port = w :: l)
    (encode : Bool) :
    let hd := fecHdr w.2
    let m := inputWords hd
    ldpcTake s die port encode =
      if hd.encode = encode ∧ m ≤ l.length then
        updEng { s with hub := put s.hub (hubKey die (Config.fecPort die port 0)) (l.drop m) } die fun e =>
          { e with jobs := e.jobs ++ [newJob s die port hd (w :: l.take m)] }
      else s := by
  intro hd m
  have hwhole : ¬(hd.encode ≠ encode ∨ l.length < m) ↔ hd.encode = encode ∧ m ≤ l.length := by
    rw [not_or, not_not, not_lt]
  rw [← if_congr hwhole rfl rfl, ite_not, ldpcTake, h]

theorem exec_fecReturn_of_job {x : FecJob}
    (h : (look s.engines die).jobs.find? (fun x => decide (x.port = port)) = some x) :
    exec (.fecReturn die port) s = .next (irq s (if x.waiting = true then s
      else countJob (returnWords (updEng s die fun e => { e with jobs := e.jobs.erase x }) die x) die x)) := by
  rw [exec, execFecReturn, h, done]

theorem exec_fecReturn_of_none (h : (look s.engines die).jobs.find? (fun x => decide (x.port = port)) = none) :
    exec (.fecReturn die port) s = .next (irq s s) := by
  rw [exec, execFecReturn, h, done]

end Job

/-- Settles O58: a period by what its unit finds to do, a job by its port and by whether a unit has run it. -/
theorem enginesComplete : Obligations.EnginesComplete := by
  intro s die n stream ctx len key v
  refine ⟨exec_cipherMessageSubmit die stream ctx len key s,
    fun hunit => ?period, fun hno => ?noUnit,
    fun e m => cipherWork_of_goesOn, fun e m => cipherWork_of_not_goesOn,
    fun hport w l hl => ?take, fun hno => ?noJob,
    fun x => exec_fecReturn_of_job, exec_fecReturn_of_none, exec_segRadioWaitRead v die s⟩
  case period =>
    intro t now
    rw [exec_enginePeriod, if_pos hunit]
    refine ⟨fun x hx => ?_, fun hnone => ?_⟩
    · rw [enginePeriod_of_job hx]
      rfl
    · rw [enginePeriod_of_noJob hnone]
      rfl
  case noUnit => rw [exec_enginePeriod, if_neg hno]
  case take =>
    intro hd m j t
    rw [exec_ldpcDecode, exec_ldpcEncode, if_pos hport, if_pos hport, ldpcTake_of_cons hl, ldpcTake_of_cons hl]
    exact ⟨rfl, rfl⟩
  case noJob =>
    rw [exec_ldpcDecode, exec_ldpcEncode]
    rcases hno with hport | hempty
    · simp only [if_neg hport, and_self]
    · simp only [ldpcTake_of_nil hempty, ite_self, and_self]

end Sys2Proof.Machine
end

section
/-!
PROOFS. Replying before the tail (R255 to R270): what the oldest request that waits for its descriptors or its verdict
gets, when a reply is handed over, and the refusals of the commands on bindings in their order.
-/

namespace Sys2Proof.Machine

/-! ## Descriptors (R255, R259, R260) -/

section Descriptors
variable {s : State} {i n : Nat} {body : List Byte}

/-- Bytes that do not hold all the descriptors are not compared. -/
theorem exec_requestDescriptorsArrived_of_hold {port sub off : Nat}
    (h : oldestHold (atOff s off) port sub (fun h => !h.descOk) = some (i, n)) :
    exec (.requestDescriptorsArrived port sub body off) s = .next (irq s (
      if body.length < 4 * reqDescCount (holdAt (atOff s off) i n).header then atOff s off
      else descriptors (atOff s off) i n body)) := by
  change done s _ = _
  unfold atOff at *
  rw [h]
  simp only [← not_le, ite_not]
  rfl

theorem exec_requestDescriptorsArrived_of_none {port sub off : Nat}
    (h : oldestHold (atOff s off) port sub (fun h => !h.descOk) = none) :
    exec (.requestDescriptorsArrived port sub body off) s = .next (irq s (atOff s off)) := by
  change done s _ = _
  unfold atOff at *
  rw [h]
  rfl

/-- A match fills the hold place and says from when the fields may enter; a mismatch frees it. -/
theorem descriptors_eq :
    let b := look s.binds i
    let plain := decryptBody (look b.holds n) body
    descriptors s i n body =
      if descsMatch b (look b.holds n) plain = true then updHold s i n fun h =>
        { h with body := plain, descOk := true, readyAc := readyAt s b h,
                 echo := (sha256 (body.take (fieldBytes b))).take 16 }
      else freeHold (cutBad s 0x138) i n := by
  intro b plain
  rw [← ite_not]
  simp only [Bool.not_eq_true]
  rfl

end Descriptors

/-! ## REPLY_SEQ and the hand-over (R261, R262, R265) -/

theorem exec_replySeqGrant (die dom : Nat) (s : State) :
    let b := look s.seqBlocks (seqKey die dom)
    let c := (look s.domains dom).replySeq
    exec (.replySeqGrant die dom) s = .next (irq s (
      if die < 8 ∧ dom < 1024 ∧ b.left + b.left2 ≤ 2 ^ 29 ∧ (look s.domains dom).state ≠ .empty ∧
          agentUp s 2 = true then
        { s with
          domains := upd s.domains dom fun d => { d with replySeq := c + 2 ^ 30 }
          seqBlocks := upd s.seqBlocks (seqKey die dom) fun b => seqGranted b c }
      else s)) := rfl

theorem exec_replyHandover (i n off : Nat) (s : State) :
    let t := atOff s off
    let b := look t.binds i
    let x := look b.holds n
    exec (.replyHandover i n off) s = .next (irq s (
      if x.used = false ∨ t.level = .beacon then t
      else if x.recallDue = true then handRecall t i n
      else if x.reply = .produced ∧ x.noReply = false ∧ handAc t b x ≤ absAc t off then
        handover t i n (absAc t off)
      else t)) := rfl

/-! ## The verdict (R263, R264) -/

section Verdict
variable {s : State} {port sub off : Nat} {bytes : List Byte} {ended : Bool}

theorem exec_verdict_of_hold {i n : Nat}
    (h : oldestHold (atOff s off) port sub (fun h => h.verdict.isNone) = some (i, n)) :
    let t := atOff s off
    let v := verdictAc t (holdAt t i n) bytes.length ended
    exec (.verdict port sub bytes ended off) s = .next (irq s (
      if absAc t off < v then t else takeVerdict t i n bytes ended v)) := by
  change done s _ = _
  unfold atOff at *
  rw [h]
  simp only [← not_le, ite_not]
  rfl

theorem exec_verdict_of_none (h : oldestHold (atOff s off) port sub (fun h => h.verdict.isNone) = none) :
    exec (.verdict port sub bytes ended off) s = .next (irq s (atOff s off)) := by
  change done s _ = _
  unfold atOff at *
  rw [h]
  rfl

end Verdict

/-! ## Bindings (R257, R270) -/

/-- The BIND codes are none of the general codes (R337). -/
theorem stBind_ne_stBadOpcode (why : Nat) : 0x400 + why ≠ stBadOpcode := by
  unfold stBadOpcode
  omega

/-- The descriptor list of BIND, as read from PF's memory. -/
def descRead (u : State) (descN descAddr : Nat) : State × Option (List Byte × Bool) :=
  hostRead u (.function 0) 0 descAddr (4 * (descN + 1))

/-- The descriptors that a binding expects: a list that cannot be read is all zero. -/
def descsRead (u : State) (descN descAddr : Nat) : List (BitVec 32) :=
  descList (((descRead u descN descAddr).2.map (·.1)).getD []) (descN + 1)

/-- The binding that BIND makes of the standing timetable of context k (R257). -/
def newBinding (t : State) (k entryQ ring bulkQ recallQ tenant model fOut bulkEn descN : Nat)
    (descs : List (BitVec 32)) : Binding :=
  let e := (ttOf t k).report.entry
  { valid := true, holdT := (vfOf t (funcOfCtx t k)).ctrlT.getLsbD 1, func := funcOfCtx t k, tenant := tenant
    model := model, entryQ := entryQ, replyRing := ring, bulkQ := bulkQ, bulkEn := decide (bulkEn = 1)
    recallQ := recallQ, fIn := e.f, descN := descN + 1, fOut := fOut, d := e.d, ii := e.ii, ctx := k, descs := descs }

section Bind
variable {u : State} (h : CmdHdr) {entryQ : Nat} (ring bulkQ recallQ tenant model fOut bulkEn descN descAddr i : Nat)

theorem bindBody_of_noTimetable (hk : standingOf u entryQ = none) :
    bindBody h entryQ ring bulkQ recallQ tenant model fOut bulkEn descN descAddr u i = refuse u stState := by
  rw [bindBody, hk]

/-- With a standing timetable the five conditions are asked first, then a block for the binding is looked for. -/
theorem bindBody_of_standing {k : Nat} (hk : standingOf u entryQ = some k) :
    let t := (descRead u descN descAddr).1
    let descs := descsRead u descN descAddr
    let why := bindRefusal t k entryQ ring bulkQ recallQ descs
    let x := newBinding t k entryQ ring bulkQ recallQ tenant model fOut bulkEn descN descs
    bindBody h entryQ ring bulkQ recallQ tenant model fOut bulkEn descN descAddr u i =
      if why ≠ 0 then refuse t (0x400 + why)
      else (freeBinding t).elim (refuse t stNoResource) fun j =>
        acceptAt { t with binds := put t.binds j x } (tickCount t) h.off := by
  unfold descsRead descRead
  rw [bindBody, hk]
  obtain ⟨t, read⟩ := hostRead u (.function 0) 0 descAddr (4 * (descN + 1))
  cases hfree : freeBinding t <;> cases read <;> simp only [hfree] <;> rfl

end Bind

section Unbind
variable {u : State} (h : CmdHdr) {entryQ : Nat} (i : Nat)

theorem unbindBody_of_none (hb : bindingAt u entryQ = none) : unbindBody h entryQ u i = refuse u stState := by
  rw [unbindBody, hb]

theorem unbindBody_of_binding {b : Nat} (hb : bindingAt u entryQ = some b) :
    let t := { u with binds := upd u.binds b fun x => { x with removing := true } }
    unbindBody h entryQ u i =
      if (look u.binds b).removing = true then refuse u stState
      else acceptAt (addEffect t h i (nextTick t) (.unbind b)) (nextTick t) 0 := by
  rw [unbindBody, hb]

end Unbind

/-- Settles O57: a request by the moment of it that has come, a binding by the first check that its command fails. -/
theorem cutThroughComplete : Obligations.CutThroughComplete := by
  intro s port sub off bytes h at' u still
  have hstate : stState ≠ stBadOpcode := by decide
  refine ⟨fun i n hold => ?descriptors, exec_requestDescriptorsArrived_of_none,
    fun die dom => exec_replySeqGrant die dom s, fun i n => exec_replyHandover i n off s,
    fun i n ended hold => ?verdict, fun ended => exec_verdict_of_none,
    fun entryQ ring bulkQ recallQ tenant model fOut bulkEn descN descAddr => ?bind, fun entryQ ht => ?unbind⟩
  case descriptors =>
    intro b x plain hdr ready
    rw [exec_requestDescriptorsArrived_of_hold hold, descriptors_eq]
    rfl
  case verdict =>
    intro x v code t
    rw [exec_verdict_of_hold hold]
    rfl
  case bind =>
    intro c ht
    refine ⟨fun hk => ?_, fun k hk => ?_⟩
    · refine exec_of_answer rfl (by decide) rfl ht ?_
      rw [cmdBody, bindBody_of_noTimetable (hk := hk)]
      exact answer_refuseAt s h _ 0 hstate
    · intro r descs e why x
      have hr : descRead u descN descAddr = r := rfl
      have hdescs : descsRead u descN descAddr = descs := rfl
      refine ⟨fun hwhy => ?_, fun hwhy hfull => ?_, fun i hwhy hfree => ?_⟩ <;>
        refine exec_of_answer rfl (by decide) rfl ht ?_ <;>
        rw [cmdBody, bindBody_of_standing (hk := hk), hr, hdescs]
      · rw [if_pos hwhy]
        exact answer_refuseOn s r.1 h _ (stBind_ne_stBadOpcode why)
      · rw [if_neg (not_not_intro hwhy), hfull]
        exact answer_refuseOn s r.1 h _ (by decide)
      · rw [if_neg (not_not_intro hwhy), hfree]
        exact answer_acceptAt s _ h _ _ _
  case unbind =>
    refine ⟨fun hb => ?_, fun b hb => ?_⟩ <;> refine exec_of_answer rfl (by decide) rfl ht ?_ <;> rw [cmdBody]
    · rw [unbindBody_of_none h _ hb]
      exact answer_refuseAt s h _ 0 hstate
    · rw [unbindBody_of_binding h _ hb]
      exact answer_refuse_else hstate (answer_acceptAt s _ h _ _ 0)

end Sys2Proof.Machine
end

section
/-!
PROOFS. Fronthaul (R273, R276, R277, R285, R286) and carriers (R274, R283, R288): what a carrier sends at a symbol's
time, what becomes of the PRBs and messages that it receives, and the refusals of the carrier commands in their order.
-/

namespace Sys2Proof.Machine

/-! ## Downlink (R276, R285) -/

/-- The words of a symbol, where a timetable serves the carrier and they stand complete at an offset. -/
def airWords (s : State) (c symbol off : Nat) : Option (List TWord) :=
  (radioTt s c true).bind fun k => dlStanding s (carrierOf s c) (ttOf s k) c symbol off

section Symbol
variable {s : State} {c symbol off : Nat}

theorem cplaneSend_of_standing {q : Nat} {ws : List TWord} (hring : fhRing s (carrierOf s c) = some q)
    (hwords : airWords s c symbol off = some ws) :
    cplaneSend s c symbol off = fhSend (takeSymbol s c symbol ws) c q 2 0 (cplaneBody (carrierOf s c) c symbol) := by
  unfold airWords at hwords
  simp only [cplaneSend, hring, hwords]

/-- A symbol without a ring or without its words is a miss, whichever is lacking. -/
theorem cplaneSend_of_lacking (h : fhRing s (carrierOf s c) = none ∨ airWords s c symbol off = none) :
    cplaneSend s c symbol off = txMiss s c := by
  unfold airWords at h
  rw [cplaneSend]
  split
  case h_1 hring hwords => simp only [hring, hwords, reduceCtorEq, or_self] at h
  case h_2 => rfl

end Symbol

section Send
variable {s : State} {c sym air : Nat}

theorem exec_cplaneSend_of_airOff {o : Nat}
    (h : airOff s ((air : Int) - (carrierOf s c).txAdv - (carrierOf s c).cpLead) = some o) :
    exec (.cplaneSend c ⟨sym, air⟩) s = .next (irq s (
      if onAir (atOff s o) c true = true then cplaneSend (atOff s o) c sym o else atOff s o)) := by
  rw [exec, execCplaneSend, h]
  rfl

theorem exec_cplaneSend_of_outside
    (h : airOff s ((air : Int) - (carrierOf s c).txAdv - (carrierOf s c).cpLead) = none) :
    exec (.cplaneSend c ⟨sym, air⟩) s = .next (irq s s) := by
  rw [exec, execCplaneSend, h, done]

theorem exec_uplaneSend_of_taken {o : Nat} {w : Nat × List TWord}
    (hoff : airOff s ((air : Int) - (carrierOf s c).txAdv) = some o)
    (hw : (carrierOf s c).dlWords.find? (fun w => decide (w.1 = sym)) = some w) :
    exec (.uplaneSend c ⟨sym, air⟩) s = .next (irq s (
      if onAir (atOff s o) c true = true then uplaneSend (atOff s o) c sym w.2 else atOff s o)) := by
  rw [exec, execUplaneSend, hoff, hw]
  rfl

/-- Outside the tick, or with no C-plane message gone before, a symbol's U-plane messages are not sent. -/
theorem exec_uplaneSend_of_lacking
    (h : airOff s ((air : Int) - (carrierOf s c).txAdv) = none ∨
      (carrierOf s c).dlWords.find? (fun w => decide (w.1 = sym)) = none) :
    exec (.uplaneSend c ⟨sym, air⟩) s = .next (irq s s) := by
  rw [exec, execUplaneSend, done]
  split
  case h_1 hoff hw => simp only [hoff, hw, reduceCtorEq, or_self] at h
  case h_2 => rfl

end Send

/-! ## Uplink (R275, R277) -/

/-- A PRB is judged in order: bad, early or repeated, late, good. -/
theorem exec_uplaneReceive (port sub c sym prb : Nat) (iq : List (Int × Int)) (exp t air : Nat) (bad : Bool)
    (s : State) :
    let x := carrierOf s c
    let p : RadioPrb := { symbol := sym, airNs := air, prb := prb, words := bfpWords x.iqwUl iq exp }
    exec (.uplaneReceive port sub c sym prb iq exp t air bad) s = .next (irq s (
      if ¬(onAir s c false = true ∧ linkUp s port sub = true) then s
      else if bad = true ∨ uplaneOk x port sub prb iq = false then radBit (radCount s c 0x18 1) 0x4
      else if t < air + x.rxMin ∨ hasPrb x sym air prb = true then radCount s c 0x10 1
      else if air + x.rxMax < t then s
      else { radCount s c 0 1 with carriers := upd s.carriers c (storePrb · p) })) := by
  intro x p
  rw [ite_not]
  rfl

section Delivery
variable {s : State} {c sym air : Nat}

theorem exec_uplinkDelivery_of_served {k : Nat} (hk : radioTt s c false = some k) :
    let o := symbolOffset (ttOf s k) c sym
    exec (.uplinkDelivery c ⟨sym, air⟩) s = .next (irq s (
      if onAir s c false = true ∧ afterWindow s (carrierOf s c) air o = true then
        uplinkDelivery (atOff s o) c sym air o (ttOf s k)
      else s)) := by
  rw [exec, execUplinkDelivery, hk]
  rfl

theorem exec_uplinkDelivery_of_unserved (hk : radioTt s c false = none) :
    exec (.uplinkDelivery c ⟨sym, air⟩) s = .next (irq s s) := by
  rw [exec, execUplinkDelivery, hk, done]

end Delivery

/-! ## Delay measurement (R273) -/

/-- A subport hears a message while its link is up and the part is not at beacon. -/
def hearsEcpri (s : State) (port sub : Nat) : Prop := linkUp s port sub = true ∧ s.level ≠ .beacon

section Delay
variable {s : State} {port sub off : Nat} {msg : List Byte}

theorem exec_ecpriDelayMeasurement_of_unheard (h : ¬hearsEcpri (atOff s off) port sub) :
    exec (.ecpriDelayMeasurement port sub msg off) s = .next (irq s (atOff s off)) :=
  congrArg (fun t => Host.Outcome.next (irq s t)) (if_neg h)

theorem exec_ecpriDelayMeasurement_of_heard (h : hearsEcpri (atOff s off) port sub) :
    exec (.ecpriDelayMeasurement port sub msg off) s =
      .next (irq s (delayMeasurement (atOff s off) port sub msg off)) :=
  congrArg (fun t => Host.Outcome.next (irq s t)) (if_pos h)

theorem delayMeasurement_of_followUp (h : delayFollowUp msg = true) : delayMeasurement s port sub msg off = s :=
  if_pos h

theorem delayMeasurement_of_other (hf : delayFollowUp msg = false) (hr : delayRequest msg = false) :
    delayMeasurement s port sub msg off = ecpriBad s port sub := by
  rw [delayMeasurement, hf, if_neg Bool.false_ne_true, if_pos hr]

theorem delayMeasurement_of_request (hf : delayFollowUp msg = false) (hr : delayRequest msg = true) {q : Nat}
    (hring : radioRingOf s (subKey port sub) = some q) :
    delayMeasurement s port sub msg off =
      enqueue { s with fresh := s.fresh + 1 } q { ring := q, bytes := framed (delayResponse s msg off) } := by
  rw [delayMeasurement, hf, if_neg Bool.false_ne_true, hr, if_neg Bool.false_ne_true.symm, hring]

/-- A request on a subport that no radio-class ring serves has no answer and changes nothing. -/
theorem delayMeasurement_of_noRing (hr : delayRequest msg = true) (hring : radioRingOf s (subKey port sub) = none) :
    delayMeasurement s port sub msg off = s := by
  simp only [delayMeasurement, hr, hring, Bool.true_eq_false, if_false, ite_self]

end Delay

/-! ## Carriers (R274, R283, R288) -/

/-- The CARRIER codes are none of the general codes (R337). -/
theorem stCarrier_ne_stBadOpcode (code : Nat) : 0x500 + code ≠ stBadOpcode := by
  unfold stBadOpcode
  omega

/-- The block that describes a carrier, as read from PF's memory. -/
def carrierRead (u : State) (addr : Nat) : State × Option (List Byte × Bool) := hostRead u (.function 0) 0 addr 64

/-- The boundary that a carrier command names, or the first one that it may take. -/
def carrierDue (s : State) (boundary : Nat) : Nat := if boundary = 0 then tickAfter4096 s else boundary

section Carrier
variable {u : State} (h : CmdHdr) (c : Nat) {addr : Nat} (boundary i : Nat)

theorem carrierCfgBody_of_read {b : List Byte} (hread : (carrierRead u addr).2 = some (b, false)) :
    let t := (carrierRead u addr).1
    let y := carrierBlock b
    carrierCfgBody h c addr boundary u i =
      if carrierFieldsOk y = false then refuse t stBadParam
      else if (part t y.part).state ≠ .opened ∨ (part t y.part).radio = false then refuse t stState
      else if late4096 t boundary = true then refuseAt t stLate boundary 0
      else if carrierCode t c y ≠ 0 then refuse t (0x500 + carrierCode t c y)
      else acceptAt (addEffect t h i (carrierDue t boundary) (.carrier c y)) (carrierDue t boundary) 0 := by
  unfold carrierRead at *
  rw [carrierCfgBody, hread]
  rfl

theorem carrierCfgBody_of_unread (hread : ∀ b, (carrierRead u addr).2 ≠ some (b, false)) :
    carrierCfgBody h c addr boundary u i = refuse (carrierRead u addr).1 stAddress := by
  unfold carrierRead at *
  rw [carrierCfgBody]
  split
  case h_1 b hb => exact absurd hb (hread b)
  case h_2 => rfl

end Carrier

/-- Settles O60: a symbol by its time and what stands for it, a PRB or message by what it is, a carrier command by the
first check that it fails. -/
theorem radioComplete : Obligations.RadioComplete := by
  intro s c sym prb port sub off air boundary h x at' ctr u i due late
  have hstate : stState ≠ stBadOpcode := by decide
  have hlate : stLate ≠ stBadOpcode := by decide
  refine ⟨fun o ho => ?cplane, exec_cplaneSend_of_outside, fun o w => exec_uplaneSend_of_taken,
    exec_uplaneSend_of_lacking, fun iq exp t bad => exec_uplaneReceive port sub c sym prb iq exp t air bad s,
    fun k => exec_uplinkDelivery_of_served, exec_uplinkDelivery_of_unserved, fun msg => ?delay,
    fun addr ht => ?configure, fun ht => ?remove⟩
  case cplane =>
    intro t ws miss
    have hat : atOff s o = t := rfl
    rw [exec_cplaneSend_of_airOff ho, hat]
    refine ⟨fun hoff => ?_, fun hon hlack => ?_, fun hon q w hring hwords => ?_⟩
    · rw [if_neg (ne_true_of_eq_false hoff)]
    · rw [if_pos hon, cplaneSend_of_lacking hlack]
      rfl
    · rw [if_pos hon, cplaneSend_of_standing hring hwords]
      rfl
  case delay =>
    intro t ring hears
    have hat : atOff s off = t := rfl
    by_cases hheard : hears
    · rw [exec_ecpriDelayMeasurement_of_heard hheard, hat]
      refine ⟨fun hquiet => ?_, fun _ hf hr => ?_, fun _ hf hr q hring => ?_⟩
      · rcases hquiet with hno | hf | ⟨hr, hring⟩
        · exact absurd hheard hno
        · rw [delayMeasurement_of_followUp hf]
        · rw [delayMeasurement_of_noRing hr hring]
      · rw [delayMeasurement_of_other hf hr]
      · rw [delayMeasurement_of_request hf hr hring]
    · rw [exec_ecpriDelayMeasurement_of_unheard hheard]
      exact ⟨fun _ => rfl, fun hyes => absurd hyes hheard, fun hyes => absurd hyes hheard⟩
  case configure =>
    intro r no
    have hbad : stBadParam ≠ stBadOpcode := by decide
    refine ⟨fun b hb => ?_, fun hb => ?_⟩
    · intro y d
      have hbody := carrierCfgBody_of_read h c boundary i hb
      refine (exec_of_answer rfl (by decide) rfl ht ((congrArg _ hbody).trans
        (answer_ite (answer_refuseOn s r.1 h _ hbad)
        (answer_ite (answer_refuseOn s r.1 h _ hstate)
        (answer_ite (answer_refuse s r.1 h _ _ boundary 0 hlate)
        (answer_ite (answer_refuseOn s r.1 h _ (stCarrier_ne_stBadOpcode _))
        (answer_acceptAt s _ h _ d 0))))))).trans ?_
      simp only [apply_ite (irq s)]
      rfl
    · exact exec_of_answer rfl (by decide) rfl ht ((congrArg _ (carrierCfgBody_of_unread h c boundary i hb)).trans
        (answer_refuseOn s r.1 h _ (by decide)))
  case remove =>
    refine (exec_of_answer rfl (by decide) rfl ht (answer_refuse_else hstate
      (answer_ite (answer_refuseAt s h _ boundary hlate) (answer_acceptAt s _ h _ due 0)))).trans ?_
    simp only [apply_ite (irq s)]
    rfl

end Sys2Proof.Machine
end

section
/-!
PROOFS. What a step runs, and what it keeps of the fused minimum versions (R403, R410, R411).
-/

namespace Sys2Proof.Machine

/-- Settles O1: the step of a queue with a front. -/
theorem stepRunsFrontCommand : Obligations.StepRunsFrontCommand :=
  fun _ _ _ hq => step_of_front hq

/-- Settles O2: the step of an empty queue. -/
theorem emptyQueueIdles : Obligations.EmptyQueueIdles :=
  fun _ hq => step_of_empty hq

/-- Settles O6: that no fused minimum falls is among what every command keeps, and taking one off the queue moves
none. -/
theorem fusedMinimumsNeverFall : Obligations.FusedMinimumsNeverFall := by
  intro s t hstep
  cases hq : s.pending with
  | nil =>
    rw [step_of_empty hq] at hstep
    cases hstep
    exact forall2_le_refl _
  | cons c rest =>
    rw [step_of_front hq] at hstep
    have hkept : Grows { s with pending := rest } t := (grows_exec c _).next t hstep
    exact hkept.minimums

end Sys2Proof.Machine
end

section
/-!
PROOFS. The interrupt summary (R325, R330): vector 0 of PF is considered on every state that a command leaves.
-/

namespace Sys2Proof.Machine

/-- A command that names no tile completes, and with it vector 0 of PF is considered. -/
theorem exec_eq_done_of_noTile {c : Instr} (hc : namedTile c = none) (s : State) : ∃ t, exec c s = done s t := by
  cases c <;> cases hc <;> exact ⟨_, rfl⟩

/-- Every next state is one on which vector 0 of PF was considered. -/
theorem eq_irq_of_exec_next {c : Instr} {s t : State} (h : exec c s = .next t) : ∃ u, t = irq s u := by
  have hdone {u : State} (hu : exec c s = done s u) : t = irq s u := by
    rw [hu] at h
    cases h
    rfl
  cases hc : namedTile c with
  | none => exact (exec_eq_done_of_noTile hc s).imp fun _ => hdone
  | some place =>
    obtain ⟨die, tile⟩ := place
    have hanswers := exec_answersFor c s
    rw [hc] at hanswers
    obtain ⟨u, -, hu⟩ := hanswers
    by_cases hno : 39 < die ∨ 255 < tile
    · rw [if_pos hno] at hu
      cases hu.symm.trans h
    · exact ⟨u, hdone (hu.trans (if_neg hno))⟩

/-- A masked vector is held in the pending-bit array. -/
theorem pending_sendVec_of_masked {s : State} {f v : Nat} (h : vecMasked s f v = true) :
    bitOf (reg (sendVec s f v) (pbaWord f v)) (v % 32) = true := by
  have hreg : reg (sendVec s f v) (pbaWord f v) = reg (orReg s (pbaWord f v) (2 ^ (v % 32))) (pbaWord f v) := by
    simp only [sendVec, h, if_true]
    rfl
  rw [hreg, reg_orReg_self, bitOf, ← Nat.testBit_eq_decide_div_mod_eq, Nat.testBit_mod_two_pow, Nat.testBit_or,
    Nat.testBit_two_pow_self]
  simp [Nat.mod_lt v (by decide : 32 > 0)]

theorem wire_sendVec_of_open {s : State} {f v : Nat} (h : vecMasked s f v = false) :
    (sendVec s f v).wire = .msix f v :: s.wire := by
  simp only [sendVec, h, Bool.false_eq_true, if_false]

/-- Settles O8: the state that a command leaves is one on which vector 0 of PF was considered, and a bit that rose has
had it sent, or held. -/
theorem summaryBitFiresVectorZero : Obligations.SummaryBitFiresVectorZero := by
  intro c s t hexec hrose
  obtain ⟨u, rfl⟩ := eq_irq_of_exec_next hexec
  by_cases hsame : intSummary u &&& intSummary s = intSummary u
  · rw [irq, if_pos hsame] at hrose
    exact absurd hsame hrose
  · rw [irq, if_neg hsame]
    cases hmasked : vecMasked u 0 0 with
    | true => exact .inr (pending_sendVec_of_masked hmasked)
    | false =>
      rw [wire_sendVec_of_open hmasked]
      exact .inl rfl

end Sys2Proof.Machine
end

section
/-!
PROOFS. Commands that wait for their agent (R329, R334).
-/

namespace Sys2Proof.Machine

/-- A source whose command the agent may not take keeps it, and stalls where it is a ring whose completion ring is
full. -/
theorem takeWith_of_waits {s : State} {h : CmdHdr} {row : OpRow} (hno : mayTake s h row.agent = false)
    (reply : State → Nat → Reply) :
    takeWith s h row reply = if stallsRing s h = true then stallRing s h else s :=
  if_neg (ne_true_of_eq_false hno)

/-- Every command waits in this way, DEVICE_RESET as the others. -/
theorem exec_of_waits {c : Instr} {h : CmdHdr} {row : OpRow} {s : State} (hc : commandRow c = some (h, row))
    (hno : mayTake s h row.agent = false) :
    exec c s = .next (irq s (if stallsRing s h = true then stallRing s h else s)) := by
  by_cases hr : row.opcode = 0x0A03
  · obtain ⟨rfl, rfl⟩ := eq_deviceReset_of_opcode hc hr
    have hnot : ¬(mayTake s h 2 = true ∧
        (judge (taken s h) h deviceResetRow true true (deviceResetBody h) 0).status = stOk) :=
      fun htake => ne_true_of_eq_false hno htake.1
    change execDeviceReset h s = _
    rw [execDeviceReset, if_neg hnot, takeCommand, takeWith_of_waits hno, done]
  · rw [exec_command hc hr, takeWith_of_waits hno, done]

/-- Settles O10: a command that waits does so by what its ring does. -/
theorem commandWaitsForItsAgent : Obligations.CommandWaitsForItsAgent := by
  intro c h row s hc hno
  rw [exec_of_waits hc hno]
  exact ⟨fun hstall => by rw [if_neg (ne_true_of_eq_false hstall)], fun hstall => by rw [if_pos hstall]⟩

end Sys2Proof.Machine
end

section
/-!
PROOFS. The queue commands (R327, R330, R336): each by its refusals in their order.
-/

namespace Sys2Proof.Machine

/-- Settles O19: each command by the refusals of its body, in their order, and the state that it accepts. -/
theorem queueCommandsComplete : Obligations.QueueCommandsComplete := by
  intro s h q u x no
  have hstate : stState ≠ stBadOpcode := by decide
  refine ⟨fun f kind log2 vec dbslot peer base ht => ?assign, fun ht => ?enable, fun ht => ?disable,
    fun ht => ?release, fun ht => ?nop⟩
  case assign =>
    exact exec_of_answer rfl (by decide) rfl ht
      (answer_refuse_else (by decide) (answer_refuse_else hstate (answer_refuse_else (by decide)
        (answer_ite (answer_refuseAt s h _ 3 (by decide)) (answer_acceptAt s _ h _ 0 0)))))
  case enable => exact exec_of_answer rfl (by decide) rfl ht (answer_refuse_else hstate (answer_acceptAt s _ h _ 0 0))
  case disable => exact exec_of_answer rfl (by decide) rfl ht (answer_acceptAt s _ h _ 0 0)
  case release => exact exec_of_answer rfl (by decide) rfl ht (answer_refuse_else hstate (answer_acceptAt s _ h _ 0 0))
  case nop => exact exec_of_answer rfl (by decide) rfl ht (answer_acceptAt s _ h _ 0 0)

end Sys2Proof.Machine
end

section
/-!
PROOFS. Shadow cells, hart reservations, guests and the monitor's harts (R293, R300, R412): what each write and event
does, and when.
-/

namespace Sys2Proof.Machine

/-! ## The writes and events -/

theorem exec_partCellSWrite (v : View) (off : Nat) (b : Byte) (s : State) : exec (.partCellSWrite v off b) s =
    .next (irq s (if hasAccess v = false ∨ 2560 ≤ off then s
      else if cellWriteOk s (look s.cellS off) (b &&& 0x3F) = true then
        if (look s.cellS off).getLsbD 6 = true then s else { s with cellS := put s.cellS off (b &&& 0x3F) }
      else orReg s (bPart + 0x4) 0x1)) := rfl

theorem exec_partHartRsvWrite (v : View) (word : Nat) (w : BitVec 32) (s : State) :
    exec (.partHartRsvWrite v word w) s = .next (irq s (if hasAccess v = false ∨ 4 ≤ word then s
      else if guestOn s word w.toNat = true then orReg s (bPart + 0x4) 0x1
      else { s with store := { s.store with hartRsv := wordOf128 s.store.hartRsv word w.toNat } })) := rfl

theorem exec_guestEntry (hart f : Nat) (s : State) : exec (.guestEntry hart f) s = .next (irq s (
    if hart < 128 ∧ 1 ≤ f ∧ f < 1024 ∧ coresRun s = true ∧ look s.harts hart = 0 ∧ s.store.hartRsv.getLsbD hart = false
    then { s with harts := put s.harts hart f } else s)) := rfl

theorem exec_guestExit (hart save : Nat) (regs : List Byte) (s : State) : exec (.guestExit hart save regs) s =
    .next (irq s (if look s.harts hart = 0 then s
      else { hostWrite s (look s.harts hart) none save regs with harts := erase s.harts hart })) := rfl

theorem exec_monitorHartSwitch (hart : Nat) (s : State) : exec (.monitorHartSwitch hart) s = .next (irq s (
    if hart < 128 ∧ look s.harts hart = 0 then monitorSwitch s hart else s)) := rfl

/-! ## The switch of a hart to the new monitor (R412) -/

section Monitor
variable {s : State} {hart : Nat}

theorem monitorSwitch_of_none (h : s.life.monNew = none) : monitorSwitch s hart = s := by
  rw [monitorSwitch, h]

theorem monitorSwitch_of_new {n : BitVec 32} (h : s.life.monNew = some n) (hnew : hart ∉ s.life.monHarts) :
    monitorSwitch s hart =
      if (hart :: s.life.monHarts).length = 128 then
        { s with life := { s.life with
            monHarts := [], monNew := none, versions := s.life.versions.set 2 n
            measures := s.life.measures.set 2 s.life.monDigest } }
      else { s with life := { s.life with monHarts := hart :: s.life.monHarts } } := by
  simp only [monitorSwitch, h, if_neg hnew, hartCount]

theorem monitorSwitch_of_switched (hold : hart ∈ s.life.monHarts) (hlen : s.life.monHarts.length ≠ 128) :
    monitorSwitch s hart = s := by
  unfold monitorSwitch
  split
  · rfl
  · simp only [if_pos hold, hartCount, if_neg hlen]

end Monitor

/-- Settles O25: each write by its access and its test, each event of a hart by the hart's tag. -/
theorem shadowCellsAndHarts : Obligations.ShadowCellsAndHarts := by
  intro s v off word hart f save b w regs old all
  refine ⟨fun hv hoff hok => ⟨fun hradio => ?stored, fun hradio => ?radio⟩, fun hv hoff hok => ?rejected,
    fun h => ?noCell, fun hv hword hg => ?reserved, fun hv hword hg => ?guest, fun h => ?noWord,
    fun hh hlo hhi hr htag hrsv => ?enters, fun h => ?stays, fun h => ?leaves, fun h => ?idle,
    fun n hh htag hnew hfresh => ⟨fun hlen => ?takes, fun hlen => ?last⟩, fun h => ?keeps⟩
  case stored =>
    rw [exec_partCellSWrite, if_neg (by simp [hv, hoff]), if_pos hok, if_neg (ne_true_of_eq_false hradio)]
  case radio => rw [exec_partCellSWrite, if_neg (by simp [hv, hoff]), if_pos hok, if_pos hradio]
  case rejected => rw [exec_partCellSWrite, if_neg (by simp [hv, hoff]), if_neg (ne_true_of_eq_false hok)]
  case noCell => rw [exec_partCellSWrite, if_pos h]
  case reserved => rw [exec_partHartRsvWrite, if_neg (by simp [hv, hword]), if_neg (ne_true_of_eq_false hg)]
  case guest => rw [exec_partHartRsvWrite, if_neg (by simp [hv, hword]), if_pos hg]
  case noWord => rw [exec_partHartRsvWrite, if_pos h]
  case enters => rw [exec_guestEntry, if_pos ⟨hh, hlo, hhi, hr, htag, hrsv⟩]
  case stays =>
    rw [exec_guestEntry, if_neg]
    rintro ⟨hh, hlo, hhi, hr, htag, hrsv⟩
    simp only [hr, htag, hrsv, ne_eq, not_true_eq_false, Bool.true_eq_false, Bool.false_eq_true, or_false] at h
    omega
  case leaves => rw [exec_guestExit, if_neg h]
  case idle => rw [exec_guestExit, if_pos h]
  case takes => rw [exec_monitorHartSwitch, if_pos ⟨hh, htag⟩, monitorSwitch_of_new hnew hfresh, if_neg hlen]
  case last => rw [exec_monitorHartSwitch, if_pos ⟨hh, htag⟩, monitorSwitch_of_new hnew hfresh, if_pos hlen]
  case keeps =>
    rw [exec_monitorHartSwitch, ite_eq_right_iff.2]
    rintro ⟨hh, htag⟩
    rcases h with h | h | h | ⟨hold, hlen⟩
    · omega
    · exact absurd htag h
    · exact monitorSwitch_of_none h
    · exact monitorSwitch_of_switched hold hlen

end Sys2Proof.Machine
end

section
/-!
PROOFS. Quotas and the tenant control word (R305, R306, R308, R321): what each write does, and when.
-/

namespace Sys2Proof.Machine

theorem exec_vfQuotaWrite (v : View) (f k : Nat) (w : BitVec 32) (s : State) : exec (.vfQuotaWrite v f k w) s =
    .next (irq s (if hasAccess v = true ∧ 1 ≤ f ∧ f < 1024 ∧ 1 ≤ k ∧ k ≤ 4 then quotaWrite s f k w.toNat else s)) := rfl

theorem exec_vfTctrlWrite (v : View) (f : Nat) (w : BitVec 32) (s : State) : exec (.vfTctrlWrite v f w) s =
    .next (irq s (if v ≠ .o ∧ 1 ≤ f ∧ f < 1024 then
      { s with vfs := upd s.vfs f fun x => { x with tctrl := BitVec.ofNat 3 w.toNat } } else s)) := rfl

section Quota
variable {s : State} {f k d : Nat}

theorem quotaWrite_of_refused (h : (vfOf s f).cutPending = true ∨ (k = 3 ∧ 8192 < quotaValue k d)) :
    quotaWrite s f k d = orReg s (bPart + 0x4) 0x1 := if_pos h

theorem quotaWrite_of_stored {t : State}
    (ht : { s with vfs := upd s.vfs f fun x => withQuota x k (quotaValue k d) } = t)
    (hcut : (vfOf s f).cutPending = false) (hq : k = 3 → quotaValue k d ≤ 8192) :
    quotaWrite s f k d =
      if quotaValue k d < useOf t f k then notice t f (cutNotice k 0 (quotaValue k d) (tickCount t)) else t := by
  have hno : ¬((vfOf s f).cutPending = true ∨ (k = 3 ∧ 8192 < quotaValue k d)) := by
    rintro (h | ⟨hk, h⟩)
    · exact ne_true_of_eq_false hcut h
    · exact absurd (hq hk) (Nat.not_le.2 h)
  simp only [quotaWrite, if_neg hno, ht]

end Quota

/-- Settles O26: a quota write by its refusals and by the use it leaves, a control write by its view. -/
theorem quotaAndControlWrites : Obligations.QuotaAndControlWrites := by
  intro s v f k w n t quota
  refine ⟨fun x => rfl, rfl, fun hv hf hf' hk hk' hcut hq => ⟨fun huse => ?within, fun huse => ?below⟩,
    fun hv hf hf' hk hk' hno => ?rejected, fun h => ?closed, fun hv hf hf' => ?control, fun h => ?noControl⟩
  case within =>
    rw [exec_vfQuotaWrite, if_pos ⟨hv, hf, hf', hk, hk'⟩, quotaWrite_of_stored (t := t) rfl hcut hq,
      if_neg (Nat.not_lt.2 huse)]
  case below =>
    rw [exec_vfQuotaWrite, if_pos ⟨hv, hf, hf', hk, hk'⟩, quotaWrite_of_stored (t := t) rfl hcut hq,
      if_pos huse]
  case rejected => rw [exec_vfQuotaWrite, if_pos ⟨hv, hf, hf', hk, hk'⟩, quotaWrite_of_refused hno]
  case closed =>
    rw [exec_vfQuotaWrite, if_neg]
    rintro ⟨hv, hopen⟩
    simp only [hv, Bool.true_eq_false, false_or] at h
    omega
  case control => rw [exec_vfTctrlWrite, if_pos ⟨hv, hf, hf'⟩]
  case noControl =>
    rw [exec_vfTctrlWrite, if_neg]
    rintro ⟨hv, hopen⟩
    rcases h with h | h
    · exact hv h
    · omega

end Sys2Proof.Machine
end

section
/-!
PROOFS. Mailboxes (R303, R304, R305): what each write and timeout does, and when.
-/

namespace Sys2Proof.Machine

theorem exec_mbxTSend (f : Nat) (w : BitVec 32) (s : State) : exec (.mbxTSend f w) s = .next (irq s (
    if isVf f = true ∧ within (bits w.toNat 8 0) 1 256 = true then
      if (vfOf s f).mbx.outBusy = true then mbxSet s f fun m => { m with refused := true }
      else orReg (setPendingBit (mbxSet s f fun m =>
        { m with outBusy := true, outLen := bits w.toNat 8 0, outSeq := m.outSeq + 1 }) f) (bMbx + 0x118) 0x1
    else s)) := rfl

theorem exec_mbxOutAck (v : View) (w : BitVec 32) (s : State) : exec (.mbxOutAck v w) s = .next (irq s (
    if hasAccess v = true ∧ w.getLsbD 0 = true ∧ (vfOf s (mbxSel s)).mbx.outBusy = true then
      clrPendingBit (mbxSet s (mbxSel s) fun m => { m with outBusy := false, outDone := true }) (mbxSel s)
    else s)) := rfl

theorem exec_mbxInPost (v : View) (w : BitVec 32) (s : State) : exec (.mbxInPost v w) s = .next (irq s (
    if hasAccess v = true ∧ within (bits w.toNat 8 0) 1 256 = true then
      if (vfOf s (mbxSel s)).mbx.inFull = true then orReg s (bMbx + 0x118) 0x8
      else mbxSet s (mbxSel s) fun m =>
        { m with
          inFull := true, inLen := bits w.toNat 8 0, inSeq := m.inSeq + 1
          inb := inboundBytes s (bits w.toNat 8 0) }
    else s)) := rfl

theorem exec_mbxTInAck (f : Nat) (w : BitVec 32) (s : State) : exec (.mbxTInAck f w) s = .next (irq s (
    if isVf f = true ∧ w.getLsbD 0 = true ∧ (vfOf s f).mbx.inFull = true then
      orReg (mbxSet s f fun m => { m with inFull := false }) (bMbx + 0x118) 0x2
    else s)) := rfl

theorem exec_mbxTNtailWrite (f : Nat) (w : BitVec 32) (s : State) : exec (.mbxTNtailWrite f w) s = .next (irq s (
    if isVf f = true ∧ ntailOk (vfOf s f).mbx (BitVec.ofNat 8 w.toNat) = true then
      { s with vfs := upd s.vfs f fun x => { x with mbx := { x.mbx with ntail := BitVec.ofNat 8 w.toNat } } }
    else s)) := rfl

theorem exec_mbxTimeoutExpiry_out (f : Nat) (s : State) : exec (.mbxTimeoutExpiry f true) s = .next (irq s (
    if isVf f = true ∧ (vfOf s f).mbx.outBusy = true then
      incReg (orReg (clrPendingBit (mbxSet s f fun m => { m with outBusy := false, outTimeout := true }) f)
        (bMbx + 0x118) 0x4) (bMbx + 0x120) 1
    else s)) := rfl

theorem exec_mbxTimeoutExpiry_in (f : Nat) (s : State) : exec (.mbxTimeoutExpiry f false) s = .next (irq s (
    if isVf f = true ∧ (vfOf s f).mbx.inFull = true then
      incReg (orReg (mbxSet s f fun m => { m with inFull := false, inTimeout := true }) (bMbx + 0x118) 0x4)
        (bMbx + 0x120) 1
    else s)) := rfl

/-- Of two conditions one fails. -/
theorem not_both_of_false {a b : Bool} (h : a = false ∨ b = false) : ¬(a = true ∧ b = true) :=
  not_and_or.2 (h.imp ne_true_of_eq_false ne_true_of_eq_false)

theorem within_iff (x lo hi : Nat) : within x lo hi = true ↔ lo ≤ x ∧ x ≤ hi := by
  simp [within]

/-- Settles O27: each write by the conditions it meets, sends and posts by what the direction holds. -/
theorem mailboxesComplete : Obligations.MailboxesComplete := by
  intro s v f w n tail m g fits
  have hfits : within (bits w.toNat 8 0) 1 256 = true ↔ fits := within_iff _ _ _
  have htail : ntailOk m tail = true ↔ (m.nhead - tail).toNat ≤ 8 := decide_eq_true_iff
  refine ⟨fun hf hn hb => ?sends, fun hf hn hb => ?refuses, fun h => ?sendsNot, fun hv hw hb => ?acks,
    fun h => ?acksNot, fun hv hn hb => ?posts, fun hv hn hb => ?postRefused, fun h => ?postsNot,
    fun hf hw hb => ?empties, fun h => ?emptiesNot, fun hf hn => ?tail, fun h => ?tailNot, fun hf hb => ?outbound,
    fun hf hb => ?inbound, fun h => ?outboundNot, fun h => ?inboundNot⟩
  case sends => rw [exec_mbxTSend, if_pos ⟨hf, hfits.2 hn⟩, if_neg (ne_true_of_eq_false hb)]
  case refuses => rw [exec_mbxTSend, if_pos ⟨hf, hfits.2 hn⟩, if_pos hb]
  case sendsNot => rw [exec_mbxTSend, if_neg (not_and_or.2 (h.imp ne_true_of_eq_false (mt hfits.1)))]
  case acks => rw [exec_mbxOutAck, if_pos ⟨hv, hw, hb⟩]
  case acksNot => rw [exec_mbxOutAck, if_neg (not_and_or.2 (h.imp ne_true_of_eq_false not_both_of_false))]
  case posts => rw [exec_mbxInPost, if_pos ⟨hv, hfits.2 hn⟩, if_neg (ne_true_of_eq_false hb)]
  case postRefused => rw [exec_mbxInPost, if_pos ⟨hv, hfits.2 hn⟩, if_pos hb]
  case postsNot => rw [exec_mbxInPost, if_neg (not_and_or.2 (h.imp ne_true_of_eq_false (mt hfits.1)))]
  case empties => rw [exec_mbxTInAck, if_pos ⟨hf, hw, hb⟩]
  case emptiesNot => rw [exec_mbxTInAck, if_neg (not_and_or.2 (h.imp ne_true_of_eq_false not_both_of_false))]
  case tail => rw [exec_mbxTNtailWrite, if_pos ⟨hf, htail.2 hn⟩]
  case tailNot =>
    have hmany : ¬(isVf f = true ∧ ntailOk m tail = true) :=
      not_and_or.2 (h.imp ne_true_of_eq_false fun hn => mt htail.1 (Nat.not_le.2 hn))
    rw [exec_mbxTNtailWrite, if_neg hmany]
  case outbound => rw [exec_mbxTimeoutExpiry_out, if_pos ⟨hf, hb⟩]
  case inbound => rw [exec_mbxTimeoutExpiry_in, if_pos ⟨hf, hb⟩]
  case outboundNot => rw [exec_mbxTimeoutExpiry_out, if_neg (not_both_of_false h)]
  case inboundNot => rw [exec_mbxTimeoutExpiry_in, if_neg (not_both_of_false h)]

end Sys2Proof.Machine
end

section
/-!
PROOFS. Functions, keys and certificates (R297, R298, R299, R312, R313): the commands by their refusals in their order.
-/

namespace Sys2Proof.Machine

/-- A command that finishes later gets no status yet. -/
theorem answer_finishLater (s t : State) (h : CmdHdr) (row : OpRow) (i : Nat) :
    answer s h row i (finishLater t) = t := rfl

/-! ## KEY_INSTALL (R298, R299) -/

section KeyInstall
variable {u : State} {h : CmdHdr} {slot addr : Nat} (i : Nat)

/-- The wrapped key, as read from the memory of the function that installs it. -/
def keyRead (u : State) (h : CmdHdr) (slot addr : Nat) : State × Option (List Byte × Bool) :=
  hostRead u (.function (srcFunc u h.src)) (srcFunc u h.src) addr (keyBufLen slot)

theorem keyInstallBody_of_pf (hf : srcFunc u h.src = 0) (hslot : slot ≠ 4) :
    keyInstallBody h slot addr u i = refuse u stNotPermitted := if_pos ⟨hf, hslot⟩

theorem keyInstallBody_of_key (hmay : srcFunc u h.src ≠ 0 ∨ slot = 4) {b k : List Byte}
    (hread : (keyRead u h slot addr).2 = some (b, false))
    (hkey : unwrapped (keyRead u h slot addr).1 (srcFunc u h.src) slot b = some k) :
    keyInstallBody h slot addr u i =
      acceptAt (addEffect (keyRead u h slot addr).1 h i (nextTick u) (.installKey (srcFunc u h.src) slot k))
        (nextTick u) 0 := by
  have hno : ¬(srcFunc u h.src = 0 ∧ slot ≠ 4) := by tauto
  unfold keyRead at *
  simp only [keyInstallBody, if_neg hno, hread, hkey]

theorem keyInstallBody_of_noKey (hmay : srcFunc u h.src ≠ 0 ∨ slot = 4)
    (hno : ∀ b k, (keyRead u h slot addr).2 = some (b, false) →
      unwrapped (keyRead u h slot addr).1 (srcFunc u h.src) slot b ≠ some k) :
    keyInstallBody h slot addr u i = refuse (keyRead u h slot addr).1 stDigest := by
  have hopen : ¬(srcFunc u h.src = 0 ∧ slot ≠ 4) := by tauto
  unfold keyRead at *
  simp only [keyInstallBody, if_neg hopen]
  split
  · split
    · exact absurd ‹_› (hno _ _ ‹_›)
    · rfl
  · rfl

end KeyInstall

/-- Settles O28: each command by the refusals of its body, in their order, and the state that it accepts. -/
theorem functionAndKeyCommands : Obligations.FunctionAndKeyCommands := by
  intro s h u i g no
  have hstate : stState ≠ stBadOpcode := by decide
  have hinUse : stInUse ≠ stBadOpcode := by decide
  have hpermit : stNotPermitted ≠ stBadOpcode := by decide
  refine ⟨fun f tenant ht => ?assign, fun f ht => ?release, fun slot addr ht => ⟨fun hg hslot => ?pf,
    fun b k hmay hread hkey => ?key, fun hmay hno => ?noKey⟩, fun p dest nonce ht => ?attest,
    fun which dest ht => ?cert⟩
  case assign =>
    exact exec_of_answer rfl (by decide) rfl ht
      (answer_refuse_else hstate (answer_refuse_else hinUse (answer_acceptAt s _ h _ 0 0)))
  case release =>
    exact exec_of_answer rfl (by decide) rfl ht
      (answer_refuse_else hstate (answer_refuse_else hinUse (answer_acceptAt s _ h _ 0 0)))
  case pf =>
    refine exec_of_answer rfl (by decide) rfl ht ?_
    rw [cmdBody, keyInstallBody_of_pf _ hg hslot]
    exact answer_refuseAt s h _ 0 hpermit
  case key =>
    refine exec_of_answer rfl (by decide) rfl ht ?_
    rw [cmdBody, keyInstallBody_of_key _ hmay hread hkey]
    exact answer_acceptAt s _ h _ _ 0
  case noKey =>
    refine exec_of_answer rfl (by decide) rfl ht ?_
    rw [cmdBody, keyInstallBody_of_noKey _ hmay hno]
    exact answer_refuseOn s _ h _ (by decide)
  case attest =>
    exact exec_of_answer rfl (by decide) rfl ht (answer_refuse_else hpermit (answer_finishLater ..))
  case cert => exact exec_of_answer rfl (by decide) rfl ht (answer_acceptAt s _ h _ _ 0)

end Sys2Proof.Machine
end

section
/-!
PROOFS. Doorbells and what waits for room in a ring (R328, R329, R330, R377, R432).
-/

namespace Sys2Proof.Machine

/-! ## Doorbells (R328, R330) -/

section Doorbell
variable {s : State} {f slot q i : Nat}

theorem exec_queueDoorbell_of_none (h : rungQueue s f slot = none) (index : BitVec 32) :
    exec (.queueDoorbell f slot index) s = .next (irq s s) := by
  rw [exec, execQueueDoorbell, h, done]

theorem exec_queueDoorbell_of_queue (h : rungQueue s f slot = some q) (index : BitVec 32) :
    exec (.queueDoorbell f slot index) s = .next (irq s (doorbell s q (bits index.toNat 16 0))) := by
  rw [exec, execQueueDoorbell, h, done]

theorem doorbell_of_deaf (h : (queueOf s q).enabled = false ∨ boundEntry s q = true) : doorbell s q i = s := if_pos h

theorem doorbell_of_heard (henabled : (queueOf s q).enabled = true) (hfree : boundEntry s q = false) :
    doorbell s q i =
      if doorbellBad (queueOf s q) i = true then doorbellError s q (queueOf s q)
      else
        let t := { s with queues := upd s.queues q fun y => rung y i }
        if unannounced (rung (queueOf s q) i) = true then ringVector t q else t := by
  simp only [doorbell, henabled, hfree, Bool.true_eq_false, Bool.false_eq_true, or_self, if_false]

end Doorbell

theorem rung_of_producer {z : Queue} (h : drivesProd z.kind = true) (i : Nat) :
    rung z i = { z with prod := i, armed := true } := if_pos h

theorem rung_of_consumer {z : Queue} (h : drivesProd z.kind = false) (i : Nat) :
    rung z i = { z with cons := i, armed := true } := if_neg (ne_true_of_eq_false h)

/-- Settles O20: a doorbell by the queue it rings, its value by what the queue holds. -/
theorem doorbellsMoveIndices : Obligations.DoorbellsMoveIndices := by
  intro s f slot q index
  refine ⟨fun hnone => exec_queueDoorbell_of_none hnone index, fun hq => ?_⟩
  intro x i y t
  rw [exec_queueDoorbell_of_queue hq]
  refine ⟨fun hen hfree hgood => ?good, fun z => ⟨fun h => rung_of_producer h i, fun h => rung_of_consumer h i⟩,
    fun hdeaf => ?deaf, fun hen hfree hbad => ?bad⟩
  case good =>
    rw [doorbell_of_heard hen hfree, if_neg (ne_true_of_eq_false hgood)]
    rfl
  case deaf => rw [doorbell_of_deaf hdeaf]
  case bad =>
    rw [doorbell_of_heard hen hfree, if_pos hbad]
    rfl

/-! ## What waited for room (R329, R377, R432) -/

section Waiting
variable {s : State} {q : Nat}

theorem exec_cmdRingResume (q : Nat) (s : State) : exec (.cmdRingResume q) s = .next (irq s (
    if (queueOf s q).stalled = true ∧ cplRoom s q = true then
      { s with queues := upd s.queues q fun y => { y with stalled := false } } else s)) := rfl

theorem exec_deferredCommandStatus_of_none (h : (queueOf s q).waitStatus = []) :
    exec (.deferredCommandStatus q) s = .next (irq s s) := by
  simp only [exec, execDeferredCommandStatus, h, done]

theorem exec_deferredCommandStatus_of_first {b : List Byte} {l : List (List Byte)}
    (h : (queueOf s q).waitStatus = b :: l) :
    let p := queueOf s (queueOf s q).peer
    exec (.deferredCommandStatus q) s = .next (irq s (
      if p.enabled = true ∧ ringFull p = false then writeDeferred s q b else s)) := by
  simp only [exec, execDeferredCommandStatus, h, done]

theorem exec_barrierEntryDeferred_of_none (h : (queueOf s q).barrier = []) :
    exec (.barrierEntryDeferred q) s = .next (irq s s) := by
  simp only [exec, execBarrierEntryDeferred, h, done]

theorem exec_barrierEntryDeferred_of_first {b : List Byte} {l : List (List Byte)}
    (h : (queueOf s q).barrier = b :: l) :
    exec (.barrierEntryDeferred q) s = .next (irq s (
      if (queueOf s q).enabled = true ∧ ringFull (queueOf s q) = false then writeLateBarrier s q b else s)) := by
  simp only [exec, execBarrierEntryDeferred, h, done]

/-- A ring that is disabled or full has no room. -/
theorem no_room {x : Queue} (h : x.enabled = false ∨ ringFull x = true) : ¬(x.enabled = true ∧ ringFull x = false) :=
  not_and_or.2 (h.imp ne_true_of_eq_false ne_false_of_eq_true)

end Waiting

/-- Settles O21: each by whether something waits, and by the room in its ring. -/
theorem waitingEntriesFindRoom : Obligations.WaitingEntriesFindRoom := by
  intro s q x p
  refine ⟨fun hstalled hroom => ?resumes, fun hno => ?stalls, fun b l hb hen hroom => ?status, fun hno => ?noStatus,
    fun b l hb hen hroom => ?barrier, fun hno => ?noBarrier⟩
  case resumes => rw [exec_cmdRingResume, if_pos ⟨hstalled, hroom⟩]
  case stalls =>
    rw [exec_cmdRingResume, if_neg (not_both_of_false hno)]
  case status =>
    rw [exec_deferredCommandStatus_of_first hb, if_pos ⟨hen, hroom⟩]
    rfl
  case noStatus =>
    cases hb : x.waitStatus with
    | nil => exact exec_deferredCommandStatus_of_none hb
    | cons b l =>
      rw [hb] at hno
      rw [exec_deferredCommandStatus_of_first hb, if_neg (no_room (hno.resolve_left (List.cons_ne_nil b l)))]
  case barrier =>
    rw [exec_barrierEntryDeferred_of_first hb, if_pos ⟨hen, hroom⟩]
    rfl
  case noBarrier =>
    cases hb : x.barrier with
    | nil => exact exec_barrierEntryDeferred_of_none hb
    | cons b l =>
      rw [hb] at hno
      rw [exec_barrierEntryDeferred_of_first hb, if_neg (no_room (hno.resolve_left (List.cons_ne_nil b l)))]

end Sys2Proof.Machine
end

section
/-!
PROOFS. Maintenance as commands (R338, R339, R410, R411, R414, R415) and the mask of the reset pin (R408, R409): each by
its conflict, then by its own refusals.
-/

namespace Sys2Proof.Machine

section Started
variable (s : State) (h : CmdHdr) (row : OpRow)

/-- An activity that starts answers its tick and offset. -/
theorem answer_startedNow (t : State) : answer (taken s h) h row (cmdIndex s h.src) (startedNow h t) =
    fulfilled s t h row.agent (tickCount t) h.off := answer_acceptAt s t h row _ _

/-- A command of an activity, where it meets no conflict: its own reply. -/
theorem answer_withActivity_of_clear {code scope : Nat} {mask : BitVec 256} {ok : Nat → State → Reply} {t : State}
    (hc : conflictAct (taken s h) code scope mask = none)
    (hok : answer (taken s h) h row (cmdIndex s h.src) (ok (freeAct (taken s h)) (taken s h)) = t) :
    answer (taken s h) h row (cmdIndex s h.src) (withActivity (taken s h) code scope mask ok) = t := by
  rw [withActivity_of_clear hc, hok]

/-- The same where it does: refused with the running activity. -/
theorem answer_withActivity_of_conflict {code scope : Nat} {mask : BitVec 256} (ok : Nat → State → Reply) {i : Nat}
    {a : Act} (hc : conflictAct (taken s h) code scope mask = some (i, a)) :
    answer (taken s h) h row (cmdIndex s h.src) (withActivity (taken s h) code scope mask ok) =
      statusWritten s (taken s h) h row.agent stConflict (actResult a.code a.scope.toNat a.start.toNat) i := by
  rw [withActivity_of_conflict hc]
  exact answer_refuse s _ h row _ _ _ (by decide)

end Started

/-- Settles O51: each command by its conflict, then by its own refusals. -/
theorem maintenanceCommandsComplete : Obligations.MaintenanceCommandsComplete := by
  intro s h n image len u fine
  have hstate : stState ≠ stBadOpcode := by decide
  have hdigest : stDigest ≠ stBadOpcode := by decide
  have hinUse : stInUse ≠ stBadOpcode := by decide
  refine ⟨fun row hrow ht i a hc => ?conflict, fun ht hc => ?retrain, ⟨fun ht hc => ?sm, fun ht hc => ?sc⟩,
    fun ht hc => ?serdes, fun ht hc => ?retire, fun ht hc => ?rebuild, fun ht => ?mask⟩
  case conflict =>
    simp only [List.mem_cons, List.not_mem_nil, or_false] at hrow
    rcases hrow with rfl | rfl | rfl | rfl | rfl | rfl <;>
      exact exec_of_answer rfl (by decide) rfl ht (answer_withActivity_of_conflict s h _ _ hc)
  case retrain =>
    intro a
    have hexec := exec_of_answer rfl (by decide) rfl ht (answer_withActivity_of_clear s h _ hc
      (answer_refuse_else hstate (answer_startedNow s h _ _)))
    exact ⟨fun hsound => hexec.trans (by rw [if_neg hsound]), fun hbad => hexec.trans (by rw [if_pos hbad])⟩
  case sm =>
    intro x up t
    have hexec := exec_of_answer rfl (by decide) rfl ht (answer_withActivity_of_clear s h _ hc
      (answer_ite (answer_refuseOn s _ h _ hdigest) (answer_startedNow s h _ _)))
    exact ⟨fun hok => hexec.trans (by rw [if_neg (ne_false_of_eq_true hok)]),
      fun hno => hexec.trans (by rw [if_pos hno])⟩
  case sc =>
    intro x y up t
    have hexec := exec_of_answer rfl (by decide) rfl ht (answer_withActivity_of_clear s h _ hc
      (answer_ite (answer_refuseOn s _ h _ hdigest) (answer_startedNow s h _ _)))
    refine ⟨fun ⟨hx, hy⟩ => hexec.trans ?_, fun hno => hexec.trans (by rw [if_pos hno])⟩
    rw [if_neg (not_or.2 ⟨ne_false_of_eq_true hx, ne_false_of_eq_true hy⟩)]
  case serdes =>
    exact exec_of_answer rfl (by decide) rfl ht (answer_withActivity_of_clear s h _ hc (answer_startedNow s h _ _))
  case retire =>
    have hexec := exec_of_answer rfl (by decide) rfl ht (answer_withActivity_of_clear s h _ hc
      (answer_refuse_else hinUse (answer_startedNow s h _ _)))
    exact ⟨fun hfree => hexec.trans (by rw [if_neg (ne_true_of_eq_false hfree)]),
      fun hused => hexec.trans (by rw [if_pos hused])⟩
  case rebuild =>
    exact exec_of_answer rfl (by decide) rfl ht (answer_withActivity_of_clear s h _ hc (answer_startedNow s h _ _))
  case mask =>
    intro masked unmasked
    exact exec_of_answer rfl (by decide) rfl ht (answer_ite (answer_acceptAt s _ h _ 0 0)
      (answer_else_refuse (by decide) (answer_acceptAt s _ h _ 0 0)))

end Sys2Proof.Machine
end

section
/-!
PROOFS. The ends of maintenance activities (R410, R411, R412, R414, R415) and the thermal events (R426).
-/

namespace Sys2Proof.Machine

/-! ## The events of activities -/

theorem exec_hbmCopyDone_of_none {s : State} {n : Nat} (h : (pcOf s n).copy = none) :
    exec (.hbmCopyDone n) s = .next (irq s s) := by
  rw [exec, execHbmCopyDone, h, done]

theorem exec_hbmCopyDone_of_copy {s : State} {n k : Nat} (h : (pcOf s n).copy = some k) :
    let t := (badLines s n k).foldl (fun s l => copyLine s n l) s
    exec (.hbmCopyDone n) s = .next (irq s
      { t with pcs := upd t.pcs n fun x => { x with copy := none, switching := true } }) := by
  rw [exec, execHbmCopyDone, h, done]

theorem exec_thermalAlarmClear (l : List (Nat × Int)) (s : State) : exec (.thermalAlarmClear l) s =
    .next (irq s (if s.life.pwrOk = true then thermClear s l else s)) := rfl

theorem crossed_iff (s : State) (n : Nat) (temp level : Int) :
    crossed s n temp level = true ↔ (s.life.pwrOk = true ∧ n < 72) ∧ level ≤ temp := by
  simp only [crossed, Bool.and_eq_true, decide_eq_true_eq]

/-- A thermal event counts where the part has power, has the unit, and the reading reaches the threshold. -/
theorem ite_crossed (s : State) (n : Nat) (temp level : Int) (t : State) :
    (if crossed s n temp level = true then t else s) =
      if (s.life.pwrOk = true ∧ n < 72) ∧ level ≤ temp then t else s :=
  if_congr (crossed_iff s n temp level) rfl rfl

theorem exec_thermalAlarm (n : Nat) (temp : Int) (s : State) : exec (.thermalAlarm n temp) s = .next (irq s (
    if (s.life.pwrOk = true ∧ n < 72) ∧ alarmAt n ≤ temp then thermAlarm (sense s n temp) n else s)) := by
  rw [← ite_crossed]
  rfl

theorem exec_thermalHot (n : Nat) (temp : Int) (s : State) : exec (.thermalHot n temp) s = .next (irq s (
    if (s.life.pwrOk = true ∧ n < 72) ∧ hotAt n ≤ temp then thermHot (thermAlarm (sense s n temp) n) else s)) := by
  rw [← ite_crossed]
  rfl

theorem exec_thermalTrip (n : Nat) (temp : Int) (s : State) : exec (.thermalTrip n temp) s = .next (irq s (
    if (s.life.pwrOk = true ∧ n < 72) ∧ tripAt n ≤ temp then thermTrip s n temp else s)) := by
  rw [← ite_crossed]
  rfl

/-- Settles O52: each end by what waits for it, each reading by the thresholds that it reaches. -/
theorem maintenanceEventsComplete : Obligations.MaintenanceEventsComplete := by
  intro s n b temp l
  refine ⟨fun k => exec_hbmCopyDone_of_copy, exec_hbmCopyDone_of_none, rfl, ⟨rfl, rfl⟩, rfl, rfl,
    ⟨exec_thermalAlarm n temp s, exec_thermalHot n temp s, ?trip⟩, ?clear⟩
  case trip =>
    rw [exec_thermalTrip, ite_not]
    rfl
  case clear =>
    intro t
    simp only [exec_thermalAlarmClear, ← Bool.not_eq_true, ite_not]
    rfl

end Sys2Proof.Machine
end

section
/-!
PROOFS. Jobs of several chips (R361, R362, R363): READY, GO, brakes and the barrier timeout, each by the job it names.
-/

namespace Sys2Proof.Machine

/-! ## READY (R361) -/

section Ready
variable {s : State} {job : BitVec 64} {member chips period run : Nat} {phase : BitVec 32}

theorem exec_readyReceived_of_none (h : ctxOfJob s job = none) :
    exec (.readyReceived job member chips period phase run) s = .next (irq s
      { s with earlyReady := (s.earlyReady.filter fun x => decide (¬(x.1 = job ∧ x.2.1 = member))) ++
          [(job, (member, chips, period, phase, run))] }) := by
  rw [exec, execReadyReceived, readyReceived, h, done]

theorem exec_readyReceived_of_job {c : Nat} (h : ctxOfJob s job = some c) :
    exec (.readyReceived job member chips period phase run) s = .next (irq s (
      if (ttOf s c).report.member ≠ 0 ∨ (ttOf s c).job.state ≠ .waiting then s
      else
        let a := setJob s c fun j => addReady j (member, chips, period, phase, run)
        if readyMatch a (ttOf a c) = true then a else raiseBrake a c 5)) := by
  rw [exec, execReadyReceived, readyReceived, h, done]

end Ready

/-! ## GO (R361) -/

section Go
variable {s : State} {job : BitVec 64} {ts off : Nat}

theorem exec_goReceived_of_none (h : ctxOfJob (atOff s off) job = none) :
    exec (.goReceived job ts off) s = .next (irq s (atOff s off)) := by
  unfold atOff at *
  simp only [exec, execGoReceived, goReceived, h, done]

section Job
variable {c : Nat} (h : ctxOfJob (atOff s off) job = some c)
include h

theorem exec_goReceived_of_begun (hjob : (ttOf s c).job.state ≠ .waiting) :
    exec (.goReceived job ts off) s = .next (irq s (atOff s off)) := by
  unfold atOff at *
  simp only [exec, execGoReceived, goReceived, h, done]
  exact congrArg _ (congrArg _ (if_pos hjob))

theorem exec_goReceived_of_waiting (hjob : (ttOf s c).job.state = .waiting) :
    exec (.goReceived job ts off) s = .next (irq s (
      (tickAtNs (atOff s off) ts).elim (raiseBrake (atOff s off) c 5) fun n =>
        if n = nextTick s ∧ tickLen s < off + 256 then raiseBrake (atOff s off) c 5
        else scheduleJob (atOff s off) c n ts)) := by
  unfold atOff at *
  have hno : ¬(ttOf { s with tick := { s.tick with off := off } } c).job.state ≠ .waiting := not_not_intro hjob
  simp only [exec, execGoReceived, goReceived, h, done, if_neg hno]
  cases tickAtNs { s with tick := { s.tick with off := off } } ts <;> rfl

end Job
end Go

/-! ## Brakes (R362, R363) -/

@[simp] theorem notice_tick (s : State) (f : Nat) (n : Notice) : (notice s f n).tick = s.tick := by
  unfold notice
  split <;> rfl

@[simp] theorem brakeHere_tick (s : State) (c p cause : Nat) : (brakeHere s c p cause).tick = s.tick :=
  notice_tick _ _ _

@[simp] theorem noteLate_tick (s : State) (c : Nat) (late : Bool) : (noteLate s c late).tick = s.tick := by
  cases late <;> rfl

theorem passing_iff (t : Timetable) : passing t = true ↔
    t.job.state = .running ∨ (t.job.state = .braked ∧ t.state ≠ .staged ∧ t.job.stopped = false) := by
  simp [passing, and_assoc]

theorem brakePass_of_late {t : Timetable} {pass : Nat} (h : passing t = true ∧ pass ≤ t.job.pass) :
    brakePass t pass = (t.job.pass + 1, true) := if_pos h

theorem brakePass_of_timely {t : Timetable} {pass : Nat} (h : ¬(passing t = true ∧ pass ≤ t.job.pass)) :
    brakePass t pass = (pass, false) := if_neg h

section Brake
variable {s : State} {job : BitVec 64} {off : Nat} (port pass cause member : Nat)

theorem exec_brakeReceived_of_none (h : ctxOfJob (atOff s off) job = none) :
    exec (.brakeReceived port job pass cause member off) s = .next (irq s (atOff s off)) := by
  unfold atOff at *
  simp only [exec, execBrakeReceived, brakeReceived, h, done]

/-- A later brake moves the stop pass and counts; a first one is carried out and sent on. -/
theorem exec_brakeReceived_of_job {c : Nat} (h : ctxOfJob (atOff s off) job = some c) :
    let q := brakePass (ttOf s c) pass
    exec (.brakeReceived port job pass cause member off) s = .next (irq s (
      if (ttOf s c).job.state = .braked then
        noteLate (orReg (setJob (atOff s off) c fun j => jobBraked j q.1 cause) (bTrk + 0xC) 0x2) c q.2
      else firstBrake (atOff s off) c port (look s.trunk port).peerId pass cause member)) := by
  unfold atOff at *
  simp only [exec, execBrakeReceived, brakeReceived, h, done]
  rfl

/-- A first brake: its cause and stop pass, fault 45 at the port it came by, and the same brake sent on. -/
theorem firstBrake_eq (s : State) (c port senderId pass cause originator : Nat) :
    let t := ttOf s c
    let q := brakePass t pass
    let b := raiseFault (noteLate (brakeHere s c q.1 cause) c q.2)
      { code := 45, named := .context c, locKind := 6, location := port, off := s.tick.off }
    firstBrake s c port senderId pass cause originator =
      sendAlarms b (relayMembers t senderId originator) 1
        (alarmBody b t.report.jobId pass originator t.report.chips cause) := by
  simp only [firstBrake, noteLate_tick, brakeHere_tick]

end Brake

/-! ## The barrier timeout (R361) -/

theorem exec_barrierTimeout (c : Nat) (s : State) : exec (.barrierTimeout c) s = .next (irq s (
    if (ttOf s c).report.member = 0 ∧ (ttOf s c).job.state = .waiting ∧ (ttOf s c).job.startNs = none ∧
        allReady (ttOf s c) = false then raiseBrake s c 5 else s)) := rfl

/-- Settles O46: each message by the job it names and that job's state. -/
theorem jobMessagesTakeEffect : Obligations.JobMessagesTakeEffect := by
  intro s job c member chips period run off ts phase t r at'
  have hat : atOff s off = at' := rfl
  refine ⟨exec_readyReceived_of_none, fun hjob hmember hwaiting => ?ready, fun hjob hno => ?readyNot,
    fun hjob => ⟨exec_goReceived_of_none hjob, fun port pass cause => exec_brakeReceived_of_none _ _ _ _ hjob⟩,
    fun hjob => ⟨exec_goReceived_of_begun hjob, fun hwaiting => ⟨fun n hn => ⟨fun hfar => ?go,
        fun hnext hlate => ?goLate⟩, fun hn => ?goNever⟩, fun port pass cause => ?brake⟩,
    fun hmember hwaiting hstart hready => ?timeout, fun hno => ?timeoutNot⟩
  case ready =>
    intro a
    rw [exec_readyReceived_of_job hjob, if_neg (not_or.2 ⟨not_not_intro hmember, not_not_intro hwaiting⟩)]
  case readyNot => rw [exec_readyReceived_of_job hjob, if_pos hno]
  case go =>
    have hgo : ¬(n = nextTick s ∧ tickLen s < off + 256) := by omega
    rw [exec_goReceived_of_waiting hjob hwaiting, hat, hn, Option.elim_some, if_neg hgo]
  case goLate =>
    rw [exec_goReceived_of_waiting hjob hwaiting, hat, hn, Option.elim_some, if_pos ⟨hnext, hlate⟩]
  case goNever => rw [exec_goReceived_of_waiting hjob hwaiting, hat, hn, Option.elim_none]
  case brake =>
    intro began q
    have hbegan : passing t = true ∧ pass ≤ t.job.pass ↔ began := and_congr_left' (passing_iff t)
    refine ⟨fun h => brakePass_of_late (hbegan.2 h), fun h => brakePass_of_timely (mt hbegan.1 h), fun hbraked => ?_,
      fun hfirst => ?_⟩
    · rw [exec_brakeReceived_of_job _ _ _ _ hjob, if_pos hbraked]
      rfl
    · rw [exec_brakeReceived_of_job _ _ _ _ hjob, if_neg hfirst, firstBrake_eq]
      rfl
  case timeout => rw [exec_barrierTimeout, if_pos ⟨hmember, hwaiting, hstart, hready⟩]
  case timeoutNot =>
    rw [exec_barrierTimeout, if_neg]
    rintro ⟨hmember, hwaiting, hstart, hready⟩
    simp [t, hmember, hwaiting, hstart, hready] at hno

end Sys2Proof.Machine
end

section
/-!
PROOFS. Cells, scheduled words and messages of the trunk (R346 to R358): what a slot sends, what a received cell and a
slot's delivery do.
-/

namespace Sys2Proof.Machine

/-! ## A slot of a port that is UP (R346, R353, R358) -/

theorem exec_trunkCellSend (p slot : Nat) (s : State) : exec (.trunkCellSend p slot) s = .next (irq s (
    if p < 40 ∧ (portAt s p).state = .up ∧ slot < slotsInTick s then cellSend s p slot else s)) := rfl

section Send
variable {s : State} {p slot : Nat}

theorem cellSend_of_words {w : Nat × TWord} {l : List (Nat × TWord)}
    (h : standingWords (atOff s (slotOffset slot)) p slot = w :: l) :
    cellSend s p slot = cellOut (takeWords (atOff s (slotOffset slot)) p slot (w :: l)) p slot
      { vc := 0, pos := 3, wv := wvOf (w :: l) } (wordsPayload (w :: l)) := by
  unfold atOff at *
  rw [cellSend, h]

section Wordless
variable (h : standingWords (atOff s (slotOffset slot)) p slot = [])
include h

theorem cellSend_of_noChannel (hvc : nextVc (portAt s p) = none) :
    cellSend s p slot = cellOut (atOff s (slotOffset slot)) p slot { idle := true } [] := by
  unfold atOff at *
  rw [cellSend, h, hvc]

theorem cellSend_of_noMessage {vc : Nat} (hvc : nextVc (portAt s p) = some vc) (hm : headOf (portAt s p) vc = none) :
    cellSend s p slot = cellOut (atOff s (slotOffset slot)) p slot { idle := true } [] := by
  unfold atOff at *
  rw [cellSend, h, hvc]
  simp only [hm]

theorem cellSend_of_message {vc : Nat} {m : TrunkMsg} (hvc : nextVc (portAt s p) = some vc)
    (hm : headOf (portAt s p) vc = some m) :
    let k := look (portAt s p).sent vc
    cellSend s p slot = cellOut (updPort (atOff s (slotOffset slot)) p fun x => sentCell x vc m) p slot
      { vc := vc, epoch := m.epoch && decide (vc ≠ 1), pos := posOf k (msgCells m) }
      (slice (msgBytes m) (92 * k) 92) := by
  unfold atOff at *
  rw [cellSend, h, hvc]
  simp only [hm]

end Wordless
end Send

/-! ## A received cell (R347, R348) -/

theorem exec_trunkCellReceive (p : Nat) (cell : BitVec 800) (arrival : Nat) (bad : Bool) (s : State) :
    exec (.trunkCellReceive p cell arrival bad) s = .next (irq s (
      if p < 40 ∧ (portAt s p).state = .up then cellReceive s p cell arrival bad else s)) := rfl

/-- The port with the cell counted, and what the FEC corrected with it. -/
def cellCounted (s : State) (p arrival : Nat) : State :=
  let t := updPort (atOff s arrival) p fun x => { x with rxCount := x.rxCount + 1 }
  bump { t with fresh := t.fresh + 1 } (portWindow p + 0x30) (Config.trunkCorrected s.fresh)

section Receive
variable (s : State) (p arrival : Nat) (cell : BitVec 800)

theorem cellReceive_of_uncorrectable :
    cellReceive s p cell arrival true = bump (cellCounted s p arrival) (portWindow p + 0x38) 1 := rfl

theorem cellReceive_of_sealed (h : openCell (portAt s p).rxKey (portAt s p).rxCount cell = none) :
    cellReceive s p cell arrival false = bump (cellCounted s p arrival) (portWindow p + 0x40) 1 := by
  rw [cellReceive]
  simp only [h]
  rfl

theorem cellReceive_of_opened {payload : List Byte}
    (h : openCell (portAt s p).rxKey (portAt s p).rxCount cell = some payload) :
    cellReceive s p cell arrival false =
      takeCell (cellCounted s p arrival) p arrival (wordHdr (cell.toNat % 2 ^ 32)) payload := by
  rw [cellReceive]
  simp only [h]
  rfl

end Receive

/-! ## The delivery of a slot (R350, R353, R354) -/

theorem exec_vc0Delivery (p slot : Nat) (s : State) : exec (.vc0Delivery p slot) s = .next (irq s (
    if p < 40 ∧ slot < slotsInTick s then vc0Deliver s p slot else s)) := rfl

/-- The port at the slot's delivery, its held words taken out. -/
def heldTaken (s : State) (p slot : Nat) : State :=
  updPort (atOff s (placeOffset s p slot % tickLen s)) p fun x =>
    { x with held := x.held.filter fun h => decide (h.1 ≠ slot) }

section Delivery
variable {s : State} {p slot : Nat}

theorem vc0Deliver_of_listed {c : Nat} (h : slotUser (heldTaken s p slot) p slot = some c) :
    vc0Deliver s p slot = (listedWords (heldTaken s p slot) c p slot).foldl
      (fun t j => deliverWord t c p slot (heldOf (portAt s p) slot) j) (heldTaken s p slot) := by
  unfold vc0Deliver
  extract_lets held had tick placed u
  have hu : slotUser u p slot = some c := h
  rw [hu]
  rfl

theorem vc0Deliver_of_unlisted (h : slotUser (heldTaken s p slot) p slot = none) :
    vc0Deliver s p slot =
      if (portAt s p).held.any (fun h => decide (h.1 = slot)) = true then
        orReg (bump (heldTaken s p slot) (bTrk + 0x20) 1) (bTrk + 0xC) 0x20
      else heldTaken s p slot := by
  unfold vc0Deliver
  extract_lets held had tick placed u
  have hu : slotUser u p slot = none := h
  rw [hu]
  rfl

end Delivery

/-! ## The first message of a port (R356, R358) -/

theorem exec_messageForward_of_none {s : State} {p : Nat} (h : (portAt s p).inbox = []) :
    exec (.messageForward p) s = .next (irq s s) := by
  simp only [exec, execMessageForward, messageForward, h, done]

theorem exec_messageForward_of_first {s : State} {p : Nat} {m : TrunkMsg} {l : List TrunkMsg}
    (h : (portAt s p).inbox = m :: l) : exec (.messageForward p) s = .next (irq s (
      forward (updPort s p fun x => { x with
        inbox := l
        toReturn := if 2 ≤ m.vc then upd x.toReturn m.vc (· + msgCells m) else x.toReturn }) m)) := by
  simp only [exec, execMessageForward, messageForward, h, done]

/-- Settles O54: a slot by what stands for it, a received cell by what opens it, a delivery by who lists the slot. -/
theorem cellsAndMessagesMove : Obligations.CellsAndMessagesMove := by
  intro s p slot arrival cell bad x at'
  refine ⟨fun hup => ?sends, fun hno => ?sendsNot, fun hup => ?receives, fun hno => ?receivesNot, fun hin => ?delivers,
    fun hno => ?deliversNot, fun m l => exec_messageForward_of_first, exec_messageForward_of_none⟩
  case sends =>
    intro t idle
    rw [exec_trunkCellSend, if_pos hup]
    refine ⟨fun w l hw => ?_, fun hw hvc => ?_, fun vc hw hvc => ⟨fun hm => ?_, fun m hm => ?_⟩⟩
    · intro hdr
      rw [cellSend_of_words hw]
      rfl
    · rw [cellSend_of_noChannel hw hvc]
      rfl
    · rw [cellSend_of_noMessage hw hvc hm]
      rfl
    · intro k hdr
      rw [cellSend_of_message hw hvc hm]
      rfl
  case sendsNot => rw [exec_trunkCellSend, if_neg hno]
  case receives =>
    intro counted t
    rw [exec_trunkCellReceive, if_pos hup]
    refine ⟨fun hbad => ?_, fun hbad hopen => ?_, fun payload hbad hopen => ?_⟩ <;> subst hbad
    · rfl
    · rw [cellReceive_of_sealed s p arrival cell hopen]
      rfl
    · rw [cellReceive_of_opened s p arrival cell hopen]
      rfl
  case receivesNot => rw [exec_trunkCellReceive, if_neg hno]
  case delivers =>
    intro t
    rw [exec_vc0Delivery, if_pos hin]
    refine ⟨fun c hc => ?_, fun hc => ⟨fun hheld => ?_, fun hheld => ?_⟩⟩
    · rw [vc0Deliver_of_listed hc]
      rfl
    · rw [vc0Deliver_of_unlisted hc, if_neg (ne_true_of_eq_false hheld)]
      rfl
    · rw [vc0Deliver_of_unlisted hc, if_pos hheld]
      rfl
  case deliversNot => rw [exec_vc0Delivery, if_neg hno]

end Sys2Proof.Machine
end

section
/-!
PROOFS. Resets, levels and isolation as commands (R383, R385, R386, R388, R390): each by its refusals in their order.
-/

namespace Sys2Proof.Machine

/-! ## DEVICE_RESET (R386) -/

theorem takes_deviceReset_iff {s : State} {h : CmdHdr} :
    takes s (.deviceReset h) = true ↔ passes s h deviceResetRow = true := by
  simp [takes, commandRow, deviceResetRow, fieldsOk, buffersOk]

/-- DEVICE_RESET, once no general check refuses it: its status, then the reset. -/
theorem exec_deviceReset {s : State} {h : CmdHdr} (ht : takes s (.deviceReset h) = true) :
    let u := taken s h
    exec (.deviceReset h) s = .next (irq s (startDeviceReset
      (fulfilled s { u with life := { u.life with resetting := true } } h 2 (tickCount u) h.off) 2 false)) := by
  intro u
  have hpasses := takes_deviceReset_iff.1 ht
  have hok : (judge u h deviceResetRow true true (deviceResetBody h) 0).status = stOk := by
    rw [judge_passes hpasses]
    rfl
  have hreply : takeCommand s h deviceResetRow true true (deviceResetBody h) =
      fulfilled s { u with life := { u.life with resetting := true } } h 2 (tickCount u) h.off :=
    (takeCommand_passes hpasses _).trans (answer_acceptAt s _ h _ _ _)
  rw [exec, execDeviceReset, hreply, if_pos ⟨passes_mayTake hpasses, hok⟩, done]

/-! ## LEVEL_DROP (R388) -/

/-- The refusals of LEVEL_DROP, the return to full and the drop. -/
theorem levelDropBody_eq (u : State) (h : CmdHdr) (lv i : Nat) :
    levelDropBody h lv u i =
      if u.life.resetting = true then refuse u stState
      else if lv = 0 ∧ u.level = .radioOnly then finishLater (addEffect u h i (nextTick u) .levelFull)
      else if lv ≤ 2 ∧ levelCode u.level < lv then
        accept (dropLevel { u with tick := { u.tick with off := h.off } } (if lv = 1 then .radioOnly else .beacon))
      else refuse u stState := by
  unfold levelDropBody
  by_cases hlv : lv = 0
  · simp only [hlv, if_true, true_and, Nat.not_lt_zero, and_false, if_false]
  · simp only [hlv, false_and, if_false]

/-- Settles O47: each command by the refusals of its body, in their order, and the state that it accepts. -/
theorem resetCommandsComplete : Obligations.ResetCommandsComplete := by
  intro s h c p lv u at' i
  have hstate : stState ≠ stBadOpcode := by decide
  refine ⟨fun ht => ?context, fun ht => ?partition, exec_deviceReset, fun ht => ?level, fun ht => ?isolate⟩
  case context =>
    intro t
    refine exec_of_answer rfl (by decide) rfl ht ?_
    rw [← ite_not]
    exact answer_refuse_else hstate (answer_acceptAt s _ h _ _ 0)
  case partition =>
    exact exec_of_answer rfl (by decide) rfl ht (answer_refuse_else hstate (answer_acceptAt s _ h _ _ _))
  case level =>
    refine exec_of_answer rfl (show 0x0A04 ≠ 0x0A03 by decide) rfl ht ?_
    rw [cmdBody, levelDropBody_eq]
    exact answer_refuse_else hstate (answer_ite (answer_finishLater ..)
      (answer_else_refuse hstate (answer_acceptAt s _ h _ 0 0)))
  case isolate =>
    exact exec_of_answer rfl (by decide) rfl ht (answer_refuse_else hstate (answer_acceptAt s _ h _ 0 0))

end Sys2Proof.Machine
end

section
/-!
PROOFS. The escalation registers (R387, R398): a write is stored where it loosens nothing.
-/

namespace Sys2Proof.Machine

theorem exec_fltEscWrite (v : View) (which : Nat) (d : BitVec 32) (s : State) :
    exec (.fltEscWrite v which d) s =
      .next (irq s (if hasAccess v = true ∧ which < 3 then fltEsc s which d.toNat else s)) := rfl

/-- The value is in the register's ranges and loosens nothing. -/
theorem escOk_iff (old new hi most least longest : Nat) : escOk old new hi most least longest = true ↔
    (1 ≤ bits new hi 0 ∧ bits new hi 0 ≤ most ∧ least ≤ bits new 17 4 ∧ bits new 17 4 ≤ longest) ∧
      bits new hi 0 ≤ bits old hi 0 ∧ bits old 17 4 ≤ bits new 17 4 := by
  simp only [escOk, Bool.and_eq_true, decide_eq_true_eq]
  tauto

/-- A write of a register whose row is known, by its bounds. -/
theorem fltEsc_of_row {s : State} {which addr hi most least longest : Nat} (data : Nat)
    (hrow : escRow which = (addr, hi, most, least, longest)) :
    fltEsc s which data =
      if escOk (reg s addr) data hi most least longest = true then
        setReg s addr (bits data hi 0 + bits data 17 4 * 16)
      else orReg s (bFlt + 0x14) 0x200 := by
  rw [fltEsc, hrow]

/-- Sending a vector moves no word but the one that may hold it. -/
theorem reg_sendVec_ne (s : State) {f v a : Nat} (h : a / 4 ≠ pbaWord f v / 4) : reg (sendVec s f v) a = reg s a := by
  cases hmasked : vecMasked s f v with
  | true =>
    have hreg : reg (sendVec s f v) a = reg (orReg s (pbaWord f v) (2 ^ (v % 32))) a := by
      simp only [sendVec, hmasked, if_true]
      rfl
    rw [hreg, reg_orReg_ne s _ h]
  | false =>
    simp only [sendVec, hmasked, Bool.false_eq_true, if_false]
    rfl

theorem reg_irq_ne (s t : State) {a : Nat} (h : a / 4 ≠ pbaWord 0 0 / 4) : reg (irq s t) a = reg t a := by
  unfold irq
  split
  · rfl
  · exact reg_sendVec_ne t h

theorem escRow_of_mem {which addr hi most least longest : Nat}
    (h : (which, addr, hi, most, least, longest) ∈ [(0, bFlt + 0x40, 1, 3, 60, 3600),
      (1, bFlt + 0x44, 3, 8, 600, 3600), (2, bFlt + 0x48, 1, 2, 3600, 14400)]) :
    which < 3 ∧ escRow which = (addr, hi, most, least, longest) ∧
      addr / 4 ≠ (bFlt + 0x14) / 4 ∧ addr / 4 ≠ pbaWord 0 0 / 4 := by
  simp only [List.mem_cons, Prod.mk.injEq, List.not_mem_nil, or_false] at h
  rcases h with ⟨rfl, rfl, rfl, rfl, rfl, rfl⟩ | ⟨rfl, rfl, rfl, rfl, rfl, rfl⟩ | ⟨rfl, rfl, rfl, rfl, rfl, rfl⟩ <;>
    decide

/-- Settles O49: a write by what it would loosen, and the register that it names by the words that a write may move. -/
theorem escalationLimitsOnlyTighten : Obligations.EscalationLimitsOnlyTighten := by
  intro s v d
  refine ⟨fun hv which addr hi most least longest hmem => ?_, fun which hno => ?closed⟩
  · intro old n w
    obtain ⟨hwhich, hrow, hevent, hpba⟩ := escRow_of_mem hmem
    rw [exec_fltEscWrite, if_pos ⟨hv, hwhich⟩, fltEsc_of_row _ hrow]
    refine ⟨fun hok => ?stored, fun hno => ⟨?refused, ?kept⟩⟩
    case stored => rw [if_pos ((escOk_iff ..).2 hok)]
    case refused => rw [if_neg (mt (escOk_iff ..).1 hno)]
    case kept => rw [reg_irq_ne _ _ hpba, reg_orReg_ne s _ hevent]
  case closed =>
    rw [exec_fltEscWrite, if_neg (not_and_or.2 (hno.imp ne_true_of_eq_false Nat.not_lt.2))]

end Sys2Proof.Machine
end

section
/-!
PROOFS. Rails (R399, R400), boot (R402 to R405) and the reset pin (R406, R407, R409): each event by the stage it meets.
-/

namespace Sys2Proof.Machine

/-! ## The rails (R399, R404) -/

theorem exec_railPowerGood (g : Nat) (s : State) :
    let t := { s with life := railGood s.life g }
    exec (.railPowerGood g) s = .next (irq s (
      if railAwaited s.life g = true then if t.life.stage = .scRom then trainPcie t else t else s)) := rfl

theorem stage_of_railAwaited {l : Life} {g : Nat} (h : railAwaited l g = true) : l.stage = .rails := by
  simp only [railAwaited, Bool.and_eq_true, decide_eq_true_eq] at h
  exact h.1.1

theorem railGood_of_lt (l : Life) {g : Nat} (h : g < 3) :
    railGood l g = { l with goods := l.goods.set g true, enables := l.enables.set (g + 1) true } := by
  simp only [railGood, if_pos h]

theorem railGood_of_last (l : Life) {g : Nat} (h : ¬g < 3) :
    railGood l g = { l with goods := l.goods.set g true, stage := .scRom } := by
  simp only [railGood, if_neg h]

theorem trainPcie_of_scRom {s : State} (h : s.life.stage = .scRom) : trainPcie s = emit s .pcieTrain := by
  simp only [trainPcie, pcieLinkUp, h, if_true]

section Awaited
variable {s : State} {g : Nat} (h : railAwaited s.life g = true)
include h

/-- The power-good of a group but the last raises the next enable. -/
theorem exec_railPowerGood_of_lt (hg : g < 3) : exec (.railPowerGood g) s = .next (irq s
    { s with life := { s.life with
        goods := s.life.goods.set g true, enables := s.life.enables.set (g + 1) true } }) := by
  have hrails : ¬(railGood s.life g).stage = .scRom := by
    rw [railGood_of_lt _ hg, stage_of_railAwaited h]
    decide
  rw [exec_railPowerGood, if_pos h, if_neg hrails, railGood_of_lt _ hg]

/-- The last one starts the boot, and the link trains. -/
theorem exec_railPowerGood_of_last (hg : ¬g < 3) : exec (.railPowerGood g) s = .next (irq s
    (emit { s with life := { s.life with goods := s.life.goods.set g true, stage := .scRom } } .pcieTrain)) := by
  rw [exec_railPowerGood, if_pos h, railGood_of_last _ hg, if_pos rfl, trainPcie_of_scRom rfl]

end Awaited

/-! ## Boot stages (R402, R405) -/

theorem exec_bootTrain (b : Bool) (s : State) : exec (.bootTrain b) s = .next (irq s (
    if s.life.stage = .train then
      { s with life := if b = true then { s.life with stage := .restore } else bootFails s.life 5 }
    else s)) := rfl

theorem exec_bootRestore (b : Bool) (s : State) : exec (.bootRestore b) s = .next (irq s (
    if s.life.stage = .restore then if b = true then bootRestore s else { s with life := bootFails s.life 6 }
    else s)) := rfl

/-! ## The reset pin (R406) -/

theorem exec_resetNAssert (s : State) : exec .resetNAssert s = .next (irq s (
    if pinWatched s = true ∧ s.life.resetHolding = false then resetPinLow s else s)) := rfl

/-- Settles O50: each event by the stage it meets; a power-good by its group, a restore by the store, the pin by its
mask. -/
theorem powerAndBootComplete : Obligations.PowerAndBootComplete := by
  intro s g ms b mac l st
  refine ⟨?on, ?good, ?timeout, ?off, ?deassert, ?fall, ?rom, ?firmware, ?mgmt, ?train, ?restore, ?alive, ?pinLow,
    ?release, ?held, ?enrolment⟩
  case on | timeout | off | deassert | fall | rom | firmware | mgmt | alive | release | held | enrolment => rfl
  case good =>
    intro next up
    by_cases hawaited : railAwaited l g = true
    · rw [if_neg (ne_false_of_eq_true hawaited)]
      by_cases hg : g < 3
      · rw [if_pos hg, exec_railPowerGood_of_lt hawaited hg]
      · rw [if_neg hg, exec_railPowerGood_of_last hawaited hg]
    · rw [if_pos (Bool.eq_false_iff.2 hawaited), exec_railPowerGood, if_neg hawaited]
  case train =>
    rw [exec_bootTrain, ite_not]
    cases b <;> rfl
  case restore =>
    intro back
    rw [exec_bootRestore, ite_not]
    rfl
  case pinLow =>
    intro low t held
    have hwatched : ¬(pinWatched s = false ∨ l.resetHolding = true) ↔ pinWatched s = true ∧ l.resetHolding = false := by
      simp
    rw [exec_resetNAssert]
    by_cases hno : pinWatched s = false ∨ l.resetHolding = true
    · rw [if_pos hno, if_neg (mt hwatched.2 (not_not_intro hno))]
    · rw [if_neg hno, if_pos (hwatched.1 hno)]
      rfl

end Sys2Proof.Machine
end
